-- ==== Sys2Proof/Word.lean ====
section
/-! DEFINITION. The word types of the AZ128 model and their plainest arithmetic. -/

namespace Sys2Proof

/-- A 64-bit register value. -/
abbrev Word := BitVec 64

/-- A byte. -/
abbrev Byte := BitVec 8

/-- A 64-byte line of memory, byte 0 in bits [7:0] (R17). -/
abbrev Line := BitVec 512

/-- A sparse table by number: the entries that differ from the table's default, or once did.
What a number that is not listed holds is the reader's default argument. -/
abbrev SMap (α : Type) := List (Nat × α)

/-- A Bool as one bit. -/
abbrev b1 (b : Bool) : BitVec 1 := BitVec.ofBool b

/-- A Bool as the word 0 or 1. -/
abbrev boolW (b : Bool) : Word := if b then 1#64 else 0#64

end Sys2Proof
end

