-- ==== Sys2Proof/Config.lean ====
section
/-! DEFINITION. What the silicon fixes, and the values the spec leaves open: opaque constants that no proof can
evaluate. -/

namespace Sys2Proof.Config

/-- SAFE_FMAP's word of an action: act and esc the same, and the fixed flag (R472, R473). -/
def fmapWord (act : Nat) (fixed : Bool) : Nat := act + 8 * act + (if fixed then 0x400000 else 0)

/-- The reset value of SAFE_FMAP[f] of each fault code (R472): 0 LOG, 1 IRQ, 2 MIN, 3 LOSE, 4 STOP, 5 SPLIT. -/
def faultActions : List (Nat × Nat) :=
  [(0x01, fmapWord 3 true), (0x02, fmapWord 4 true), (0x03, fmapWord 3 true), (0x04, fmapWord 2 false),
   (0x05, fmapWord 3 false), (0x06, fmapWord 4 true), (0x07, fmapWord 4 false), (0x08, fmapWord 1 false),
   (0x09, fmapWord 3 false), (0x0A, fmapWord 1 false), (0x0B, fmapWord 3 false), (0x0C, fmapWord 5 true),
   (0x0D, fmapWord 1 false), (0x0E, fmapWord 1 false), (0x0F, fmapWord 1 false), (0x10, fmapWord 1 false),
   (0x11, fmapWord 0 false), (0x12, fmapWord 1 false), (0x13, fmapWord 1 false), (0x14, fmapWord 5 true),
   (0x15, fmapWord 1 false), (0x16, fmapWord 1 false)]

/-- What a port of local number `p` does at a speed code (R379, R394, R413): the rate in kbit/s, the [pcs] period, rx_corr
and tx_corr in hundredths of a ns; none: the port's type has no such speed. -/
def speedRow (p code : Nat) : Option (Nat × Nat × Nat × Nat) :=
  if p < 2 then (if code = 0 then some (25000000, 256, 164000, 82432) else none)
  else if p < 8 then
    match code with
    | 0 => some (10000000, 640, 327840, 165120)
    | 1 => some (5000000, 1280, 655520, 330240)
    | 2 => some (2500000, 2560, 1310880, 660480)
    | _ => none
  else if p < 16 then
    match code with
    | 0 => some (1000000, 800, 76960, 40000)
    | 1 => some (100000, 1500, 60160, 33000)
    | _ => none
  else
    match code with
    | 0 => some (25000000, 256, 12448, 6656)
    | 1 => some (25000000, 256, 57504, 25088)
    | 2 => some (10000000, 640, 30880, 16640)
    | 3 => some (10000000, 640, 30880, 16640)
    | 4 => some (5000000, 640, 36000, 21760)
    | 5 => some (2500000, 640, 46240, 32000)
    | 6 => some (1000000, 800, 25760, 14400)
    | _ => none

/-- Hundredths of a ns rounded to the nearest value of the 16.16 format (R394). -/
def fix16 (h : Nat) : Nat := (h * 65536 + 50) / 100

/-- ETH_TSC of a port at a speed code (R394). -/
def tscOf (p code : Nat) : Nat :=
  match speedRow (p % 20) code with
  | some (_, _, rx, tx) => fix16 rx + fix16 tx * 2 ^ 32
  | none => 0

/-- The free values of the run, by number: what the spec leaves open (log 3). -/
opaque freeWord : Nat → BitVec 64

/-- The bytes that a GCM crypto job writes: its operation, whether its key has 256 bits, its key, IV and input, and the
byte's number (log 44: the spec does not say where a job's AAD and tag stand). -/
opaque gcmJobOut : Nat → Bool → Nat → Nat → List (BitVec 8) → Nat → BitVec 8

/-- The tag that a GCM encryption job leaves (log 44). -/
opaque gcmJobTag : Nat → Bool → Nat → Nat → List (BitVec 8) → BitVec 128

/-- Whether the tag of a GCM decryption job is good (log 44). -/
opaque gcmJobGood : Nat → Bool → Nat → Nat → List (BitVec 8) → Bool

/-- Whether an SM2 verification job finds the signature in its input good (log 44: the spec does not say where the key, the
digest and the signature stand). -/
opaque sm2JobGood : Nat → List (BitVec 8) → Bool

/-- The boot ROM's own fixed hash, which it extends MEAS0 with (R442): the spec gives no number. -/
opaque bootRomHash : BitVec 256

/-- What a register of a PCIe endpoint's capabilities reads as before the host writes it, by controller and offset (log 20: the spec
leaves their contents to the PCI Express specification). -/
opaque pcieCap : Nat → Nat → BitVec 32

/-- The SECDED check byte of a 64-bit word (R278): the spec does not give the code's matrix (log 87). -/
opaque secded : BitVec 64 → BitVec 8

end Sys2Proof.Config
end

