-- ==== Sys2Proof/Machine/Bits.lean ====
section
/-! DEFINITION. Sparse tables, bit fields, byte order and line helpers that every layer uses. -/

namespace Sys2Proof.Machine

/-- The entry of `k`, or `d` where none is listed. -/
def mget {α : Type} (d : α) : SMap α → Nat → α
  | [], _ => d
  | (j, x) :: m, k => if j = k then x else mget d m k

/-- The entry of `k` becomes `x`; the list stays in rising order of numbers. -/
def mset {α : Type} : SMap α → Nat → α → SMap α
  | [], k, x => [(k, x)]
  | (j, y) :: m, k, x =>
    if k < j then (k, x) :: (j, y) :: m
    else if k = j then (k, x) :: m
    else (j, y) :: mset m k x

/-- The entry of `k` is dropped. -/
def mdel {α : Type} (m : SMap α) (k : Nat) : SMap α := m.filter (fun e => e.1 != k)

/-- Field [lo + w - 1 : lo] of a word, as a number. -/
def fld (x : Word) (lo w : Nat) : Nat := (x.toNat >>> lo) % 2 ^ w

/-- Bit `i` of a word. -/
def bit (x : Word) (i : Nat) : Bool := x.getLsbD i

/-- The mask of field [lo + w - 1 : lo]. -/
def fmask (lo w : Nat) : Word := BitVec.ofNat 64 ((2 ^ w - 1) <<< lo)

/-- Field [lo + w - 1 : lo] of `x` replaced by the low bits of `v`. -/
def setFld (x : Word) (lo w v : Nat) : Word :=
  (x &&& ~~~ fmask lo w) ||| BitVec.ofNat 64 ((v % 2 ^ w) <<< lo)

/-- Bit `i` of `x` set to `b`. -/
def setBit (x : Word) (i : Nat) (b : Bool) : Word := setFld x i 1 (if b then 1 else 0)

/-- The low `n` bytes of a word, lowest first (R17). -/
def wordBytes (n : Nat) (v : Nat) : List Byte :=
  match n with
  | 0 => []
  | k + 1 => BitVec.ofNat 8 v :: wordBytes k (v / 256)

/-- The number whose bytes are `bs`, lowest first (R17). -/
def bytesNat : List Byte → Nat
  | [] => 0
  | b :: bs => b.toNat + 256 * bytesNat bs

/-- The low `8 * n` bits of `v`, sign-extended or zero-extended to 64 bits (R83, R86). -/
def extendTo (n : Nat) (signed : Bool) (v : Nat) : Word :=
  let w := 8 * n
  let m := v % 2 ^ w
  if signed && decide (2 ^ (w - 1) ≤ m) then BitVec.ofInt 64 ((m : Int) - 2 ^ w) else BitVec.ofNat 64 m

/-- `n` bytes of a line from offset `o`, as a number. -/
def lineField (l : Line) (o n : Nat) : Nat := (l.toNat >>> (8 * o)) % 2 ^ (8 * n)

/-- `n` bytes of a line from offset `o` replaced by the low bytes of `v`. -/
def setLineField (l : Line) (o n v : Nat) : Line :=
  let m : Line := BitVec.ofNat 512 ((2 ^ (8 * n) - 1) <<< (8 * o))
  (l &&& ~~~ m) ||| BitVec.ofNat 512 ((v % 2 ^ (8 * n)) <<< (8 * o))

/-- Leading zero bits of a 64-bit value; 64 of zero (R83). -/
def clz64 (x : Word) : Nat := if x = 0 then 64 else 63 - Nat.log2 x.toNat

/-- Trailing zero bits among the bits from `i` up, `n` of them left to look at. -/
def ctzFrom (x : Word) : Nat → Nat → Nat
  | _, 0 => 0
  | i, n + 1 => if x.getLsbD i then 0 else 1 + ctzFrom x (i + 1) n

/-- Trailing zero bits of a 64-bit value; 64 of zero (R83). -/
def ctz64 (x : Word) : Nat := ctzFrom x 0 64

/-- Number of 1 bits among the low `n` bits. -/
def popcount (x : Word) : Nat → Nat
  | 0 => 0
  | n + 1 => (if x.getLsbD n then 1 else 0) + popcount x n

/-- The eight bytes in reverse order (R83). -/
def bswap64 (x : Word) : Word := BitVec.ofNat 64 (bytesNat (wordBytes 8 x.toNat).reverse)

/-- The numbers of the 1 bits of `x` below `n`, rising. -/
def onesBelow (x : Word) : Nat → List Nat
  | 0 => []
  | n + 1 => onesBelow x n ++ (if x.getLsbD n then [n] else [])

/-- The first element with the least key. -/
def argMin {α : Type} (f : α → Nat) : List α → Option α
  | [] => none
  | x :: xs =>
    match argMin f xs with
    | none => some x
    | some y => if f x ≤ f y then some x else some y

/-- The first element with the greatest key. -/
def argMax {α : Type} (f : α → Nat) : List α → Option α
  | [] => none
  | x :: xs =>
    match argMax f xs with
    | none => some x
    | some y => if f y ≤ f x then some x else some y

/-- `x` with the first element that meets `p` dropped. -/
def dropFirst {α : Type} (p : α → Bool) : List α → List α
  | [] => []
  | x :: xs => if p x then xs else x :: dropFirst p xs

/-- The element at place `k` replaced. -/
def replaceAt {α : Type} : List α → Nat → α → List α
  | [], _, _ => []
  | _ :: xs, 0, y => y :: xs
  | x :: xs, k + 1, y => x :: replaceAt xs k y

/-- The saturating sum of two counts, for counters that stop at `top`. -/
def satAdd (top a b : Nat) : Nat := min top (a + b)

end Sys2Proof.Machine
end

