-- ==== Sys2Proof/Machine/RegTable.lean ====
section
/-! DEFINITION. The configuration registers: their addresses, fields, types and reset values, from the register
tables of the spec. -/

namespace Sys2Proof.Machine

/-- The type of a register field (R10); an RWL field names its lock's register offset in the block and the lock bit. -/
inductive FTy where
  | rw | ro | w1c | w1s | wo | rws | rwl (off bit : Nat)
deriving DecidableEq, Repr

/-- A field of a register. `own`: a command of the table writes it, and a plain register write leaves it to that
command. `keep`: 0 any reset in scope returns it to its reset value, 1 only cold and warm chip reset do, 2 only cold
reset does (R15). -/
structure FieldD where
  lo : Nat
  w : Nat
  ty : FTy
  rst : Nat
  own : Bool
  keep : Nat
deriving DecidableEq, Repr

/-- A register of a block: its offset, its two array strides and counts, its width in bytes and its fields. A 128-bit
register is listed as two of 64 bits (R415). -/
structure RegD where
  name : String
  off : Nat
  st1 : Nat
  n1 : Nat
  st2 : Nat
  n2 : Nat
  bytes : Nat
  fields : List FieldD
deriving DecidableEq, Repr

/-- The blocks of R45; MEQ_ is split into tenant and pipeline blocks, and SEC_CW_ stands in Closed-world space. -/
inductive BlockKind where
  | sched | icu | mmu | cache | noc | dmc | meqt | meqp | eth | tsn | can | lin | pcie | pwr | clk | rst | sec | safe | trc | pmu | seccw
deriving DecidableEq, Repr

/-- A prefix region of the register space (R45). -/
structure BlockD where
  kind : BlockKind
  base : Nat
  insts : Nat
  regs : List RegD
deriving DecidableEq, Repr

/-- A field's place in its register. -/
structure Fld where
  lo : Nat
  w : Nat
deriving DecidableEq, Repr

/-! ## Addresses, as offsets in the configuration register space (R45, R189, R228, R241, R270, R298, R376, R413, R433) -/

def R.SCHED_TIME (j : Nat) : Nat := 0x0 + j * 0x10000
def R.SCHED_CORE (j i : Nat) : Nat := 0x40 + j * 0x10000 + i * 0x4
def R.SCHED_THR_A (j i : Nat) : Nat := 0x1000 + j * 0x10000 + i * 0x8
def R.SCHED_THR_B (j i : Nat) : Nat := 0x1800 + j * 0x10000 + i * 0x8
def R.SCHED_THR_T (j i : Nat) : Nat := 0x2000 + j * 0x10000 + i * 0x8
def R.SCHED_EVT (j i : Nat) : Nat := 0x4000 + j * 0x10000 + i * 0x4
def R.SCHED_SEM_POST (j i k : Nat) : Nat := 0x8000 + j * 0x10000 + i * 0x1000 + k * 0x10
def R.SCHED_SEM_CNT (j i k : Nat) : Nat := 0x8004 + j * 0x10000 + i * 0x1000 + k * 0x10
def R.MMU_CTL (j : Nat) : Nat := 0x2000000 + j * 0x10000
def R.MMU_TENT (j : Nat) : Nat := 0x2000008 + j * 0x10000
def R.MMU_PROOT (j : Nat) : Nat := 0x2000010 + j * 0x10000
def R.MMU_MROOT (j : Nat) : Nat := 0x2000018 + j * 0x10000
def R.MMU_DTO (j : Nat) : Nat := 0x2000020 + j * 0x10000
def R.MMU_DWL (j : Nat) : Nat := 0x2000028 + j * 0x10000
def R.MMU_INV (j : Nat) : Nat := 0x2000030 + j * 0x10000
def R.MMU_INVS (j : Nat) : Nat := 0x2000038 + j * 0x10000
def R.PCIE_CTL (j : Nat) : Nat := 0xe000000 + j * 0x10000
def R.PCIE_CFG (j : Nat) : Nat := 0xe000004 + j * 0x10000
def R.PCIE_STAT (j : Nat) : Nat := 0xe000008 + j * 0x10000
def R.PCIE_TENT (j : Nat) : Nat := 0xe000010 + j * 0x10000
def R.PCIE_IRQ (j : Nat) : Nat := 0xe000018 + j * 0x10000
def R.PCIE_IRQEN (j : Nat) : Nat := 0xe00001c + j * 0x10000
def R.PCIE_ERR (j : Nat) : Nat := 0xe000020 + j * 0x10000
def R.PCIE_MSIADDR (j : Nat) : Nat := 0xe000028 + j * 0x10000
def R.PCIE_MSI (j : Nat) : Nat := 0xe000030 + j * 0x10000
def R.PCIE_MSIGEN (j : Nat) : Nat := 0xe000034 + j * 0x10000
def R.PCIE_EPID (j : Nat) : Nat := 0xe000038 + j * 0x10000
def R.PCIE_BAR (j i : Nat) : Nat := 0xe000040 + j * 0x10000 + i * 0x8
def R.PCIE_CNT (j i : Nat) : Nat := 0xe000100 + j * 0x10000 + i * 0x8
def R.PCIE_ATT0 (j i : Nat) : Nat := 0xe008000 + j * 0x10000 + i * 0x20
def R.PCIE_ATT1 (j i : Nat) : Nat := 0xe008008 + j * 0x10000 + i * 0x20
def R.PCIE_ATT2 (j i : Nat) : Nat := 0xe008010 + j * 0x10000 + i * 0x20
def R.CACHE_CTL (j : Nat) : Nat := 0x3000000 + j * 0x10000
def R.CACHE_STAT (j : Nat) : Nat := 0x3000004 + j * 0x10000
def R.CACHE_MAINT (j : Nat) : Nat := 0x3000008 + j * 0x10000
def R.CACHE_CORE (j i : Nat) : Nat := 0x3000040 + j * 0x10000 + i * 0x4
def R.CACHE_PCLASS (j i : Nat) : Nat := 0x3000100 + j * 0x10000 + i * 0x4
def R.CACHE_TMAP (j i : Nat) : Nat := 0x3001000 + j * 0x10000 + i * 0x4
def R.NOC_CTL (j : Nat) : Nat := 0x4000000 + j * 0x10000
def R.NOC_STAT (j : Nat) : Nat := 0x4000004 + j * 0x10000
def R.NOC_GCLS (j : Nat) : Nat := 0x4000008 + j * 0x10000
def R.NOC_LINK (j : Nat) : Nat := 0x4000010 + j * 0x10000
def R.NOC_ERR (j : Nat) : Nat := 0x4000018 + j * 0x10000
def R.NOC_DSLOT (j i : Nat) : Nat := 0x4000100 + j * 0x10000 + i * 0x4
def R.NOC_PRB_SEL (j i : Nat) : Nat := 0x4000400 + j * 0x10000 + i * 0x40
def R.NOC_PRB_ENDP (j i : Nat) : Nat := 0x4000408 + j * 0x10000 + i * 0x40
def R.NOC_PRB_TEN (j i : Nat) : Nat := 0x4000410 + j * 0x10000 + i * 0x40
def R.NOC_PRB_TYPE (j i : Nat) : Nat := 0x4000418 + j * 0x10000 + i * 0x40
def R.NOC_PRB_CNT (j i : Nat) : Nat := 0x4000420 + j * 0x10000 + i * 0x40
def R.NOC_PRB_HDR (j i : Nat) : Nat := 0x4000428 + j * 0x10000 + i * 0x40
def R.NOC_TGRP (j i : Nat) : Nat := 0x4001000 + j * 0x10000 + i * 0x4
def R.DMC_CTL (j : Nat) : Nat := 0x5000000 + j * 0x10000
def R.DMC_CFG (j : Nat) : Nat := 0x5000004 + j * 0x10000
def R.DMC_TIM0 (j : Nat) : Nat := 0x5000008 + j * 0x10000
def R.DMC_TIM1 (j : Nat) : Nat := 0x500000c + j * 0x10000
def R.DMC_TIM2 (j : Nat) : Nat := 0x5000010 + j * 0x10000
def R.DMC_INIT (j : Nat) : Nat := 0x5000014 + j * 0x10000
def R.DMC_ERR (j : Nat) : Nat := 0x5000018 + j * 0x10000
def R.DMC_ERRADDR (j : Nat) : Nat := 0x5000020 + j * 0x10000
def R.DMC_REGCTL (j : Nat) : Nat := 0x5000140 + j * 0x10000
def R.DMC_REGION (j i : Nat) : Nat := 0x5000100 + j * 0x10000 + i * 0x8
def R.DMC_REG (j i : Nat) : Nat := 0x5000200 + j * 0x10000 + i * 0x4
def R.DMC_TGRP (j i : Nat) : Nat := 0x5001000 + j * 0x10000 + i * 0x4
def R.ICU_CTL (j : Nat) : Nat := 0x1000000 + j * 0x10000
def R.ICU_STAT (j : Nat) : Nat := 0x1000004 + j * 0x10000
def R.ICU_SWL (j : Nat) : Nat := 0x1000008 + j * 0x10000
def R.ICU_SRC (j i : Nat) : Nat := 0x1001000 + j * 0x10000 + i * 0x4
def R.MEQ_TCTL (j : Nat) : Nat := 0x6000000 + j * 0x10000
def R.MEQ_TSTAT (j : Nat) : Nat := 0x6000004 + j * 0x10000
def R.MEQ_TLIM (j i : Nat) : Nat := 0x6000100 + j * 0x10000 + i * 0x8
def R.MEQ_QP_CFG (j i : Nat) : Nat := 0x6001000 + j * 0x10000 + i * 0x1000
def R.MEQ_QP_MSG (j i : Nat) : Nat := 0x6001004 + j * 0x10000 + i * 0x1000
def R.MEQ_QP_SQB (j i : Nat) : Nat := 0x6001008 + j * 0x10000 + i * 0x1000
def R.MEQ_QP_CQB (j i : Nat) : Nat := 0x6001010 + j * 0x10000 + i * 0x1000
def R.MEQ_QP_SEQ (j i : Nat) : Nat := 0x6001018 + j * 0x10000 + i * 0x1000
def R.MEQ_QP_PORT (j i : Nat) : Nat := 0x6001020 + j * 0x10000 + i * 0x1000
def R.MEQ_QP_RATE (j i : Nat) : Nat := 0x6001024 + j * 0x10000 + i * 0x1000
def R.MEQ_QP_ACC (j i : Nat) : Nat := 0x6001028 + j * 0x10000 + i * 0x1000
def R.MEQ_QP_HLEN (j i : Nat) : Nat := 0x600102c + j * 0x10000 + i * 0x1000
def R.MEQ_QP_MKIND (j i : Nat) : Nat := 0x6001030 + j * 0x10000 + i * 0x1000
def R.MEQ_QP_STAT (j i : Nat) : Nat := 0x6001034 + j * 0x10000 + i * 0x1000
def R.MEQ_QP_CNTREQ (j i : Nat) : Nat := 0x6001038 + j * 0x10000 + i * 0x1000
def R.MEQ_QP_CNT (j i : Nat) : Nat := 0x6001040 + j * 0x10000 + i * 0x1000
def R.MEQ_QP_HDR (j i k : Nat) : Nat := 0x6001080 + j * 0x10000 + i * 0x1000 + k * 0x4
def R.MEQ_QP_MVAL (j i k : Nat) : Nat := 0x6001100 + j * 0x10000 + i * 0x1000 + k * 0x10
def R.MEQ_QP_MMSK (j i k : Nat) : Nat := 0x6001108 + j * 0x10000 + i * 0x1000 + k * 0x10
def R.MEQ_PCTL (j : Nat) : Nat := 0x8000000 + j * 0x10000
def R.MEQ_PTENT (j : Nat) : Nat := 0x8000008 + j * 0x10000
def R.MEQ_PSTAT (j : Nat) : Nat := 0x8000010 + j * 0x10000
def R.ETH_CTL (j : Nat) : Nat := 0xa000000 + j * 0x10000
def R.ETH_STAT (j : Nat) : Nat := 0xa000004 + j * 0x10000
def R.ETH_CFG (j : Nat) : Nat := 0xa000008 + j * 0x10000
def R.ETH_PHY (j : Nat) : Nat := 0xa00000c + j * 0x10000
def R.ETH_IRQ (j : Nat) : Nat := 0xa000010 + j * 0x10000
def R.ETH_IRQEN (j : Nat) : Nat := 0xa000014 + j * 0x10000
def R.ETH_DIAG (j : Nat) : Nat := 0xa000018 + j * 0x10000
def R.ETH_DIAGR (j : Nat) : Nat := 0xa000020 + j * 0x10000
def R.ETH_TSC (j : Nat) : Nat := 0xa000028 + j * 0x10000
def R.ETH_MSCFG (j : Nat) : Nat := 0xa000200 + j * 0x10000
def R.ETH_MSSCI (j : Nat) : Nat := 0xa000208 + j * 0x10000
def R.ETH_MSWIN (j : Nat) : Nat := 0xa000210 + j * 0x10000
def R.ETH_MSTX (j : Nat) : Nat := 0xa000214 + j * 0x10000
def R.ETH_MSTHR (j : Nat) : Nat := 0xa000218 + j * 0x10000
def R.ETH_MSRXEN (j : Nat) : Nat := 0xa000220 + j * 0x10000
def R.ETH_SSCI (j : Nat) : Nat := 0xa00032c + j * 0x10000
def R.ETH_SACMD (j : Nat) : Nat := 0xa000330 + j * 0x10000
def R.ETH_SASTAT (j : Nat) : Nat := 0xa000334 + j * 0x10000
def R.ETH_CNT (j i : Nat) : Nat := 0xa000100 + j * 0x10000 + i * 0x8
def R.ETH_MSTXSA (j i : Nat) : Nat := 0xa000240 + j * 0x10000 + i * 0x8
def R.ETH_SAK (j i : Nat) : Nat := 0xa000300 + j * 0x10000 + i * 0x4
def R.ETH_SALT (j i : Nat) : Nat := 0xa000320 + j * 0x10000 + i * 0x4
def R.ETH_MSRXSC (j i : Nat) : Nat := 0xa000400 + j * 0x10000 + i * 0x40
def R.ETH_MSRXSA (j i k : Nat) : Nat := 0xa000408 + j * 0x10000 + i * 0x40 + k * 0x8
def R.ETH_BR_CTL (j : Nat) : Nat := 0xa004000 + j * 0x10000
def R.ETH_BR_FDBKEY (j : Nat) : Nat := 0xa004008 + j * 0x10000
def R.ETH_BR_FDBCMD (j : Nat) : Nat := 0xa004010 + j * 0x10000
def R.ETH_BR_FDBRES (j : Nat) : Nat := 0xa004018 + j * 0x10000
def R.ETH_BR_PORT (j i : Nat) : Nat := 0xa004040 + j * 0x10000 + i * 0x4
def R.ETH_BR_PCPMAP (j i : Nat) : Nat := 0xa004100 + j * 0x10000 + i * 0x4
def R.ETH_BR_VLAN (j i : Nat) : Nat := 0xa008000 + j * 0x10000 + i * 0x8
def R.TSN_GCTL (j : Nat) : Nat := 0xb000000 + j * 0x10000
def R.TSN_GSTAT (j : Nat) : Nat := 0xb000004 + j * 0x10000
def R.TSN_GBASE (j : Nat) : Nat := 0xb000008 + j * 0x10000
def R.TSN_GCYC (j : Nat) : Nat := 0xb000010 + j * 0x10000
def R.TSN_GEXT (j : Nat) : Nat := 0xb000014 + j * 0x10000
def R.TSN_TNS (j : Nat) : Nat := 0xb004000 + j * 0x10000
def R.TSN_TFR (j : Nat) : Nat := 0xb004008 + j * 0x10000
def R.TSN_TADD (j : Nat) : Nat := 0xb004010 + j * 0x10000
def R.TSN_TSTEP (j : Nat) : Nat := 0xb004018 + j * 0x10000
def R.TSN_TSET (j : Nat) : Nat := 0xb004020 + j * 0x10000
def R.TSN_SGBASE (j : Nat) : Nat := 0xb004028 + j * 0x10000
def R.TSN_QCFG (j i : Nat) : Nat := 0xb000100 + j * 0x10000 + i * 0x4
def R.TSN_CBS (j i : Nat) : Nat := 0xb000200 + j * 0x10000 + i * 0x8
def R.TSN_GCL (j i : Nat) : Nat := 0xb001000 + j * 0x10000 + i * 0x4
def R.TSN_SGCTL (j i : Nat) : Nat := 0xb004100 + j * 0x10000 + i * 0x4
def R.TSN_SID (j i : Nat) : Nat := 0xb008000 + j * 0x10000 + i * 0x10
def R.TSN_SFLT (j i : Nat) : Nat := 0xb00a000 + j * 0x10000 + i * 0x10
def R.TSN_FMTR (j i : Nat) : Nat := 0xb00b000 + j * 0x10000 + i * 0x10
def R.TSN_SGCL (j i k : Nat) : Nat := 0xb00c000 + j * 0x10000 + i * 0x80 + k * 0x8
def R.TSN_FRGEN (j i : Nat) : Nat := 0xb00d000 + j * 0x10000 + i * 0x8
def R.TSN_FRREC (j i : Nat) : Nat := 0xb00e000 + j * 0x10000 + i * 0x10
def R.CAN_CTL (j : Nat) : Nat := 0xc000000 + j * 0x10000
def R.CAN_STAT (j : Nat) : Nat := 0xc000004 + j * 0x10000
def R.CAN_CFG (j : Nat) : Nat := 0xc000008 + j * 0x10000
def R.CAN_NTIM (j : Nat) : Nat := 0xc00000c + j * 0x10000
def R.CAN_DTIM (j : Nat) : Nat := 0xc000010 + j * 0x10000
def R.CAN_XTIM (j : Nat) : Nat := 0xc000014 + j * 0x10000
def R.CAN_IRQ (j : Nat) : Nat := 0xc000018 + j * 0x10000
def R.CAN_IRQEN (j : Nat) : Nat := 0xc00001c + j * 0x10000
def R.CAN_CNT (j i : Nat) : Nat := 0xc000100 + j * 0x10000 + i * 0x8
def R.LIN_CTL (j : Nat) : Nat := 0xd000000 + j * 0x10000
def R.LIN_STAT (j : Nat) : Nat := 0xd000004 + j * 0x10000
def R.LIN_CFG (j : Nat) : Nat := 0xd000008 + j * 0x10000
def R.LIN_IRQ (j : Nat) : Nat := 0xd000018 + j * 0x10000
def R.LIN_IRQEN (j : Nat) : Nat := 0xd00001c + j * 0x10000
def R.LIN_CNT (j i : Nat) : Nat := 0xd000100 + j * 0x10000 + i * 0x8
def R.LIN_SCHED (j i : Nat) : Nat := 0xd000200 + j * 0x10000 + i * 0x4
def R.LIN_RESP (j i : Nat) : Nat := 0xd000400 + j * 0x10000 + i * 0x4
def R.CAN_GW_CTL (j : Nat) : Nat := 0xc004000 + j * 0x10000
def R.CAN_GW_SMAC (j : Nat) : Nat := 0xc004008 + j * 0x10000
def R.CAN_GW_CNT (j i : Nat) : Nat := 0xc004100 + j * 0x10000 + i * 0x8
def R.CAN_GW_RULE (j i : Nat) : Nat := 0xc008000 + j * 0x10000 + i * 0x10
def R.CAN_GW_ACT (j i : Nat) : Nat := 0xc009000 + j * 0x10000 + i * 0x4
def R.CAN_GW_STRM (j i : Nat) : Nat := 0xc00a000 + j * 0x10000 + i * 0x10
def R.CAN_GW_UNPK (j i : Nat) : Nat := 0xc00a400 + j * 0x10000 + i * 0x10
def R.SEC_CTL : Nat := 0x12000000
def R.SEC_STAT : Nat := 0x12000004
def R.SEC_RSTCNT : Nat := 0x12000008
def R.SEC_MEAS (i k : Nat) : Nat := 0x12000100 + i * 0x20 + k * 0x8
def R.SEC_ALIAS (i : Nat) : Nat := 0x12000400 + i * 0x8
def R.SEC_JOB_CMD (i : Nat) : Nat := 0x12001000 + i * 0x100
def R.SEC_JOB_SRC (i : Nat) : Nat := 0x12001008 + i * 0x100
def R.SEC_JOB_DST (i : Nat) : Nat := 0x12001010 + i * 0x100
def R.SEC_JOB_LEN (i : Nat) : Nat := 0x12001018 + i * 0x100
def R.SEC_JOB_STAT (i : Nat) : Nat := 0x1200101c + i * 0x100
def R.SEC_JOB_KEY (i k : Nat) : Nat := 0x12001020 + i * 0x100 + k * 0x4
def R.SEC_JOB_RES (i k : Nat) : Nat := 0x12001080 + i * 0x100 + k * 0x8
def R.SEC_DBG_CHAL (i : Nat) : Nat := 0x12002000 + i * 0x4
def R.SEC_DBG_CERT (i : Nat) : Nat := 0x12002100 + i * 0x4
def R.SEC_DBG_CMD : Nat := 0x120021c0
def R.SEC_DBG_STAT : Nat := 0x120021c4
def R.SEC_DBG_CTL : Nat := 0x120021c8
def R.SEC_CW_CTL : Nat := 0x8000000000
def R.SEC_CW_STAT : Nat := 0x8000000004
def R.SEC_CW_WDT : Nat := 0x8000000008
def R.SEC_CW_TVBM : Nat := 0x8000000010
def R.SEC_CW_GDST : Nat := 0x8000000018
def R.SEC_CW_GLEN : Nat := 0x800000001c
def R.SEC_CW_COCTL : Nat := 0x8000000060
def R.SEC_CW_MREXT : Nat := 0x8000000080
def R.SEC_CW_MRSTAT : Nat := 0x8000000084
def R.SEC_CW_KSCMD : Nat := 0x8000000100
def R.SEC_CW_KSSTAT : Nat := 0x8000000104
def R.SEC_CW_KSDST : Nat := 0x8000000108
def R.SEC_CW_DENY : Nat := 0x8000000200
def R.SEC_CW_GOLD (i : Nat) : Nat := 0x8000000020 + i * 0x8
def R.SEC_CW_CO (i : Nat) : Nat := 0x8000000040 + i * 0x8
def R.SEC_CW_KSDATA (i : Nat) : Nat := 0x8000000180 + i * 0x8
def R.SAFE_CTL (j : Nat) : Nat := 0x13000000 + j * 0x10000
def R.SAFE_STAT (j : Nat) : Nat := 0x13000004 + j * 0x10000
def R.SAFE_CFG (j : Nat) : Nat := 0x13000008 + j * 0x10000
def R.SAFE_WDT (j : Nat) : Nat := 0x1300000c + j * 0x10000
def R.SAFE_FREC (j : Nat) : Nat := 0x13000010 + j * 0x10000
def R.SAFE_TIME (j : Nat) : Nat := 0x13000018 + j * 0x10000
def R.SAFE_SOUT (j : Nat) : Nat := 0x13000020 + j * 0x10000
def R.SAFE_REJOIN (j : Nat) : Nat := 0x13000024 + j * 0x10000
def R.SAFE_FMAP (j i : Nat) : Nat := 0x13000100 + j * 0x10000 + i * 0x4
def R.SAFE_PAIR (j i : Nat) : Nat := 0x13000200 + j * 0x10000 + i * 0x4
def R.SAFE_TCLS (j i : Nat) : Nat := 0x13001000 + j * 0x10000 + i * 0x4
def R.PWR_RAIL : Nat := 0xf000000
def R.PWR_DOM (i : Nat) : Nat := 0xf000100 + i * 0x4
def R.PWR_CORE (i : Nat) : Nat := 0xf000800 + i * 0x4
def R.PWR_CWHOLD (i : Nat) : Nat := 0xf000c00 + i * 0x4
def R.CLK_CORE (i : Nat) : Nat := 0x10000000 + i * 0x4
def R.CLK_ISL (i : Nat) : Nat := 0x10000400 + i * 0x4
def R.RST_CTL : Nat := 0x11000000
def R.RST_CMD : Nat := 0x11000008
def R.RST_CMDSTAT : Nat := 0x1100000c
def R.RST_REC : Nat := 0x11000100
def R.RST_RECT : Nat := 0x11000108
def R.RST_LOSTN : Nat := 0x11000150
def R.RST_LOST (i : Nat) : Nat := 0x11000110 + i * 0x8
def R.TRC_CTL : Nat := 0x14000000
def R.TRC_STAT : Nat := 0x14000004
def R.TRC_MBASE : Nat := 0x14000008
def R.TRC_MSIZE : Nat := 0x14000010
def R.TRC_MWP : Nat := 0x14000018
def R.TRC_LOST : Nat := 0x14000020
def R.TRC_HCMD : Nat := 0x14003000
def R.TRC_HSTAT : Nat := 0x14003004
def R.TRC_SRC (i : Nat) : Nat := 0x14000100 + i * 0x4
def R.TRC_ENC (i : Nat) : Nat := 0x14001000 + i * 0x40
def R.TRC_DCFG (i : Nat) : Nat := 0x14001004 + i * 0x40
def R.TRC_RNG0LO (i : Nat) : Nat := 0x14001008 + i * 0x40
def R.TRC_RNG0HI (i : Nat) : Nat := 0x14001010 + i * 0x40
def R.TRC_RNG1LO (i : Nat) : Nat := 0x14001018 + i * 0x40
def R.TRC_RNG1HI (i : Nat) : Nat := 0x14001020 + i * 0x40
def R.TRC_BP0 (i : Nat) : Nat := 0x14001028 + i * 0x40
def R.TRC_BP1 (i : Nat) : Nat := 0x14001030 + i * 0x40
def R.TRC_WP (i : Nat) : Nat := 0x14001038 + i * 0x40
def R.PMU_MODE : Nat := 0x15000000
def R.PMU_SNAP : Nat := 0x15000004
def R.PMU_SNAPAT : Nat := 0x15000008
def R.PMU_SNAPT : Nat := 0x15000010
def R.PMU_RD : Nat := 0x15000018
def R.PMU_VAL (i : Nat) : Nat := 0x15000100 + i * 0x8
def R.PMU_CTHR (i : Nat) : Nat := 0x15000400 + i * 0x4
def R.PMU_RTHR (i : Nat) : Nat := 0x15000600 + i * 0x4
def R.PMU_MTHR (i : Nat) : Nat := 0x15000680 + i * 0x4
def R.PMU_BWSEL (i : Nat) : Nat := 0x15000800 + i * 0x20
def R.PMU_BWLAST (i : Nat) : Nat := 0x15000808 + i * 0x20
def R.PMU_BWMAX (i : Nat) : Nat := 0x15000810 + i * 0x20
def R.PMU_SMP (i : Nat) : Nat := 0x15001000 + i * 0x20
def R.PMU_SREC0 (i : Nat) : Nat := 0x15001008 + i * 0x20
def R.PMU_SREC1 (i : Nat) : Nat := 0x15001010 + i * 0x20

/-! ## Fields -/

abbrev F.SCHED_TIME_ticks : Fld := ⟨0, 48⟩
abbrev F.SCHED_CORE_fast_en : Fld := ⟨0, 1⟩
abbrev F.SCHED_CORE_quantum : Fld := ⟨8, 16⟩
abbrev F.SCHED_THR_A_folio : Fld := ⟨6, 38⟩
abbrev F.SCHED_THR_A_tenant : Fld := ⟨44, 9⟩
abbrev F.SCHED_THR_A_asid : Fld := ⟨53, 10⟩
abbrev F.SCHED_THR_A_valid : Fld := ⟨63, 1⟩
abbrev F.SCHED_THR_B_prio : Fld := ⟨0, 3⟩
abbrev F.SCHED_THR_B_core : Fld := ⟨3, 3⟩
abbrev F.SCHED_THR_B_fast : Fld := ⟨6, 1⟩
abbrev F.SCHED_THR_B_ferr : Fld := ⟨7, 1⟩
abbrev F.SCHED_THR_B_sup : Fld := ⟨8, 8⟩
abbrev F.SCHED_THR_B_wmask : Fld := ⟨16, 16⟩
abbrev F.SCHED_THR_B_pend : Fld := ⟨32, 16⟩
abbrev F.SCHED_THR_B_state : Fld := ⟨48, 3⟩
abbrev F.SCHED_THR_B_bank : Fld := ⟨51, 3⟩
abbrev F.SCHED_THR_B_plmax : Fld := ⟨54, 2⟩
abbrev F.SCHED_THR_T_deadline : Fld := ⟨0, 40⟩
abbrev F.SCHED_THR_T_armed : Fld := ⟨40, 1⟩
abbrev F.SCHED_THR_T_period : Fld := ⟨41, 23⟩
abbrev F.SCHED_EVT_valid : Fld := ⟨0, 1⟩
abbrev F.SCHED_EVT_kind : Fld := ⟨1, 2⟩
abbrev F.SCHED_EVT_source : Fld := ⟨3, 12⟩
abbrev F.SCHED_EVT_thread : Fld := ⟨15, 8⟩
abbrev F.SCHED_EVT_bit : Fld := ⟨23, 4⟩
abbrev F.SCHED_SEM_POST_add : Fld := ⟨0, 16⟩
abbrev F.SCHED_SEM_CNT_count : Fld := ⟨0, 16⟩
abbrev F.SCHED_SEM_CNT_ovf : Fld := ⟨16, 1⟩
abbrev F.MMU_CTL_p_en : Fld := ⟨0, 1⟩
abbrev F.MMU_CTL_m_en : Fld := ⟨1, 1⟩
abbrev F.MMU_CTL_lock : Fld := ⟨2, 1⟩
abbrev F.MMU_TENT_base : Fld := ⟨13, 31⟩
abbrev F.MMU_PROOT_root : Fld := ⟨12, 32⟩
abbrev F.MMU_MROOT_root : Fld := ⟨12, 32⟩
abbrev F.MMU_DTO_dto : Fld := ⟨0, 15⟩
abbrev F.MMU_DWL_pa : Fld := ⟨0, 44⟩
abbrev F.MMU_DWL_tenant : Fld := ⟨44, 9⟩
abbrev F.MMU_DWL_bank : Fld := ⟨53, 3⟩
abbrev F.MMU_DWL_dropped : Fld := ⟨56, 6⟩
abbrev F.MMU_DWL_over : Fld := ⟨62, 1⟩
abbrev F.MMU_DWL_valid : Fld := ⟨63, 1⟩
abbrev F.MMU_INV_scope : Fld := ⟨0, 3⟩
abbrev F.MMU_INV_bcast : Fld := ⟨3, 1⟩
abbrev F.MMU_INV_tenant : Fld := ⟨4, 9⟩
abbrev F.MMU_INV_asid : Fld := ⟨13, 10⟩
abbrev F.MMU_INV_page : Fld := ⟨23, 36⟩
abbrev F.MMU_INVS_busy : Fld := ⟨0, 1⟩
abbrev F.MMU_INVS_err : Fld := ⟨1, 1⟩
abbrev F.MMU_INVS_lost : Fld := ⟨2, 1⟩
abbrev F.PCIE_CTL_resume : Fld := ⟨0, 1⟩
abbrev F.PCIE_CTL_stop : Fld := ⟨1, 1⟩
abbrev F.PCIE_CTL_lock : Fld := ⟨2, 1⟩
abbrev F.PCIE_CFG_role : Fld := ⟨0, 1⟩
abbrev F.PCIE_CFG_maxspeed : Fld := ⟨1, 3⟩
abbrev F.PCIE_CFG_maxwidth : Fld := ⟨4, 2⟩
abbrev F.PCIE_CFG_mps : Fld := ⟨6, 2⟩
abbrev F.PCIE_CFG_mrrs : Fld := ⟨8, 3⟩
abbrev F.PCIE_CFG_ecrc : Fld := ⟨11, 1⟩
abbrev F.PCIE_CFG_aspm_l1 : Fld := ⟨12, 1⟩
abbrev F.PCIE_CFG_secbus : Fld := ⟨13, 8⟩
abbrev F.PCIE_CFG_cto : Fld := ⟨21, 11⟩
abbrev F.PCIE_STAT_state : Fld := ⟨0, 2⟩
abbrev F.PCIE_STAT_link : Fld := ⟨2, 1⟩
abbrev F.PCIE_STAT_speed : Fld := ⟨3, 3⟩
abbrev F.PCIE_STAT_width : Fld := ⟨6, 2⟩
abbrev F.PCIE_STAT_reason : Fld := ⟨16, 8⟩
abbrev F.PCIE_STAT_att_err : Fld := ⟨24, 1⟩
abbrev F.PCIE_STAT_att_idx : Fld := ⟨25, 9⟩
abbrev F.PCIE_TENT_base : Fld := ⟨13, 31⟩
abbrev F.PCIE_IRQ_link : Fld := ⟨0, 1⟩
abbrev F.PCIE_IRQ_inb : Fld := ⟨1, 1⟩
abbrev F.PCIE_IRQ_inb_err : Fld := ⟨2, 1⟩
abbrev F.PCIE_IRQ_out : Fld := ⟨3, 1⟩
abbrev F.PCIE_IRQ_cto : Fld := ⟨4, 1⟩
abbrev F.PCIE_IRQ_aer_c : Fld := ⟨5, 1⟩
abbrev F.PCIE_IRQ_aer_u : Fld := ⟨6, 1⟩
abbrev F.PCIE_IRQ_msi_bad : Fld := ⟨7, 1⟩
abbrev F.PCIE_IRQ_msi_off : Fld := ⟨8, 1⟩
abbrev F.PCIE_IRQ_intx : Fld := ⟨9, 1⟩
abbrev F.PCIE_IRQEN_mask : Fld := ⟨0, 10⟩
abbrev F.PCIE_ERR_addr : Fld := ⟨0, 48⟩
abbrev F.PCIE_ERR_kind : Fld := ⟨48, 4⟩
abbrev F.PCIE_ERR_tenant : Fld := ⟨52, 9⟩
abbrev F.PCIE_ERR_over : Fld := ⟨62, 1⟩
abbrev F.PCIE_ERR_valid : Fld := ⟨63, 1⟩
abbrev F.PCIE_MSIADDR_addr : Fld := ⟨2, 62⟩
abbrev F.PCIE_MSI_pend : Fld := ⟨1, 31⟩
abbrev F.PCIE_MSIGEN_vec : Fld := ⟨0, 5⟩
abbrev F.PCIE_EPID_vid : Fld := ⟨0, 16⟩
abbrev F.PCIE_EPID_did : Fld := ⟨16, 16⟩
abbrev F.PCIE_BAR_log2 : Fld := ⟨0, 6⟩
abbrev F.PCIE_CNT_count : Fld := ⟨0, 48⟩
abbrev F.PCIE_ATT0_v : Fld := ⟨0, 1⟩
abbrev F.PCIE_ATT0_dir : Fld := ⟨1, 1⟩
abbrev F.PCIE_ATT0_tenant : Fld := ⟨2, 9⟩
abbrev F.PCIE_ATT0_log2 : Fld := ⟨11, 6⟩
abbrev F.PCIE_ATT0_kind : Fld := ⟨17, 1⟩
abbrev F.PCIE_ATT0_ro : Fld := ⟨18, 1⟩
abbrev F.PCIE_ATT0_tc : Fld := ⟨19, 3⟩
abbrev F.PCIE_ATT1_local : Fld := ⟨12, 32⟩
abbrev F.PCIE_ATT2_remote : Fld := ⟨12, 52⟩
abbrev F.CACHE_CTL_en : Fld := ⟨0, 1⟩
abbrev F.CACHE_CTL_lock : Fld := ⟨1, 1⟩
abbrev F.CACHE_STAT_busy : Fld := ⟨0, 1⟩
abbrev F.CACHE_STAT_err : Fld := ⟨1, 1⟩
abbrev F.CACHE_STAT_lost : Fld := ⟨2, 1⟩
abbrev F.CACHE_MAINT_op : Fld := ⟨0, 2⟩
abbrev F.CACHE_MAINT_level : Fld := ⟨2, 2⟩
abbrev F.CACHE_MAINT_core : Fld := ⟨4, 3⟩
abbrev F.CACHE_MAINT_ways : Fld := ⟨8, 16⟩
abbrev F.CACHE_CORE_l1d_en : Fld := ⟨0, 1⟩
abbrev F.CACHE_CORE_l1i_en : Fld := ⟨1, 1⟩
abbrev F.CACHE_CORE_pf_en : Fld := ⟨2, 1⟩
abbrev F.CACHE_PCLASS_ways : Fld := ⟨0, 14⟩
abbrev F.CACHE_PCLASS_l1_pf : Fld := ⟨14, 1⟩
abbrev F.CACHE_PCLASS_l2_pf : Fld := ⟨15, 1⟩
abbrev F.CACHE_TMAP_class : Fld := ⟨0, 5⟩
abbrev F.CACHE_TMAP_victim : Fld := ⟨5, 1⟩
abbrev F.NOC_CTL_rto : Fld := ⟨0, 15⟩
abbrev F.NOC_CTL_cw_grp : Fld := ⟨15, 4⟩
abbrev F.NOC_CTL_due_lim : Fld := ⟨19, 4⟩
abbrev F.NOC_CTL_lock : Fld := ⟨23, 1⟩
abbrev F.NOC_STAT_d_over : Fld := ⟨0, 1⟩
abbrev F.NOC_STAT_d_port : Fld := ⟨1, 3⟩
abbrev F.NOC_STAT_d_net : Fld := ⟨4, 2⟩
abbrev F.NOC_GCLS_dmask : Fld := ⟨0, 16⟩
abbrev F.NOC_LINK_up0 : Fld := ⟨0, 1⟩
abbrev F.NOC_LINK_fence0 : Fld := ⟨1, 1⟩
abbrev F.NOC_LINK_hb_lost0 : Fld := ⟨2, 1⟩
abbrev F.NOC_LINK_due0 : Fld := ⟨3, 1⟩
abbrev F.NOC_LINK_up1 : Fld := ⟨4, 1⟩
abbrev F.NOC_LINK_fence1 : Fld := ⟨5, 1⟩
abbrev F.NOC_LINK_hb_lost1 : Fld := ⟨6, 1⟩
abbrev F.NOC_LINK_due1 : Fld := ⟨7, 1⟩
abbrev F.NOC_LINK_up2 : Fld := ⟨8, 1⟩
abbrev F.NOC_LINK_fence2 : Fld := ⟨9, 1⟩
abbrev F.NOC_LINK_hb_lost2 : Fld := ⟨10, 1⟩
abbrev F.NOC_LINK_due2 : Fld := ⟨11, 1⟩
abbrev F.NOC_LINK_up3 : Fld := ⟨12, 1⟩
abbrev F.NOC_LINK_fence3 : Fld := ⟨13, 1⟩
abbrev F.NOC_LINK_hb_lost3 : Fld := ⟨14, 1⟩
abbrev F.NOC_LINK_due3 : Fld := ⟨15, 1⟩
abbrev F.NOC_ERR_corr : Fld := ⟨0, 16⟩
abbrev F.NOC_ERR_uncorr : Fld := ⟨16, 8⟩
abbrev F.NOC_ERR_net : Fld := ⟨24, 2⟩
abbrev F.NOC_ERR_port : Fld := ⟨26, 3⟩
abbrev F.NOC_ERR_clr : Fld := ⟨63, 1⟩
abbrev F.NOC_DSLOT_g0 : Fld := ⟨0, 4⟩
abbrev F.NOC_DSLOT_v0 : Fld := ⟨4, 1⟩
abbrev F.NOC_DSLOT_g1 : Fld := ⟨8, 4⟩
abbrev F.NOC_DSLOT_v1 : Fld := ⟨12, 1⟩
abbrev F.NOC_DSLOT_g2 : Fld := ⟨16, 4⟩
abbrev F.NOC_DSLOT_v2 : Fld := ⟨20, 1⟩
abbrev F.NOC_PRB_SEL_en : Fld := ⟨0, 1⟩
abbrev F.NOC_PRB_SEL_net : Fld := ⟨1, 2⟩
abbrev F.NOC_PRB_SEL_port : Fld := ⟨3, 3⟩
abbrev F.NOC_PRB_SEL_dir : Fld := ⟨6, 1⟩
abbrev F.NOC_PRB_SEL_cls : Fld := ⟨7, 2⟩
abbrev F.NOC_PRB_SEL_trace : Fld := ⟨9, 1⟩
abbrev F.NOC_PRB_SEL_prio : Fld := ⟨10, 2⟩
abbrev F.NOC_PRB_ENDP_src : Fld := ⟨0, 8⟩
abbrev F.NOC_PRB_ENDP_src_mask : Fld := ⟨8, 8⟩
abbrev F.NOC_PRB_ENDP_dst : Fld := ⟨16, 8⟩
abbrev F.NOC_PRB_ENDP_dst_mask : Fld := ⟨24, 8⟩
abbrev F.NOC_PRB_TEN_tenant : Fld := ⟨0, 9⟩
abbrev F.NOC_PRB_TEN_mask : Fld := ⟨16, 9⟩
abbrev F.NOC_PRB_TYPE_types : Fld := ⟨0, 16⟩
abbrev F.NOC_PRB_CNT_count : Fld := ⟨0, 48⟩
abbrev F.NOC_PRB_CNT_ovf : Fld := ⟨63, 1⟩
abbrev F.NOC_PRB_HDR_hdr : Fld := ⟨0, 64⟩
abbrev F.NOC_TGRP_grp : Fld := ⟨0, 4⟩
abbrev F.DMC_CTL_page : Fld := ⟨0, 1⟩
abbrev F.DMC_CTL_iecc : Fld := ⟨1, 1⟩
abbrev F.DMC_CTL_lecc : Fld := ⟨2, 1⟩
abbrev F.DMC_CTL_wbatch : Fld := ⟨3, 4⟩
abbrev F.DMC_CTL_lock : Fld := ⟨7, 1⟩
abbrev F.DMC_CFG_rate : Fld := ⟨0, 2⟩
abbrev F.DMC_CFG_ranks : Fld := ⟨2, 1⟩
abbrev F.DMC_CFG_row_bits : Fld := ⟨3, 5⟩
abbrev F.DMC_TIM0_trcd : Fld := ⟨0, 8⟩
abbrev F.DMC_TIM0_trp : Fld := ⟨8, 8⟩
abbrev F.DMC_TIM0_rl : Fld := ⟨16, 8⟩
abbrev F.DMC_TIM0_wl : Fld := ⟨24, 8⟩
abbrev F.DMC_TIM1_trc : Fld := ⟨0, 8⟩
abbrev F.DMC_TIM1_twtr : Fld := ⟨8, 8⟩
abbrev F.DMC_TIM1_trfcpb : Fld := ⟨16, 8⟩
abbrev F.DMC_TIM2_trefi : Fld := ⟨0, 12⟩
abbrev F.DMC_TIM2_mult : Fld := ⟨12, 2⟩
abbrev F.DMC_INIT_start : Fld := ⟨0, 1⟩
abbrev F.DMC_INIT_done : Fld := ⟨1, 1⟩
abbrev F.DMC_INIT_err : Fld := ⟨2, 1⟩
abbrev F.DMC_INIT_step : Fld := ⟨3, 4⟩
abbrev F.DMC_ERR_icorr : Fld := ⟨0, 16⟩
abbrev F.DMC_ERR_iuncorr : Fld := ⟨16, 8⟩
abbrev F.DMC_ERR_lcorr : Fld := ⟨24, 16⟩
abbrev F.DMC_ERR_luncorr : Fld := ⟨40, 8⟩
abbrev F.DMC_ERR_poison_lost : Fld := ⟨48, 1⟩
abbrev F.DMC_ERR_clr : Fld := ⟨63, 1⟩
abbrev F.DMC_ERRADDR_pa : Fld := ⟨0, 44⟩
abbrev F.DMC_ERRADDR_valid : Fld := ⟨63, 1⟩
abbrev F.DMC_REGCTL_commit : Fld := ⟨0, 1⟩
abbrev F.DMC_REGCTL_done : Fld := ⟨1, 1⟩
abbrev F.DMC_REGCTL_err : Fld := ⟨2, 1⟩
abbrev F.DMC_REGION_v : Fld := ⟨0, 1⟩
abbrev F.DMC_REGION_set : Fld := ⟨1, 2⟩
abbrev F.DMC_REGION_size : Fld := ⟨16, 16⟩
abbrev F.DMC_REG_rate : Fld := ⟨0, 12⟩
abbrev F.DMC_REG_burst : Fld := ⟨12, 12⟩
abbrev F.DMC_REG_en : Fld := ⟨24, 1⟩
abbrev F.DMC_TGRP_grp : Fld := ⟨0, 4⟩
abbrev F.ICU_CTL_lock : Fld := ⟨0, 1⟩
abbrev F.ICU_CTL_filt : Fld := ⟨2, 8⟩
abbrev F.ICU_CTL_pol : Fld := ⟨10, 8⟩
abbrev F.ICU_STAT_xfence : Fld := ⟨0, 1⟩
abbrev F.ICU_STAT_cfg_err : Fld := ⟨1, 1⟩
abbrev F.ICU_STAT_cfg_src : Fld := ⟨2, 10⟩
abbrev F.ICU_SWL_src : Fld := ⟨0, 10⟩
abbrev F.ICU_SWL_level : Fld := ⟨10, 1⟩
abbrev F.ICU_SRC_en : Fld := ⟨0, 1⟩
abbrev F.ICU_SRC_cls : Fld := ⟨1, 1⟩
abbrev F.ICU_SRC_ev : Fld := ⟨2, 1⟩
abbrev F.ICU_SRC_core : Fld := ⟨3, 7⟩
abbrev F.ICU_SRC_bank : Fld := ⟨10, 3⟩
abbrev F.ICU_SRC_lvl : Fld := ⟨13, 2⟩
abbrev F.ICU_SRC_prio : Fld := ⟨15, 4⟩
abbrev F.ICU_SRC_tenant : Fld := ⟨19, 9⟩
abbrev F.ICU_SRC_pend : Fld := ⟨28, 1⟩
abbrev F.ICU_SRC_act : Fld := ⟨29, 1⟩
abbrev F.ICU_SRC_lost : Fld := ⟨30, 1⟩
abbrev F.MEQ_TCTL_en : Fld := ⟨0, 1⟩
abbrev F.MEQ_TCTL_lock : Fld := ⟨1, 1⟩
abbrev F.MEQ_TSTAT_bad_db : Fld := ⟨0, 1⟩
abbrev F.MEQ_TSTAT_bad_qp : Fld := ⟨1, 3⟩
abbrev F.MEQ_TLIM_eg_ports : Fld := ⟨0, 20⟩
abbrev F.MEQ_TLIM_in_ports : Fld := ⟨20, 20⟩
abbrev F.MEQ_TLIM_max_tc : Fld := ⟨40, 3⟩
abbrev F.MEQ_QP_CFG_dir : Fld := ⟨0, 1⟩
abbrev F.MEQ_QP_CFG_mode : Fld := ⟨1, 1⟩
abbrev F.MEQ_QP_CFG_irq : Fld := ⟨2, 1⟩
abbrev F.MEQ_QP_CFG_nen : Fld := ⟨3, 1⟩
abbrev F.MEQ_QP_CFG_ncl : Fld := ⟨4, 4⟩
abbrev F.MEQ_QP_CFG_sq_log2 : Fld := ⟨8, 5⟩
abbrev F.MEQ_QP_CFG_cq_log2 : Fld := ⟨13, 5⟩
abbrev F.MEQ_QP_CFG_buf_log2 : Fld := ⟨18, 4⟩
abbrev F.MEQ_QP_CFG_max_chain : Fld := ⟨22, 7⟩
abbrev F.MEQ_QP_CFG_tc : Fld := ⟨29, 3⟩
abbrev F.MEQ_QP_MSG_max_msg : Fld := ⟨0, 17⟩
abbrev F.MEQ_QP_MSG_seg8 : Fld := ⟨17, 11⟩
abbrev F.MEQ_QP_SQB_base : Fld := ⟨6, 38⟩
abbrev F.MEQ_QP_CQB_base : Fld := ⟨6, 38⟩
abbrev F.MEQ_QP_SEQ_sq_next : Fld := ⟨0, 32⟩
abbrev F.MEQ_QP_SEQ_cq_next : Fld := ⟨32, 32⟩
abbrev F.MEQ_QP_PORT_ports : Fld := ⟨0, 20⟩
abbrev F.MEQ_QP_RATE_rate : Fld := ⟨0, 16⟩
abbrev F.MEQ_QP_RATE_burst : Fld := ⟨16, 16⟩
abbrev F.MEQ_QP_ACC_win : Fld := ⟨0, 16⟩
abbrev F.MEQ_QP_ACC_reasm : Fld := ⟨16, 16⟩
abbrev F.MEQ_QP_HLEN_len : Fld := ⟨0, 7⟩
abbrev F.MEQ_QP_HLEN_kind : Fld := ⟨7, 3⟩
abbrev F.MEQ_QP_MKIND_kinds : Fld := ⟨0, 8⟩
abbrev F.MEQ_QP_STAT_state : Fld := ⟨0, 3⟩
abbrev F.MEQ_QP_STAT_valid : Fld := ⟨3, 1⟩
abbrev F.MEQ_QP_CNTREQ_sel : Fld := ⟨0, 2⟩
abbrev F.MEQ_QP_CNT_value : Fld := ⟨0, 48⟩
abbrev F.MEQ_QP_CNT_rstat : Fld := ⟨62, 2⟩
abbrev F.MEQ_QP_HDR_bytes : Fld := ⟨0, 32⟩
abbrev F.MEQ_QP_MVAL_value : Fld := ⟨0, 64⟩
abbrev F.MEQ_QP_MMSK_mask : Fld := ⟨0, 64⟩
abbrev F.MEQ_PCTL_lock : Fld := ⟨0, 1⟩
abbrev F.MEQ_PTENT_base : Fld := ⟨13, 31⟩
abbrev F.MEQ_PSTAT_fault : Fld := ⟨0, 1⟩
abbrev F.MEQ_PSTAT_bad_db : Fld := ⟨1, 1⟩
abbrev F.MEQ_PSTAT_sram_corr : Fld := ⟨2, 1⟩
abbrev F.MEQ_PSTAT_sram_uncorr : Fld := ⟨3, 1⟩
abbrev F.MEQ_PSTAT_tenant : Fld := ⟨4, 9⟩
abbrev F.MEQ_PSTAT_qp : Fld := ⟨13, 3⟩
abbrev F.ETH_CTL_resume : Fld := ⟨0, 1⟩
abbrev F.ETH_CTL_stop : Fld := ⟨1, 1⟩
abbrev F.ETH_STAT_state : Fld := ⟨0, 2⟩
abbrev F.ETH_STAT_link : Fld := ⟨2, 1⟩
abbrev F.ETH_STAT_master : Fld := ⟨3, 1⟩
abbrev F.ETH_STAT_speed : Fld := ⟨4, 3⟩
abbrev F.ETH_STAT_sqi : Fld := ⟨7, 3⟩
abbrev F.ETH_STAT_reason : Fld := ⟨16, 8⟩
abbrev F.ETH_CFG_speed : Fld := ⟨0, 3⟩
abbrev F.ETH_CFG_an : Fld := ⟨3, 1⟩
abbrev F.ETH_CFG_role : Fld := ⟨4, 2⟩
abbrev F.ETH_CFG_maxf : Fld := ⟨6, 14⟩
abbrev F.ETH_CFG_csum : Fld := ⟨20, 1⟩
abbrev F.ETH_CFG_tsc_man : Fld := ⟨21, 1⟩
abbrev F.ETH_PHY_lpbk : Fld := ⟨0, 2⟩
abbrev F.ETH_PHY_test : Fld := ⟨2, 4⟩
abbrev F.ETH_IRQ_link : Fld := ⟨0, 1⟩
abbrev F.ETH_IRQ_pn_thr : Fld := ⟨1, 1⟩
abbrev F.ETH_IRQ_pn_out : Fld := ⟨2, 1⟩
abbrev F.ETH_IRQ_gate : Fld := ⟨3, 1⟩
abbrev F.ETH_IRQ_diag : Fld := ⟨4, 1⟩
abbrev F.ETH_IRQ_sa : Fld := ⟨5, 1⟩
abbrev F.ETH_IRQEN_mask : Fld := ⟨0, 6⟩
abbrev F.ETH_DIAG_start : Fld := ⟨0, 1⟩
abbrev F.ETH_DIAGR_rstat : Fld := ⟨0, 2⟩
abbrev F.ETH_DIAGR_fault : Fld := ⟨2, 2⟩
abbrev F.ETH_DIAGR_dist : Fld := ⟨4, 16⟩
abbrev F.ETH_TSC_rx_corr : Fld := ⟨0, 32⟩
abbrev F.ETH_TSC_tx_corr : Fld := ⟨32, 32⟩
abbrev F.ETH_MSCFG_en : Fld := ⟨0, 1⟩
abbrev F.ETH_MSCFG_cipher : Fld := ⟨1, 2⟩
abbrev F.ETH_MSCFG_xpn : Fld := ⟨3, 1⟩
abbrev F.ETH_MSCFG_coff : Fld := ⟨4, 2⟩
abbrev F.ETH_MSCFG_validate : Fld := ⟨6, 2⟩
abbrev F.ETH_MSCFG_replay : Fld := ⟨8, 1⟩
abbrev F.ETH_MSCFG_sci_tx : Fld := ⟨9, 1⟩
abbrev F.ETH_MSSCI_sci : Fld := ⟨0, 64⟩
abbrev F.ETH_MSWIN_win : Fld := ⟨0, 32⟩
abbrev F.ETH_MSTX_an : Fld := ⟨0, 2⟩
abbrev F.ETH_MSTX_txen : Fld := ⟨4, 4⟩
abbrev F.ETH_MSTHR_pn_thr : Fld := ⟨0, 64⟩
abbrev F.ETH_MSRXEN_rxen : Fld := ⟨0, 64⟩
abbrev F.ETH_SSCI_key : Fld := ⟨0, 32⟩
abbrev F.ETH_SACMD_go : Fld := ⟨0, 1⟩
abbrev F.ETH_SACMD_dir : Fld := ⟨1, 1⟩
abbrev F.ETH_SACMD_sc : Fld := ⟨2, 4⟩
abbrev F.ETH_SACMD_an : Fld := ⟨6, 2⟩
abbrev F.ETH_SACMD_src : Fld := ⟨8, 1⟩
abbrev F.ETH_SACMD_slot : Fld := ⟨9, 4⟩
abbrev F.ETH_SACMD_clear : Fld := ⟨13, 1⟩
abbrev F.ETH_SASTAT_rstat : Fld := ⟨0, 2⟩
abbrev F.ETH_SASTAT_result : Fld := ⟨2, 2⟩
abbrev F.ETH_CNT_count : Fld := ⟨0, 48⟩
abbrev F.ETH_MSTXSA_pn : Fld := ⟨0, 64⟩
abbrev F.ETH_SAK_key : Fld := ⟨0, 32⟩
abbrev F.ETH_SALT_key : Fld := ⟨0, 32⟩
abbrev F.ETH_MSRXSC_sci : Fld := ⟨0, 64⟩
abbrev F.ETH_MSRXSA_lpn : Fld := ⟨0, 64⟩
abbrev F.ETH_BR_CTL_age : Fld := ⟨0, 16⟩
abbrev F.ETH_BR_CTL_lock : Fld := ⟨16, 1⟩
abbrev F.ETH_BR_FDBKEY_mac : Fld := ⟨0, 48⟩
abbrev F.ETH_BR_FDBKEY_vid : Fld := ⟨48, 12⟩
abbrev F.ETH_BR_FDBCMD_op : Fld := ⟨0, 3⟩
abbrev F.ETH_BR_FDBCMD_ports : Fld := ⟨3, 22⟩
abbrev F.ETH_BR_FDBRES_rstat : Fld := ⟨0, 2⟩
abbrev F.ETH_BR_FDBRES_found : Fld := ⟨2, 1⟩
abbrev F.ETH_BR_FDBRES_static : Fld := ⟨3, 1⟩
abbrev F.ETH_BR_FDBRES_full : Fld := ⟨4, 1⟩
abbrev F.ETH_BR_FDBRES_ports : Fld := ⟨5, 22⟩
abbrev F.ETH_BR_PORT_pvid : Fld := ⟨0, 12⟩
abbrev F.ETH_BR_PORT_dpcp : Fld := ⟨12, 3⟩
abbrev F.ETH_BR_PORT_accept : Fld := ⟨15, 2⟩
abbrev F.ETH_BR_PORT_learn : Fld := ⟨17, 1⟩
abbrev F.ETH_BR_PCPMAP_tc : Fld := ⟨0, 24⟩
abbrev F.ETH_BR_VLAN_member : Fld := ⟨0, 22⟩
abbrev F.ETH_BR_VLAN_untag : Fld := ⟨22, 22⟩
abbrev F.ETH_BR_VLAN_v : Fld := ⟨44, 1⟩
abbrev F.TSN_GCTL_en : Fld := ⟨0, 1⟩
abbrev F.TSN_GCTL_go : Fld := ⟨1, 1⟩
abbrev F.TSN_GCTL_len : Fld := ⟨2, 8⟩
abbrev F.TSN_GSTAT_pend : Fld := ⟨0, 1⟩
abbrev F.TSN_GSTAT_bank : Fld := ⟨1, 1⟩
abbrev F.TSN_GSTAT_err : Fld := ⟨2, 1⟩
abbrev F.TSN_GSTAT_entry : Fld := ⟨3, 8⟩
abbrev F.TSN_GBASE_base : Fld := ⟨0, 64⟩
abbrev F.TSN_GCYC_ns : Fld := ⟨0, 32⟩
abbrev F.TSN_GEXT_ns : Fld := ⟨0, 32⟩
abbrev F.TSN_TNS_ns : Fld := ⟨0, 64⟩
abbrev F.TSN_TFR_frac : Fld := ⟨0, 32⟩
abbrev F.TSN_TADD_add : Fld := ⟨0, 40⟩
abbrev F.TSN_TSTEP_step : Fld := ⟨0, 64⟩
abbrev F.TSN_TSET_ns : Fld := ⟨0, 64⟩
abbrev F.TSN_SGBASE_base : Fld := ⟨0, 64⟩
abbrev F.TSN_QCFG_limit : Fld := ⟨0, 16⟩
abbrev F.TSN_QCFG_cbs : Fld := ⟨16, 1⟩
abbrev F.TSN_CBS_idle : Fld := ⟨0, 32⟩
abbrev F.TSN_CBS_hicredit : Fld := ⟨32, 16⟩
abbrev F.TSN_CBS_locredit : Fld := ⟨48, 16⟩
abbrev F.TSN_GCL_gates : Fld := ⟨0, 8⟩
abbrev F.TSN_GCL_interval : Fld := ⟨8, 24⟩
abbrev F.TSN_SGCTL_len : Fld := ⟨0, 4⟩
abbrev F.TSN_SID_addr : Fld := ⟨0, 48⟩
abbrev F.TSN_SID_vid : Fld := ⟨48, 12⟩
abbrev F.TSN_SID_sa : Fld := ⟨60, 1⟩
abbrev F.TSN_SID_anyvid : Fld := ⟨61, 1⟩
abbrev F.TSN_SID_v : Fld := ⟨63, 1⟩
abbrev F.TSN_SID_in_ports : Fld := ⟨0, 22⟩
abbrev F.TSN_SID_flt : Fld := ⟨22, 8⟩
abbrev F.TSN_SID_flt_en : Fld := ⟨30, 1⟩
abbrev F.TSN_SID_gen : Fld := ⟨31, 8⟩
abbrev F.TSN_SID_gen_en : Fld := ⟨39, 1⟩
abbrev F.TSN_SID_rec : Fld := ⟨40, 8⟩
abbrev F.TSN_SID_rec_en : Fld := ⟨48, 1⟩
abbrev F.TSN_SFLT_pcp : Fld := ⟨0, 8⟩
abbrev F.TSN_SFLT_gate : Fld := ⟨8, 5⟩
abbrev F.TSN_SFLT_gate_en : Fld := ⟨13, 1⟩
abbrev F.TSN_SFLT_meter : Fld := ⟨14, 8⟩
abbrev F.TSN_SFLT_met_en : Fld := ⟨22, 1⟩
abbrev F.TSN_SFLT_maxsdu : Fld := ⟨23, 14⟩
abbrev F.TSN_SFLT_blk : Fld := ⟨37, 1⟩
abbrev F.TSN_SFLT_blocked : Fld := ⟨38, 1⟩
abbrev F.TSN_FMTR_cir : Fld := ⟨0, 32⟩
abbrev F.TSN_FMTR_eir : Fld := ⟨32, 32⟩
abbrev F.TSN_FMTR_cbs : Fld := ⟨0, 16⟩
abbrev F.TSN_FMTR_ebs : Fld := ⟨16, 16⟩
abbrev F.TSN_FMTR_cf : Fld := ⟨32, 1⟩
abbrev F.TSN_FMTR_dropy : Fld := ⟨33, 1⟩
abbrev F.TSN_FMTR_mared_en : Fld := ⟨34, 1⟩
abbrev F.TSN_FMTR_mared : Fld := ⟨35, 1⟩
abbrev F.TSN_SGCL_open : Fld := ⟨0, 1⟩
abbrev F.TSN_SGCL_ipv : Fld := ⟨1, 3⟩
abbrev F.TSN_SGCL_ipv_en : Fld := ⟨4, 1⟩
abbrev F.TSN_SGCL_interval : Fld := ⟨8, 24⟩
abbrev F.TSN_FRGEN_seq : Fld := ⟨0, 16⟩
abbrev F.TSN_FRREC_alg : Fld := ⟨0, 1⟩
abbrev F.TSN_FRREC_hist : Fld := ⟨1, 5⟩
abbrev F.TSN_FRREC_reset : Fld := ⟨6, 16⟩
abbrev F.TSN_FRREC_strip : Fld := ⟨22, 1⟩
abbrev F.TSN_FRREC_passed : Fld := ⟨0, 32⟩
abbrev F.TSN_FRREC_discarded : Fld := ⟨32, 32⟩
abbrev F.CAN_CTL_resume : Fld := ⟨0, 1⟩
abbrev F.CAN_CTL_stop : Fld := ⟨1, 1⟩
abbrev F.CAN_STAT_state : Fld := ⟨0, 2⟩
abbrev F.CAN_STAT_est : Fld := ⟨2, 2⟩
abbrev F.CAN_STAT_tec : Fld := ⟨4, 8⟩
abbrev F.CAN_STAT_rec : Fld := ⟨12, 8⟩
abbrev F.CAN_STAT_reason : Fld := ⟨20, 8⟩
abbrev F.CAN_CFG_fd_en : Fld := ⟨0, 1⟩
abbrev F.CAN_CFG_xl_en : Fld := ⟨1, 1⟩
abbrev F.CAN_CFG_pex : Fld := ⟨2, 1⟩
abbrev F.CAN_CFG_aboff : Fld := ⟨3, 1⟩
abbrev F.CAN_CFG_lom : Fld := ⟨4, 1⟩
abbrev F.CAN_CFG_tdc_en : Fld := ⟨5, 1⟩
abbrev F.CAN_CFG_xmode : Fld := ⟨6, 1⟩
abbrev F.CAN_CFG_ttl : Fld := ⟨8, 16⟩
abbrev F.CAN_NTIM_brp : Fld := ⟨0, 6⟩
abbrev F.CAN_NTIM_tseg1 : Fld := ⟨6, 9⟩
abbrev F.CAN_NTIM_tseg2 : Fld := ⟨15, 7⟩
abbrev F.CAN_NTIM_sjw : Fld := ⟨22, 7⟩
abbrev F.CAN_DTIM_brp : Fld := ⟨0, 6⟩
abbrev F.CAN_DTIM_tseg1 : Fld := ⟨6, 9⟩
abbrev F.CAN_DTIM_tseg2 : Fld := ⟨15, 7⟩
abbrev F.CAN_DTIM_sjw : Fld := ⟨22, 7⟩
abbrev F.CAN_XTIM_tdco : Fld := ⟨0, 8⟩
abbrev F.CAN_XTIM_pwms : Fld := ⟨8, 6⟩
abbrev F.CAN_XTIM_pwml : Fld := ⟨14, 6⟩
abbrev F.CAN_XTIM_pwmo : Fld := ⟨20, 6⟩
abbrev F.CAN_IRQ_boff : Fld := ⟨0, 1⟩
abbrev F.CAN_IRQ_epass : Fld := ⟨1, 1⟩
abbrev F.CAN_IRQ_ewarn : Fld := ⟨2, 1⟩
abbrev F.CAN_IRQ_drop : Fld := ⟨3, 1⟩
abbrev F.CAN_IRQEN_mask : Fld := ⟨0, 4⟩
abbrev F.CAN_CNT_count : Fld := ⟨0, 48⟩
abbrev F.LIN_CTL_resume : Fld := ⟨0, 1⟩
abbrev F.LIN_CTL_stop : Fld := ⟨1, 1⟩
abbrev F.LIN_CTL_wake : Fld := ⟨2, 1⟩
abbrev F.LIN_STAT_state : Fld := ⟨0, 2⟩
abbrev F.LIN_STAT_reason : Fld := ⟨20, 8⟩
abbrev F.LIN_STAT_sleep : Fld := ⟨2, 1⟩
abbrev F.LIN_CFG_role : Fld := ⟨0, 1⟩
abbrev F.LIN_CFG_lbt : Fld := ⟨1, 18⟩
abbrev F.LIN_CFG_nsched : Fld := ⟨19, 6⟩
abbrev F.LIN_IRQ_err : Fld := ⟨0, 1⟩
abbrev F.LIN_IRQ_wake : Fld := ⟨1, 1⟩
abbrev F.LIN_IRQ_sleep : Fld := ⟨2, 1⟩
abbrev F.LIN_IRQ_drop : Fld := ⟨3, 1⟩
abbrev F.LIN_IRQEN_mask : Fld := ⟨0, 4⟩
abbrev F.LIN_CNT_count : Fld := ⟨0, 48⟩
abbrev F.LIN_SCHED_id : Fld := ⟨0, 6⟩
abbrev F.LIN_SCHED_slot : Fld := ⟨6, 16⟩
abbrev F.LIN_RESP_len : Fld := ⟨0, 4⟩
abbrev F.LIN_RESP_pub : Fld := ⟨4, 1⟩
abbrev F.LIN_RESP_sub : Fld := ⟨5, 1⟩
abbrev F.LIN_RESP_enh : Fld := ⟨6, 1⟩
abbrev F.CAN_GW_CTL_lock : Fld := ⟨0, 1⟩
abbrev F.CAN_GW_SMAC_smac : Fld := ⟨0, 48⟩
abbrev F.CAN_GW_CNT_count : Fld := ⟨0, 48⟩
abbrev F.CAN_GW_RULE_v : Fld := ⟨0, 1⟩
abbrev F.CAN_GW_RULE_srcmask : Fld := ⟨1, 20⟩
abbrev F.CAN_GW_RULE_id : Fld := ⟨21, 29⟩
abbrev F.CAN_GW_RULE_idmask : Fld := ⟨0, 29⟩
abbrev F.CAN_GW_RULE_ide : Fld := ⟨50, 1⟩
abbrev F.CAN_GW_RULE_ide_cmp : Fld := ⟨51, 1⟩
abbrev F.CAN_GW_RULE_fmts : Fld := ⟨52, 3⟩
abbrev F.CAN_GW_RULE_dstmask : Fld := ⟨29, 20⟩
abbrev F.CAN_GW_RULE_nid : Fld := ⟨49, 11⟩
abbrev F.CAN_GW_RULE_nid_en : Fld := ⟨60, 1⟩
abbrev F.CAN_GW_ACT_q_en : Fld := ⟨0, 1⟩
abbrev F.CAN_GW_ACT_tenant : Fld := ⟨1, 9⟩
abbrev F.CAN_GW_ACT_qp : Fld := ⟨10, 3⟩
abbrev F.CAN_GW_ACT_acf_en : Fld := ⟨13, 1⟩
abbrev F.CAN_GW_ACT_stream : Fld := ⟨14, 5⟩
abbrev F.CAN_GW_ACT_lid : Fld := ⟨19, 6⟩
abbrev F.CAN_GW_STRM_dmac : Fld := ⟨0, 48⟩
abbrev F.CAN_GW_STRM_vid : Fld := ⟨48, 12⟩
abbrev F.CAN_GW_STRM_pcp : Fld := ⟨60, 3⟩
abbrev F.CAN_GW_STRM_v : Fld := ⟨63, 1⟩
abbrev F.CAN_GW_STRM_stream_id : Fld := ⟨0, 64⟩
abbrev F.CAN_GW_UNPK_stream_id : Fld := ⟨0, 64⟩
abbrev F.CAN_GW_UNPK_v : Fld := ⟨0, 1⟩
abbrev F.CAN_GW_UNPK_canmask : Fld := ⟨1, 12⟩
abbrev F.CAN_GW_UNPK_linmask : Fld := ⟨13, 8⟩
abbrev F.SEC_CTL_cw_restart : Fld := ⟨0, 1⟩
abbrev F.SEC_STAT_cw_state : Fld := ⟨0, 2⟩
abbrev F.SEC_STAT_trng_fail : Fld := ⟨2, 1⟩
abbrev F.SEC_STAT_boot : Fld := ⟨8, 8⟩
abbrev F.SEC_RSTCNT_count : Fld := ⟨0, 32⟩
abbrev F.SEC_MEAS_bytes : Fld := ⟨0, 64⟩
abbrev F.SEC_ALIAS_bytes : Fld := ⟨0, 64⟩
abbrev F.SEC_JOB_CMD_op : Fld := ⟨0, 4⟩
abbrev F.SEC_JOB_CMD_ksrc : Fld := ⟨4, 1⟩
abbrev F.SEC_JOB_CMD_k256 : Fld := ⟨5, 1⟩
abbrev F.SEC_JOB_SRC_pa : Fld := ⟨0, 44⟩
abbrev F.SEC_JOB_DST_pa : Fld := ⟨0, 44⟩
abbrev F.SEC_JOB_LEN_len : Fld := ⟨0, 24⟩
abbrev F.SEC_JOB_STAT_rstat : Fld := ⟨0, 2⟩
abbrev F.SEC_JOB_STAT_code : Fld := ⟨4, 4⟩
abbrev F.SEC_JOB_KEY_key : Fld := ⟨0, 32⟩
abbrev F.SEC_JOB_RES_result : Fld := ⟨0, 64⟩
abbrev F.SEC_DBG_CHAL_chal : Fld := ⟨0, 32⟩
abbrev F.SEC_DBG_CERT_bytes : Fld := ⟨0, 32⟩
abbrev F.SEC_DBG_CMD_go : Fld := ⟨0, 1⟩
abbrev F.SEC_DBG_STAT_rstat : Fld := ⟨0, 2⟩
abbrev F.SEC_DBG_STAT_grants : Fld := ⟨4, 4⟩
abbrev F.SEC_DBG_CTL_revoke : Fld := ⟨0, 1⟩
abbrev F.SEC_CW_CTL_restart : Fld := ⟨0, 1⟩
abbrev F.SEC_CW_CTL_bootlock : Fld := ⟨1, 1⟩
abbrev F.SEC_CW_CTL_tvbm_lock : Fld := ⟨2, 1⟩
abbrev F.SEC_CW_CTL_trng_restart : Fld := ⟨3, 1⟩
abbrev F.SEC_CW_CTL_dbg_revoke : Fld := ⟨4, 1⟩
abbrev F.SEC_CW_STAT_fresh : Fld := ⟨0, 1⟩
abbrev F.SEC_CW_STAT_lifecycle : Fld := ⟨1, 2⟩
abbrev F.SEC_CW_WDT_period : Fld := ⟨0, 24⟩
abbrev F.SEC_CW_WDT_arm : Fld := ⟨24, 1⟩
abbrev F.SEC_CW_WDT_kick : Fld := ⟨25, 1⟩
abbrev F.SEC_CW_TVBM_base : Fld := ⟨12, 36⟩
abbrev F.SEC_CW_GDST_pa : Fld := ⟨6, 38⟩
abbrev F.SEC_CW_GLEN_len : Fld := ⟨0, 24⟩
abbrev F.SEC_CW_COCTL_lock : Fld := ⟨0, 1⟩
abbrev F.SEC_CW_COCTL_err : Fld := ⟨1, 1⟩
abbrev F.SEC_CW_MREXT_index : Fld := ⟨0, 4⟩
abbrev F.SEC_CW_MRSTAT_rstat : Fld := ⟨0, 2⟩
abbrev F.SEC_CW_MRSTAT_result : Fld := ⟨2, 2⟩
abbrev F.SEC_CW_KSCMD_op : Fld := ⟨0, 4⟩
abbrev F.SEC_CW_KSCMD_slot : Fld := ⟨4, 4⟩
abbrev F.SEC_CW_KSCMD_consumer : Fld := ⟨8, 6⟩
abbrev F.SEC_CW_KSCMD_mbind : Fld := ⟨14, 1⟩
abbrev F.SEC_CW_KSCMD_k256 : Fld := ⟨15, 1⟩
abbrev F.SEC_CW_KSSTAT_rstat : Fld := ⟨0, 2⟩
abbrev F.SEC_CW_KSSTAT_result : Fld := ⟨2, 2⟩
abbrev F.SEC_CW_KSDST_pa : Fld := ⟨6, 38⟩
abbrev F.SEC_CW_DENY_target : Fld := ⟨0, 8⟩
abbrev F.SEC_CW_DENY_requester : Fld := ⟨8, 6⟩
abbrev F.SEC_CW_DENY_tenant : Fld := ⟨14, 9⟩
abbrev F.SEC_CW_DENY_reg : Fld := ⟨23, 32⟩
abbrev F.SEC_CW_DENY_kind : Fld := ⟨55, 1⟩
abbrev F.SEC_CW_DENY_over : Fld := ⟨62, 1⟩
abbrev F.SEC_CW_DENY_valid : Fld := ⟨63, 1⟩
abbrev F.SEC_CW_GOLD_hash : Fld := ⟨0, 64⟩
abbrev F.SEC_CW_CO_v : Fld := ⟨0, 1⟩
abbrev F.SEC_CW_CO_size : Fld := ⟨1, 23⟩
abbrev F.SEC_CW_CO_base : Fld := ⟨24, 20⟩
abbrev F.SEC_CW_KSDATA_data : Fld := ⟨0, 64⟩
abbrev F.SAFE_CTL_lock : Fld := ⟨0, 1⟩
abbrev F.SAFE_CTL_inject : Fld := ⟨1, 1⟩
abbrev F.SAFE_CTL_icode : Fld := ⟨8, 6⟩
abbrev F.SAFE_CTL_lerr : Fld := ⟨16, 8⟩
abbrev F.SAFE_STAT_level : Fld := ⟨0, 2⟩
abbrev F.SAFE_STAT_split : Fld := ⟨2, 1⟩
abbrev F.SAFE_STAT_peer : Fld := ⟨3, 1⟩
abbrev F.SAFE_STAT_peer_lost : Fld := ⟨4, 1⟩
abbrev F.SAFE_STAT_cutfence : Fld := ⟨5, 1⟩
abbrev F.SAFE_STAT_chg : Fld := ⟨6, 1⟩
abbrev F.SAFE_STAT_irqf : Fld := ⟨7, 1⟩
abbrev F.SAFE_STAT_cause : Fld := ⟨8, 8⟩
abbrev F.SAFE_STAT_peer_level : Fld := ⟨16, 2⟩
abbrev F.SAFE_STAT_own : Fld := ⟨18, 1⟩
abbrev F.SAFE_CFG_drain : Fld := ⟨0, 19⟩
abbrev F.SAFE_CFG_tmax : Fld := ⟨19, 8⟩
abbrev F.SAFE_WDT_period : Fld := ⟨0, 16⟩
abbrev F.SAFE_WDT_win : Fld := ⟨16, 7⟩
abbrev F.SAFE_WDT_arm : Fld := ⟨23, 1⟩
abbrev F.SAFE_WDT_kick : Fld := ⟨24, 8⟩
abbrev F.SAFE_FREC_code : Fld := ⟨0, 6⟩
abbrev F.SAFE_FREC_island : Fld := ⟨14, 8⟩
abbrev F.SAFE_FREC_time : Fld := ⟨22, 40⟩
abbrev F.SAFE_FREC_over : Fld := ⟨62, 1⟩
abbrev F.SAFE_FREC_valid : Fld := ⟨63, 1⟩
abbrev F.SAFE_TIME_ticks : Fld := ⟨0, 48⟩
abbrev F.SAFE_SOUT_val : Fld := ⟨0, 4⟩
abbrev F.SAFE_SOUT_safe : Fld := ⟨4, 4⟩
abbrev F.SAFE_SOUT_deg : Fld := ⟨8, 4⟩
abbrev F.SAFE_SOUT_pins : Fld := ⟨12, 4⟩
abbrev F.SAFE_REJOIN_go : Fld := ⟨0, 1⟩
abbrev F.SAFE_REJOIN_rstat : Fld := ⟨1, 2⟩
abbrev F.SAFE_REJOIN_reason : Fld := ⟨8, 8⟩
abbrev F.SAFE_FMAP_act : Fld := ⟨0, 3⟩
abbrev F.SAFE_FMAP_esc : Fld := ⟨3, 3⟩
abbrev F.SAFE_FMAP_thr : Fld := ⟨6, 8⟩
abbrev F.SAFE_FMAP_cnt : Fld := ⟨14, 8⟩
abbrev F.SAFE_FMAP_fixed : Fld := ⟨22, 1⟩
abbrev F.SAFE_FMAP_clr : Fld := ⟨31, 1⟩
abbrev F.SAFE_PAIR_cmd : Fld := ⟨0, 2⟩
abbrev F.SAFE_PAIR_k : Fld := ⟨2, 2⟩
abbrev F.SAFE_PAIR_formed : Fld := ⟨4, 4⟩
abbrev F.SAFE_PAIR_faulted : Fld := ⟨8, 4⟩
abbrev F.SAFE_PAIR_rstat : Fld := ⟨12, 2⟩
abbrev F.SAFE_PAIR_reason : Fld := ⟨16, 8⟩
abbrev F.SAFE_TCLS_cls : Fld := ⟨0, 1⟩
abbrev F.SAFE_TCLS_half : Fld := ⟨1, 2⟩
abbrev F.SAFE_TCLS_pair : Fld := ⟨3, 1⟩
abbrev F.PWR_RAIL_vcore : Fld := ⟨0, 5⟩
abbrev F.PWR_RAIL_cur : Fld := ⟨5, 5⟩
abbrev F.PWR_RAIL_busy : Fld := ⟨10, 1⟩
abbrev F.PWR_RAIL_err : Fld := ⟨11, 1⟩
abbrev F.PWR_RAIL_settle : Fld := ⟨12, 12⟩
abbrev F.PWR_DOM_cmd : Fld := ⟨0, 2⟩
abbrev F.PWR_DOM_state : Fld := ⟨2, 3⟩
abbrev F.PWR_DOM_status : Fld := ⟨8, 3⟩
abbrev F.PWR_CORE_ig_en : Fld := ⟨0, 1⟩
abbrev F.PWR_CORE_asleep : Fld := ⟨1, 1⟩
abbrev F.PWR_CORE_vreq : Fld := ⟨2, 6⟩
abbrev F.PWR_CORE_idle_dly : Fld := ⟨8, 16⟩
abbrev F.PWR_CWHOLD_hold : Fld := ⟨0, 32⟩
abbrev F.CLK_CORE_mult : Fld := ⟨0, 7⟩
abbrev F.CLK_CORE_cur : Fld := ⟨7, 7⟩
abbrev F.CLK_CORE_busy : Fld := ⟨14, 1⟩
abbrev F.CLK_CORE_status : Fld := ⟨16, 3⟩
abbrev F.CLK_ISL_gate : Fld := ⟨0, 1⟩
abbrev F.CLK_ISL_locked : Fld := ⟨1, 1⟩
abbrev F.CLK_ISL_lol : Fld := ⟨2, 1⟩
abbrev F.CLK_ISL_status : Fld := ⟨3, 3⟩
abbrev F.RST_CTL_warm : Fld := ⟨0, 1⟩
abbrev F.RST_CTL_key : Fld := ⟨8, 8⟩
abbrev F.RST_CMD_op : Fld := ⟨0, 2⟩
abbrev F.RST_CMD_target : Fld := ⟨2, 9⟩
abbrev F.RST_CMDSTAT_rstat : Fld := ⟨0, 2⟩
abbrev F.RST_CMDSTAT_result : Fld := ⟨2, 2⟩
abbrev F.RST_REC_cause : Fld := ⟨0, 4⟩
abbrev F.RST_REC_src : Fld := ⟨4, 6⟩
abbrev F.RST_REC_world : Fld := ⟨10, 1⟩
abbrev F.RST_REC_pl : Fld := ⟨11, 2⟩
abbrev F.RST_REC_target : Fld := ⟨13, 7⟩
abbrev F.RST_REC_warm_cnt : Fld := ⟨32, 16⟩
abbrev F.RST_REC_half_cnt : Fld := ⟨48, 8⟩
abbrev F.RST_RECT_ticks : Fld := ⟨0, 48⟩
abbrev F.RST_LOSTN_count : Fld := ⟨0, 16⟩
abbrev F.RST_LOSTN_over : Fld := ⟨16, 1⟩
abbrev F.RST_LOST_pa : Fld := ⟨0, 44⟩
abbrev F.RST_LOST_tenant : Fld := ⟨44, 9⟩
abbrev F.RST_LOST_kind : Fld := ⟨53, 2⟩
abbrev F.RST_LOST_valid : Fld := ⟨63, 1⟩
abbrev F.TRC_CTL_en : Fld := ⟨0, 1⟩
abbrev F.TRC_CTL_sink : Fld := ⟨1, 2⟩
abbrev F.TRC_CTL_wrap : Fld := ⟨3, 1⟩
abbrev F.TRC_CTL_reserve : Fld := ⟨4, 4⟩
abbrev F.TRC_CTL_trig : Fld := ⟨8, 1⟩
abbrev F.TRC_CTL_syncp : Fld := ⟨12, 8⟩
abbrev F.TRC_STAT_full : Fld := ⟨0, 1⟩
abbrev F.TRC_STAT_err : Fld := ⟨1, 1⟩
abbrev F.TRC_STAT_busy : Fld := ⟨2, 1⟩
abbrev F.TRC_STAT_last_src : Fld := ⟨8, 8⟩
abbrev F.TRC_MBASE_base : Fld := ⟨12, 32⟩
abbrev F.TRC_MSIZE_log2 : Fld := ⟨0, 5⟩
abbrev F.TRC_MWP_offset : Fld := ⟨0, 30⟩
abbrev F.TRC_MWP_wrapped : Fld := ⟨30, 1⟩
abbrev F.TRC_LOST_bytes : Fld := ⟨0, 48⟩
abbrev F.TRC_LOST_clr : Fld := ⟨63, 1⟩
abbrev F.TRC_HCMD_op : Fld := ⟨0, 2⟩
abbrev F.TRC_HCMD_cluster : Fld := ⟨2, 4⟩
abbrev F.TRC_HCMD_thread : Fld := ⟨6, 8⟩
abbrev F.TRC_HSTAT_rstat : Fld := ⟨0, 2⟩
abbrev F.TRC_HSTAT_held : Fld := ⟨2, 1⟩
abbrev F.TRC_SRC_prio : Fld := ⟨0, 2⟩
abbrev F.TRC_ENC_en : Fld := ⟨0, 1⟩
abbrev F.TRC_ENC_br : Fld := ⟨1, 1⟩
abbrev F.TRC_ENC_data : Fld := ⟨2, 1⟩
abbrev F.TRC_ENC_start : Fld := ⟨3, 2⟩
abbrev F.TRC_ENC_stop : Fld := ⟨5, 2⟩
abbrev F.TRC_ENC_rearm : Fld := ⟨7, 1⟩
abbrev F.TRC_ENC_evtrig : Fld := ⟨28, 1⟩
abbrev F.TRC_ENC_state : Fld := ⟨8, 2⟩
abbrev F.TRC_ENC_tval : Fld := ⟨10, 9⟩
abbrev F.TRC_ENC_tmask : Fld := ⟨19, 9⟩
abbrev F.TRC_DCFG_mode : Fld := ⟨0, 2⟩
abbrev F.TRC_DCFG_lvl : Fld := ⟨2, 1⟩
abbrev F.TRC_DCFG_step : Fld := ⟨3, 8⟩
abbrev F.TRC_DCFG_bp0_en : Fld := ⟨11, 1⟩
abbrev F.TRC_DCFG_bp1_en : Fld := ⟨12, 1⟩
abbrev F.TRC_DCFG_wp_en : Fld := ⟨13, 1⟩
abbrev F.TRC_DCFG_wp_rd : Fld := ⟨14, 1⟩
abbrev F.TRC_DCFG_wp_wr : Fld := ⟨15, 1⟩
abbrev F.TRC_RNG0LO_addr : Fld := ⟨2, 46⟩
abbrev F.TRC_RNG0HI_addr : Fld := ⟨2, 46⟩
abbrev F.TRC_RNG1LO_addr : Fld := ⟨2, 46⟩
abbrev F.TRC_RNG1HI_addr : Fld := ⟨2, 46⟩
abbrev F.TRC_BP0_addr : Fld := ⟨2, 46⟩
abbrev F.TRC_BP1_addr : Fld := ⟨2, 46⟩
abbrev F.TRC_WP_addr : Fld := ⟨3, 45⟩
abbrev F.PMU_MODE_mode : Fld := ⟨0, 2⟩
abbrev F.PMU_MODE_cmd : Fld := ⟨2, 2⟩
abbrev F.PMU_MODE_err : Fld := ⟨4, 1⟩
abbrev F.PMU_SNAP_op : Fld := ⟨0, 3⟩
abbrev F.PMU_SNAP_pend : Fld := ⟨3, 1⟩
abbrev F.PMU_SNAP_lost : Fld := ⟨4, 1⟩
abbrev F.PMU_SNAP_frozen : Fld := ⟨5, 1⟩
abbrev F.PMU_SNAPAT_at : Fld := ⟨0, 48⟩
abbrev F.PMU_SNAPT_tick : Fld := ⟨0, 48⟩
abbrev F.PMU_SNAPT_sn : Fld := ⟨48, 16⟩
abbrev F.PMU_RD_island : Fld := ⟨0, 8⟩
abbrev F.PMU_RD_page : Fld := ⟨8, 5⟩
abbrev F.PMU_RD_rstat : Fld := ⟨14, 2⟩
abbrev F.PMU_RD_off : Fld := ⟨16, 1⟩
abbrev F.PMU_RD_sn : Fld := ⟨20, 12⟩
abbrev F.PMU_VAL_count : Fld := ⟨0, 48⟩
abbrev F.PMU_VAL_wrap : Fld := ⟨48, 1⟩
abbrev F.PMU_VAL_masked : Fld := ⟨49, 1⟩
abbrev F.PMU_CTHR_n14 : Fld := ⟨0, 8⟩
abbrev F.PMU_CTHR_n19 : Fld := ⟨8, 8⟩
abbrev F.PMU_CTHR_n1e : Fld := ⟨16, 8⟩
abbrev F.PMU_CTHR_n3d : Fld := ⟨24, 8⟩
abbrev F.PMU_RTHR_ne : Fld := ⟨0, 9⟩
abbrev F.PMU_MTHR_n8 : Fld := ⟨0, 8⟩
abbrev F.PMU_MTHR_n9 : Fld := ⟨8, 8⟩
abbrev F.PMU_MTHR_na : Fld := ⟨16, 8⟩
abbrev F.PMU_BWSEL_kind : Fld := ⟨0, 2⟩
abbrev F.PMU_BWSEL_unit : Fld := ⟨2, 6⟩
abbrev F.PMU_BWSEL_out : Fld := ⟨8, 3⟩
abbrev F.PMU_BWSEL_net : Fld := ⟨11, 2⟩
abbrev F.PMU_BWSEL_dir : Fld := ⟨13, 2⟩
abbrev F.PMU_BWSEL_win : Fld := ⟨16, 32⟩
abbrev F.PMU_BWLAST_bytes : Fld := ⟨0, 48⟩
abbrev F.PMU_BWLAST_wins : Fld := ⟨48, 16⟩
abbrev F.PMU_BWMAX_bytes : Fld := ⟨0, 48⟩
abbrev F.PMU_BWMAX_clr : Fld := ⟨63, 1⟩
abbrev F.PMU_SMP_event : Fld := ⟨0, 6⟩
abbrev F.PMU_SMP_en : Fld := ⟨6, 1⟩
abbrev F.PMU_SMP_period : Fld := ⟨8, 40⟩
abbrev F.PMU_SREC0_pc : Fld := ⟨0, 48⟩
abbrev F.PMU_SREC0_bank : Fld := ⟨48, 3⟩
abbrev F.PMU_SREC0_skid : Fld := ⟨51, 2⟩
abbrev F.PMU_SREC0_pcv : Fld := ⟨53, 1⟩
abbrev F.PMU_SREC0_over : Fld := ⟨62, 1⟩
abbrev F.PMU_SREC0_valid : Fld := ⟨63, 1⟩
abbrev F.PMU_SREC1_ctx : Fld := ⟨0, 32⟩
abbrev F.PMU_SREC1_cyc : Fld := ⟨32, 32⟩

/-! ## The registers of each block (Bits, Type and Reset columns of the spec) -/

def regsSCHED : List RegD := [
  ⟨"SCHED_TIME", 0x0, 0x0, 1, 0x0, 1, 8, [⟨0, 48, .ro, 0, false, 0⟩]⟩,
  ⟨"SCHED_CORE", 0x40, 0x4, 8, 0x0, 1, 4, [⟨0, 1, .rw, 0, false, 0⟩, ⟨8, 16, .rw, 0, false, 0⟩]⟩,
  ⟨"SCHED_THR_A", 0x1000, 0x8, 256, 0x0, 1, 8, [⟨6, 38, .rws, 0, false, 0⟩, ⟨44, 9, .rws, 0, false, 0⟩, ⟨53, 10, .rws, 0, false, 0⟩, ⟨63, 1, .rws, 0, true, 0⟩]⟩,
  ⟨"SCHED_THR_B", 0x1800, 0x8, 256, 0x0, 1, 8, [⟨0, 3, .rws, 0, false, 0⟩, ⟨3, 3, .rws, 0, false, 0⟩, ⟨6, 1, .rws, 0, false, 0⟩, ⟨7, 1, .ro, 0, false, 0⟩, ⟨8, 8, .rws, 0, false, 0⟩, ⟨16, 16, .rws, 0, false, 0⟩, ⟨32, 16, .ro, 0, false, 0⟩, ⟨48, 3, .ro, 0, false, 0⟩, ⟨51, 3, .ro, 0, false, 0⟩, ⟨54, 2, .rws, 1, false, 0⟩]⟩,
  ⟨"SCHED_THR_T", 0x2000, 0x8, 256, 0x0, 1, 8, [⟨0, 40, .rw, 0, false, 0⟩, ⟨40, 1, .rw, 0, false, 0⟩, ⟨41, 23, .rw, 0, false, 0⟩]⟩,
  ⟨"SCHED_EVT", 0x4000, 0x4, 512, 0x0, 1, 4, [⟨0, 1, .rw, 0, false, 0⟩, ⟨1, 2, .rw, 0, false, 0⟩, ⟨3, 12, .rw, 0, false, 0⟩, ⟨15, 8, .rw, 0, false, 0⟩, ⟨23, 4, .rw, 0, false, 0⟩]⟩,
  ⟨"SCHED_SEM_POST", 0x8000, 0x1000, 8, 0x10, 8, 4, [⟨0, 16, .wo, 0, true, 0⟩]⟩,
  ⟨"SCHED_SEM_CNT", 0x8004, 0x1000, 8, 0x10, 8, 4, [⟨0, 16, .ro, 0, false, 0⟩, ⟨16, 1, .w1c, 0, false, 2⟩]⟩]

def regsMMU : List RegD := [
  ⟨"MMU_CTL", 0x0, 0x0, 1, 0x0, 1, 4, [⟨0, 1, .rw, 0, false, 0⟩, ⟨1, 1, .rw, 0, false, 0⟩, ⟨2, 1, .w1s, 0, false, 1⟩]⟩,
  ⟨"MMU_TENT", 0x8, 0x0, 1, 0x0, 1, 8, [⟨13, 31, .rwl 0x0 2, 0, false, 0⟩]⟩,
  ⟨"MMU_PROOT", 0x10, 0x0, 1, 0x0, 1, 8, [⟨12, 32, .rw, 0, false, 0⟩]⟩,
  ⟨"MMU_MROOT", 0x18, 0x0, 1, 0x0, 1, 8, [⟨12, 32, .rw, 0, false, 0⟩]⟩,
  ⟨"MMU_DTO", 0x20, 0x0, 1, 0x0, 1, 4, [⟨0, 15, .rw, 0x61a8, false, 0⟩]⟩,
  ⟨"MMU_DWL", 0x28, 0x0, 1, 0x0, 1, 8, [⟨0, 44, .ro, 0, false, 2⟩, ⟨44, 9, .ro, 0, false, 2⟩, ⟨53, 3, .ro, 0, false, 2⟩, ⟨56, 6, .ro, 0, false, 2⟩, ⟨62, 1, .w1c, 0, false, 2⟩, ⟨63, 1, .w1c, 0, false, 2⟩]⟩,
  ⟨"MMU_INV", 0x30, 0x0, 1, 0x0, 1, 8, [⟨0, 3, .wo, 0, true, 0⟩, ⟨3, 1, .wo, 0, true, 0⟩, ⟨4, 9, .wo, 0, true, 0⟩, ⟨13, 10, .wo, 0, true, 0⟩, ⟨23, 36, .wo, 0, true, 0⟩]⟩,
  ⟨"MMU_INVS", 0x38, 0x0, 1, 0x0, 1, 4, [⟨0, 1, .ro, 0, false, 0⟩, ⟨1, 1, .w1c, 0, false, 2⟩, ⟨2, 1, .w1c, 0, false, 2⟩]⟩]

def regsPCIE : List RegD := [
  ⟨"PCIE_CTL", 0x0, 0x0, 1, 0x0, 1, 4, [⟨0, 1, .wo, 0, true, 0⟩, ⟨1, 1, .wo, 0, true, 0⟩, ⟨2, 1, .w1s, 0, false, 1⟩]⟩,
  ⟨"PCIE_CFG", 0x4, 0x0, 1, 0x0, 1, 4, [⟨0, 1, .rws, 0, false, 0⟩, ⟨1, 3, .rws, 5, false, 0⟩, ⟨4, 2, .rws, 2, false, 0⟩, ⟨6, 2, .rws, 2, false, 0⟩, ⟨8, 3, .rws, 5, false, 0⟩, ⟨11, 1, .rws, 1, false, 0⟩, ⟨12, 1, .rws, 0, false, 0⟩, ⟨13, 8, .rws, 1, false, 0⟩, ⟨21, 11, .rws, 0xf, false, 0⟩]⟩,
  ⟨"PCIE_STAT", 0x8, 0x0, 1, 0x0, 1, 8, [⟨0, 2, .ro, 0, false, 0⟩, ⟨2, 1, .ro, 0, false, 0⟩, ⟨3, 3, .ro, 0, false, 0⟩, ⟨6, 2, .ro, 0, false, 0⟩, ⟨16, 8, .ro, 0, false, 0⟩, ⟨24, 1, .w1c, 0, false, 2⟩, ⟨25, 9, .ro, 0, false, 0⟩]⟩,
  ⟨"PCIE_TENT", 0x10, 0x0, 1, 0x0, 1, 8, [⟨13, 31, .rwl 0x0 2, 0, false, 0⟩]⟩,
  ⟨"PCIE_IRQ", 0x18, 0x0, 1, 0x0, 1, 4, [⟨0, 1, .w1c, 0, false, 0⟩, ⟨1, 1, .w1c, 0, false, 0⟩, ⟨2, 1, .w1c, 0, false, 0⟩, ⟨3, 1, .w1c, 0, false, 0⟩, ⟨4, 1, .w1c, 0, false, 0⟩, ⟨5, 1, .w1c, 0, false, 0⟩, ⟨6, 1, .w1c, 0, false, 0⟩, ⟨7, 1, .w1c, 0, false, 0⟩, ⟨8, 1, .w1c, 0, false, 0⟩, ⟨9, 1, .w1c, 0, false, 0⟩]⟩,
  ⟨"PCIE_IRQEN", 0x1c, 0x0, 1, 0x0, 1, 4, [⟨0, 10, .rw, 0, false, 0⟩]⟩,
  ⟨"PCIE_ERR", 0x20, 0x0, 1, 0x0, 1, 8, [⟨0, 48, .ro, 0, false, 2⟩, ⟨48, 4, .ro, 0, false, 2⟩, ⟨52, 9, .ro, 0, false, 2⟩, ⟨62, 1, .w1c, 0, false, 2⟩, ⟨63, 1, .w1c, 0, false, 2⟩]⟩,
  ⟨"PCIE_MSIADDR", 0x28, 0x0, 1, 0x0, 1, 8, [⟨2, 62, .rws, 0, false, 0⟩]⟩,
  ⟨"PCIE_MSI", 0x30, 0x0, 1, 0x0, 1, 4, [⟨1, 31, .w1c, 0, false, 0⟩]⟩,
  ⟨"PCIE_MSIGEN", 0x34, 0x0, 1, 0x0, 1, 4, [⟨0, 5, .wo, 0, true, 0⟩]⟩,
  ⟨"PCIE_EPID", 0x38, 0x0, 1, 0x0, 1, 4, [⟨0, 16, .rwl 0x0 2, 0xffff, false, 0⟩, ⟨16, 16, .rwl 0x0 2, 0xffff, false, 0⟩]⟩,
  ⟨"PCIE_BAR", 0x40, 0x8, 2, 0x0, 1, 8, [⟨0, 6, .rws, 0, false, 0⟩]⟩,
  ⟨"PCIE_CNT", 0x100, 0x8, 8, 0x0, 1, 8, [⟨0, 48, .ro, 0, false, 0⟩]⟩,
  ⟨"PCIE_ATT0", 0x8000, 0x20, 512, 0x0, 1, 8, [⟨0, 1, .rw, 0, true, 0⟩, ⟨1, 1, .rw, 0, false, 0⟩, ⟨2, 9, .rw, 0, false, 0⟩, ⟨11, 6, .rw, 0, false, 0⟩, ⟨17, 1, .rw, 0, false, 0⟩, ⟨18, 1, .rw, 0, false, 0⟩, ⟨19, 3, .rw, 0, false, 0⟩]⟩,
  ⟨"PCIE_ATT1", 0x8008, 0x20, 512, 0x0, 1, 8, [⟨12, 32, .rw, 0, false, 0⟩]⟩,
  ⟨"PCIE_ATT2", 0x8010, 0x20, 512, 0x0, 1, 8, [⟨12, 52, .rw, 0, false, 0⟩]⟩]

def regsCACHE : List RegD := [
  ⟨"CACHE_CTL", 0x0, 0x0, 1, 0x0, 1, 4, [⟨0, 1, .rw, 0, false, 0⟩, ⟨1, 1, .w1s, 0, false, 1⟩]⟩,
  ⟨"CACHE_STAT", 0x4, 0x0, 1, 0x0, 1, 4, [⟨0, 1, .ro, 0, false, 0⟩, ⟨1, 1, .w1c, 0, false, 2⟩, ⟨2, 1, .w1c, 0, false, 2⟩]⟩,
  ⟨"CACHE_MAINT", 0x8, 0x0, 1, 0x0, 1, 4, [⟨0, 2, .wo, 0, true, 0⟩, ⟨2, 2, .wo, 0, true, 0⟩, ⟨4, 3, .wo, 0, true, 0⟩, ⟨8, 16, .wo, 0, true, 0⟩]⟩,
  ⟨"CACHE_CORE", 0x40, 0x4, 8, 0x0, 1, 4, [⟨0, 1, .rw, 0, false, 0⟩, ⟨1, 1, .rw, 0, false, 0⟩, ⟨2, 1, .rw, 0, false, 0⟩]⟩,
  ⟨"CACHE_PCLASS", 0x100, 0x4, 32, 0x0, 1, 4, [⟨0, 14, .rwl 0x0 1, 0x3fff, false, 0⟩, ⟨14, 1, .rwl 0x0 1, 1, false, 0⟩, ⟨15, 1, .rwl 0x0 1, 1, false, 0⟩]⟩,
  ⟨"CACHE_TMAP", 0x1000, 0x4, 512, 0x0, 1, 4, [⟨0, 5, .rwl 0x0 1, 0, false, 0⟩, ⟨5, 1, .rwl 0x0 1, 0, false, 0⟩]⟩]

def regsNOC : List RegD := [
  ⟨"NOC_CTL", 0x0, 0x0, 1, 0x0, 1, 4, [⟨0, 15, .rw, 0x9c4, false, 0⟩, ⟨15, 4, .rw, 0xf, false, 0⟩, ⟨19, 4, .rw, 3, false, 0⟩, ⟨23, 1, .w1s, 0, false, 1⟩]⟩,
  ⟨"NOC_STAT", 0x4, 0x0, 1, 0x0, 1, 4, [⟨0, 1, .w1c, 0, false, 2⟩, ⟨1, 3, .ro, 0, false, 0⟩, ⟨4, 2, .ro, 0, false, 0⟩]⟩,
  ⟨"NOC_GCLS", 0x8, 0x0, 1, 0x0, 1, 4, [⟨0, 16, .rwl 0x0 23, 0, false, 0⟩]⟩,
  ⟨"NOC_LINK", 0x10, 0x0, 1, 0x0, 1, 4, [⟨0, 1, .ro, 0, false, 0⟩, ⟨1, 1, .rw, 0, false, 0⟩, ⟨2, 1, .w1c, 0, false, 2⟩, ⟨3, 1, .w1c, 0, false, 2⟩, ⟨4, 1, .ro, 0, false, 0⟩, ⟨5, 1, .rw, 0, false, 0⟩, ⟨6, 1, .w1c, 0, false, 2⟩, ⟨7, 1, .w1c, 0, false, 2⟩, ⟨8, 1, .ro, 0, false, 0⟩, ⟨9, 1, .rw, 0, false, 0⟩, ⟨10, 1, .w1c, 0, false, 2⟩, ⟨11, 1, .w1c, 0, false, 2⟩, ⟨12, 1, .ro, 0, false, 0⟩, ⟨13, 1, .rw, 0, false, 0⟩, ⟨14, 1, .w1c, 0, false, 2⟩, ⟨15, 1, .w1c, 0, false, 2⟩]⟩,
  ⟨"NOC_ERR", 0x18, 0x0, 1, 0x0, 1, 8, [⟨0, 16, .ro, 0, false, 0⟩, ⟨16, 8, .ro, 0, false, 0⟩, ⟨24, 2, .ro, 0, false, 0⟩, ⟨26, 3, .ro, 0, false, 0⟩, ⟨63, 1, .wo, 0, true, 0⟩]⟩,
  ⟨"NOC_DSLOT", 0x100, 0x4, 60, 0x0, 1, 4, [⟨0, 4, .rwl 0x0 23, 0, false, 0⟩, ⟨4, 1, .rwl 0x0 23, 0, false, 0⟩, ⟨8, 4, .rwl 0x0 23, 0, false, 0⟩, ⟨12, 1, .rwl 0x0 23, 0, false, 0⟩, ⟨16, 4, .rwl 0x0 23, 0, false, 0⟩, ⟨20, 1, .rwl 0x0 23, 0, false, 0⟩]⟩,
  ⟨"NOC_PRB_SEL", 0x400, 0x40, 2, 0x0, 1, 4, [⟨0, 1, .rw, 0, false, 0⟩, ⟨1, 2, .rw, 0, false, 0⟩, ⟨3, 3, .rw, 0, false, 0⟩, ⟨6, 1, .rw, 0, false, 0⟩, ⟨7, 2, .rw, 0, false, 0⟩, ⟨9, 1, .rw, 0, false, 0⟩, ⟨10, 2, .rw, 0, false, 0⟩]⟩,
  ⟨"NOC_PRB_ENDP", 0x408, 0x40, 2, 0x0, 1, 4, [⟨0, 8, .rw, 0, false, 0⟩, ⟨8, 8, .rw, 0, false, 0⟩, ⟨16, 8, .rw, 0, false, 0⟩, ⟨24, 8, .rw, 0, false, 0⟩]⟩,
  ⟨"NOC_PRB_TEN", 0x410, 0x40, 2, 0x0, 1, 4, [⟨0, 9, .rw, 0, false, 0⟩, ⟨16, 9, .rw, 0, false, 0⟩]⟩,
  ⟨"NOC_PRB_TYPE", 0x418, 0x40, 2, 0x0, 1, 4, [⟨0, 16, .rw, 0xffff, false, 0⟩]⟩,
  ⟨"NOC_PRB_CNT", 0x420, 0x40, 2, 0x0, 1, 8, [⟨0, 48, .rw, 0, false, 0⟩, ⟨63, 1, .w1c, 0, false, 2⟩]⟩,
  ⟨"NOC_PRB_HDR", 0x428, 0x40, 2, 0x0, 1, 8, [⟨0, 64, .ro, 0, false, 0⟩]⟩,
  ⟨"NOC_TGRP", 0x1000, 0x4, 512, 0x0, 1, 4, [⟨0, 4, .rwl 0x0 23, 0, false, 0⟩]⟩]

def regsDMC : List RegD := [
  ⟨"DMC_CTL", 0x0, 0x0, 1, 0x0, 1, 4, [⟨0, 1, .rwl 0x0 7, 0, false, 0⟩, ⟨1, 1, .rwl 0x0 7, 1, false, 0⟩, ⟨2, 1, .rwl 0x0 7, 1, false, 0⟩, ⟨3, 4, .rwl 0x0 7, 4, false, 0⟩, ⟨7, 1, .w1s, 0, false, 1⟩]⟩,
  ⟨"DMC_CFG", 0x4, 0x0, 1, 0x0, 1, 4, [⟨0, 2, .rwl 0x0 7, 0, false, 0⟩, ⟨2, 1, .rwl 0x0 7, 0, false, 0⟩, ⟨3, 5, .rwl 0x0 7, 0x11, false, 0⟩]⟩,
  ⟨"DMC_TIM0", 0x8, 0x0, 1, 0x0, 1, 4, [⟨0, 8, .rwl 0x0 7, 0x14, false, 0⟩, ⟨8, 8, .rwl 0x0 7, 0x14, false, 0⟩, ⟨16, 8, .rwl 0x0 7, 0x18, false, 0⟩, ⟨24, 8, .rwl 0x0 7, 0xc, false, 0⟩]⟩,
  ⟨"DMC_TIM1", 0xc, 0x0, 1, 0x0, 1, 4, [⟨0, 8, .rwl 0x0 7, 0x40, false, 0⟩, ⟨8, 8, .rwl 0x0 7, 0xc, false, 0⟩, ⟨16, 8, .rwl 0x0 7, 0x96, false, 0⟩]⟩,
  ⟨"DMC_TIM2", 0x10, 0x0, 1, 0x0, 1, 4, [⟨0, 12, .rwl 0x0 7, 0x104, false, 0⟩, ⟨12, 2, .ro, 0, false, 0⟩]⟩,
  ⟨"DMC_INIT", 0x14, 0x0, 1, 0x0, 1, 4, [⟨0, 1, .wo, 0, true, 0⟩, ⟨1, 1, .ro, 0, false, 0⟩, ⟨2, 1, .ro, 0, false, 0⟩, ⟨3, 4, .ro, 0, false, 0⟩]⟩,
  ⟨"DMC_ERR", 0x18, 0x0, 1, 0x0, 1, 8, [⟨0, 16, .ro, 0, false, 0⟩, ⟨16, 8, .ro, 0, false, 0⟩, ⟨24, 16, .ro, 0, false, 0⟩, ⟨40, 8, .ro, 0, false, 0⟩, ⟨48, 1, .w1c, 0, false, 2⟩, ⟨63, 1, .wo, 0, true, 0⟩]⟩,
  ⟨"DMC_ERRADDR", 0x20, 0x0, 1, 0x0, 1, 8, [⟨0, 44, .ro, 0, false, 0⟩, ⟨63, 1, .w1c, 0, false, 2⟩]⟩,
  ⟨"DMC_REGCTL", 0x140, 0x0, 1, 0x0, 1, 4, [⟨0, 1, .w1s, 0, true, 1⟩, ⟨1, 1, .ro, 0, false, 0⟩, ⟨2, 1, .w1c, 0, false, 2⟩]⟩,
  ⟨"DMC_REGION", 0x100, 0x8, 8, 0x0, 1, 8, [⟨0, 1, .rwl 0x140 0, 0, false, 0⟩, ⟨1, 2, .rwl 0x140 0, 0, false, 0⟩, ⟨16, 16, .rwl 0x140 0, 0, false, 0⟩]⟩,
  ⟨"DMC_REG", 0x200, 0x4, 16, 0x0, 1, 4, [⟨0, 12, .rw, 0, false, 0⟩, ⟨12, 12, .rw, 0, false, 0⟩, ⟨24, 1, .rw, 0, false, 0⟩]⟩,
  ⟨"DMC_TGRP", 0x1000, 0x4, 512, 0x0, 1, 4, [⟨0, 4, .rwl 0x0 7, 0, false, 0⟩]⟩]

def regsICU : List RegD := [
  ⟨"ICU_CTL", 0x0, 0x0, 1, 0x0, 1, 4, [⟨0, 1, .w1s, 0, false, 1⟩, ⟨2, 8, .rwl 0x0 0, 2, false, 0⟩, ⟨10, 8, .rwl 0x0 0, 0, false, 0⟩]⟩,
  ⟨"ICU_STAT", 0x4, 0x0, 1, 0x0, 1, 4, [⟨0, 1, .ro, 0, false, 0⟩, ⟨1, 1, .w1c, 0, false, 2⟩, ⟨2, 10, .ro, 0, false, 0⟩]⟩,
  ⟨"ICU_SWL", 0x8, 0x0, 1, 0x0, 1, 4, [⟨0, 10, .wo, 0, true, 0⟩, ⟨10, 1, .wo, 0, true, 0⟩]⟩,
  ⟨"ICU_SRC", 0x1000, 0x4, 1024, 0x0, 1, 4, [⟨0, 1, .rwl 0x0 0, 0, true, 0⟩, ⟨1, 1, .rwl 0x0 0, 0, true, 0⟩, ⟨2, 1, .rwl 0x0 0, 0, true, 0⟩, ⟨3, 7, .rwl 0x0 0, 0, true, 0⟩, ⟨10, 3, .rwl 0x0 0, 0, true, 0⟩, ⟨13, 2, .rwl 0x0 0, 1, true, 0⟩, ⟨15, 4, .rwl 0x0 0, 0, true, 0⟩, ⟨19, 9, .rwl 0x0 0, 0, true, 0⟩, ⟨28, 1, .ro, 0, true, 0⟩, ⟨29, 1, .w1c, 0, true, 0⟩, ⟨30, 1, .w1c, 0, true, 2⟩]⟩]

def regsMEQT : List RegD := [
  ⟨"MEQ_TCTL", 0x0, 0x0, 1, 0x0, 1, 4, [⟨0, 1, .rwl 0x0 1, 0, false, 0⟩, ⟨1, 1, .w1s, 0, false, 1⟩]⟩,
  ⟨"MEQ_TSTAT", 0x4, 0x0, 1, 0x0, 1, 4, [⟨0, 1, .w1c, 0, false, 2⟩, ⟨1, 3, .ro, 0, false, 0⟩]⟩,
  ⟨"MEQ_TLIM", 0x100, 0x8, 8, 0x0, 1, 8, [⟨0, 20, .rwl 0x0 1, 0, false, 0⟩, ⟨20, 20, .rwl 0x0 1, 0, false, 0⟩, ⟨40, 3, .rwl 0x0 1, 0, false, 0⟩]⟩,
  ⟨"MEQ_QP_CFG", 0x1000, 0x1000, 8, 0x0, 1, 4, [⟨0, 1, .rws, 0, false, 0⟩, ⟨1, 1, .rws, 0, false, 0⟩, ⟨2, 1, .rws, 0, false, 0⟩, ⟨3, 1, .rws, 0, false, 0⟩, ⟨4, 4, .rws, 0, false, 0⟩, ⟨8, 5, .rws, 6, false, 0⟩, ⟨13, 5, .rws, 6, false, 0⟩, ⟨18, 4, .rws, 8, false, 0⟩, ⟨22, 7, .rws, 1, false, 0⟩, ⟨29, 3, .rws, 0, false, 0⟩]⟩,
  ⟨"MEQ_QP_MSG", 0x1004, 0x1000, 8, 0x0, 1, 4, [⟨0, 17, .rws, 0x100, false, 0⟩, ⟨17, 11, .rws, 0, false, 0⟩]⟩,
  ⟨"MEQ_QP_SQB", 0x1008, 0x1000, 8, 0x0, 1, 8, [⟨6, 38, .rws, 0, false, 0⟩]⟩,
  ⟨"MEQ_QP_CQB", 0x1010, 0x1000, 8, 0x0, 1, 8, [⟨6, 38, .rws, 0, false, 0⟩]⟩,
  ⟨"MEQ_QP_SEQ", 0x1018, 0x1000, 8, 0x0, 1, 8, [⟨0, 32, .rws, 0, true, 0⟩, ⟨32, 32, .rws, 0, true, 0⟩]⟩,
  ⟨"MEQ_QP_PORT", 0x1020, 0x1000, 8, 0x0, 1, 4, [⟨0, 20, .rws, 0, false, 0⟩]⟩,
  ⟨"MEQ_QP_RATE", 0x1024, 0x1000, 8, 0x0, 1, 4, [⟨0, 16, .rws, 0, false, 0⟩, ⟨16, 16, .rws, 0, false, 0⟩]⟩,
  ⟨"MEQ_QP_ACC", 0x1028, 0x1000, 8, 0x0, 1, 4, [⟨0, 16, .rws, 0, false, 0⟩, ⟨16, 16, .rws, 0, false, 0⟩]⟩,
  ⟨"MEQ_QP_HLEN", 0x102c, 0x1000, 8, 0x0, 1, 4, [⟨0, 7, .rws, 0, false, 0⟩, ⟨7, 3, .rws, 0, false, 0⟩]⟩,
  ⟨"MEQ_QP_MKIND", 0x1030, 0x1000, 8, 0x0, 1, 4, [⟨0, 8, .rws, 0, false, 0⟩]⟩,
  ⟨"MEQ_QP_STAT", 0x1034, 0x1000, 8, 0x0, 1, 4, [⟨0, 3, .ro, 0, false, 0⟩, ⟨3, 1, .ro, 0, false, 0⟩]⟩,
  ⟨"MEQ_QP_CNTREQ", 0x1038, 0x1000, 8, 0x0, 1, 4, [⟨0, 2, .wo, 0, true, 0⟩]⟩,
  ⟨"MEQ_QP_CNT", 0x1040, 0x1000, 8, 0x0, 1, 8, [⟨0, 48, .ro, 0, false, 0⟩, ⟨62, 2, .ro, 2, false, 0⟩]⟩,
  ⟨"MEQ_QP_HDR", 0x1080, 0x1000, 8, 0x4, 16, 4, [⟨0, 32, .rws, 0, false, 0⟩]⟩,
  ⟨"MEQ_QP_MVAL", 0x1100, 0x1000, 8, 0x10, 4, 8, [⟨0, 64, .rws, 0, false, 0⟩]⟩,
  ⟨"MEQ_QP_MMSK", 0x1108, 0x1000, 8, 0x10, 4, 8, [⟨0, 64, .rws, 0, false, 0⟩]⟩]

def regsMEQP : List RegD := [
  ⟨"MEQ_PCTL", 0x0, 0x0, 1, 0x0, 1, 4, [⟨0, 1, .w1s, 0, false, 1⟩]⟩,
  ⟨"MEQ_PTENT", 0x8, 0x0, 1, 0x0, 1, 8, [⟨13, 31, .rwl 0x0 0, 0, false, 0⟩]⟩,
  ⟨"MEQ_PSTAT", 0x10, 0x0, 1, 0x0, 1, 4, [⟨0, 1, .w1c, 0, false, 2⟩, ⟨1, 1, .w1c, 0, false, 2⟩, ⟨2, 1, .w1c, 0, false, 2⟩, ⟨3, 1, .w1c, 0, false, 2⟩, ⟨4, 9, .ro, 0, false, 0⟩, ⟨13, 3, .ro, 0, false, 0⟩]⟩]

def regsETH0 : List RegD := [
  ⟨"ETH_CTL", 0x0, 0x0, 1, 0x0, 1, 4, [⟨0, 1, .wo, 0, true, 0⟩, ⟨1, 1, .wo, 0, true, 0⟩]⟩,
  ⟨"ETH_STAT", 0x4, 0x0, 1, 0x0, 1, 4, [⟨0, 2, .ro, 0, false, 0⟩, ⟨2, 1, .ro, 0, false, 0⟩, ⟨3, 1, .ro, 0, false, 0⟩, ⟨4, 3, .ro, 0, false, 0⟩, ⟨7, 3, .ro, 0, false, 0⟩, ⟨16, 8, .ro, 0, false, 0⟩]⟩,
  ⟨"ETH_CFG", 0x8, 0x0, 1, 0x0, 1, 4, [⟨0, 3, .rws, 0, false, 0⟩, ⟨3, 1, .rws, 1, false, 0⟩, ⟨4, 2, .rws, 0, false, 0⟩, ⟨6, 14, .rws, 0x5ee, false, 0⟩, ⟨20, 1, .rws, 0, false, 0⟩, ⟨21, 1, .rws, 0, false, 0⟩]⟩,
  ⟨"ETH_PHY", 0xc, 0x0, 1, 0x0, 1, 4, [⟨0, 2, .rws, 0, false, 0⟩, ⟨2, 4, .rws, 0, false, 0⟩]⟩,
  ⟨"ETH_IRQ", 0x10, 0x0, 1, 0x0, 1, 4, [⟨0, 1, .w1c, 0, false, 0⟩, ⟨1, 1, .w1c, 0, false, 0⟩, ⟨2, 1, .w1c, 0, false, 0⟩, ⟨3, 1, .w1c, 0, false, 0⟩, ⟨4, 1, .w1c, 0, false, 0⟩, ⟨5, 1, .w1c, 0, false, 0⟩]⟩,
  ⟨"ETH_IRQEN", 0x14, 0x0, 1, 0x0, 1, 4, [⟨0, 6, .rw, 0, false, 0⟩]⟩,
  ⟨"ETH_DIAG", 0x18, 0x0, 1, 0x0, 1, 4, [⟨0, 1, .wo, 0, true, 0⟩]⟩,
  ⟨"ETH_DIAGR", 0x20, 0x0, 1, 0x0, 1, 8, [⟨0, 2, .ro, 2, false, 0⟩, ⟨2, 2, .ro, 0, false, 0⟩, ⟨4, 16, .ro, 0, false, 0⟩]⟩,
  ⟨"ETH_TSC", 0x28, 0x0, 1, 0x0, 1, 8, [⟨0, 32, .rw, 0, false, 0⟩, ⟨32, 32, .rw, 0, false, 0⟩]⟩,
  ⟨"ETH_MSCFG", 0x200, 0x0, 1, 0x0, 1, 4, [⟨0, 1, .rws, 0, false, 0⟩, ⟨1, 2, .rws, 0, false, 0⟩, ⟨3, 1, .rws, 0, false, 0⟩, ⟨4, 2, .rws, 0, false, 0⟩, ⟨6, 2, .rws, 2, false, 0⟩, ⟨8, 1, .rws, 1, false, 0⟩, ⟨9, 1, .rws, 1, false, 0⟩]⟩,
  ⟨"ETH_MSSCI", 0x208, 0x0, 1, 0x0, 1, 8, [⟨0, 64, .rws, 0, false, 0⟩]⟩,
  ⟨"ETH_MSWIN", 0x210, 0x0, 1, 0x0, 1, 4, [⟨0, 32, .rws, 0, false, 0⟩]⟩,
  ⟨"ETH_MSTX", 0x214, 0x0, 1, 0x0, 1, 4, [⟨0, 2, .rw, 0, false, 0⟩, ⟨4, 4, .rw, 0, false, 0⟩]⟩,
  ⟨"ETH_MSTHR", 0x218, 0x0, 1, 0x0, 1, 8, [⟨0, 64, .rw, 0xc0000000, false, 0⟩]⟩,
  ⟨"ETH_MSRXEN", 0x220, 0x0, 1, 0x0, 1, 8, [⟨0, 64, .rw, 0, false, 0⟩]⟩,
  ⟨"ETH_SSCI", 0x32c, 0x0, 1, 0x0, 1, 4, [⟨0, 32, .wo, 0, false, 0⟩]⟩,
  ⟨"ETH_SACMD", 0x330, 0x0, 1, 0x0, 1, 4, [⟨0, 1, .wo, 0, true, 0⟩, ⟨1, 1, .wo, 0, true, 0⟩, ⟨2, 4, .wo, 0, true, 0⟩, ⟨6, 2, .wo, 0, true, 0⟩, ⟨8, 1, .wo, 0, true, 0⟩, ⟨9, 4, .wo, 0, true, 0⟩, ⟨13, 1, .wo, 0, true, 0⟩]⟩,
  ⟨"ETH_SASTAT", 0x334, 0x0, 1, 0x0, 1, 4, [⟨0, 2, .ro, 2, false, 0⟩, ⟨2, 2, .ro, 0, false, 0⟩]⟩,
  ⟨"ETH_CNT", 0x100, 0x8, 24, 0x0, 1, 8, [⟨0, 48, .ro, 0, false, 0⟩]⟩,
  ⟨"ETH_MSTXSA", 0x240, 0x8, 4, 0x0, 1, 8, [⟨0, 64, .rw, 1, false, 0⟩]⟩,
  ⟨"ETH_SAK", 0x300, 0x4, 8, 0x0, 1, 4, [⟨0, 32, .wo, 0, false, 0⟩]⟩,
  ⟨"ETH_SALT", 0x320, 0x4, 3, 0x0, 1, 4, [⟨0, 32, .wo, 0, false, 0⟩]⟩,
  ⟨"ETH_MSRXSC", 0x400, 0x40, 16, 0x0, 1, 8, [⟨0, 64, .rw, 0, false, 0⟩]⟩,
  ⟨"ETH_MSRXSA", 0x408, 0x40, 16, 0x8, 4, 8, [⟨0, 64, .rw, 1, false, 0⟩]⟩]

def regsETH1 : List RegD := [
  ⟨"ETH_BR_CTL", 0x4000, 0x0, 1, 0x0, 1, 4, [⟨0, 16, .rwl 0x4000 16, 7, false, 0⟩, ⟨16, 1, .w1s, 0, false, 1⟩]⟩,
  ⟨"ETH_BR_FDBKEY", 0x4008, 0x0, 1, 0x0, 1, 8, [⟨0, 48, .rw, 0, false, 0⟩, ⟨48, 12, .rw, 0, false, 0⟩]⟩,
  ⟨"ETH_BR_FDBCMD", 0x4010, 0x0, 1, 0x0, 1, 4, [⟨0, 3, .wo, 0, true, 0⟩, ⟨3, 22, .wo, 0, true, 0⟩]⟩,
  ⟨"ETH_BR_FDBRES", 0x4018, 0x0, 1, 0x0, 1, 8, [⟨0, 2, .ro, 2, false, 0⟩, ⟨2, 1, .ro, 0, false, 0⟩, ⟨3, 1, .ro, 0, false, 0⟩, ⟨4, 1, .ro, 0, false, 0⟩, ⟨5, 22, .ro, 0, false, 0⟩]⟩,
  ⟨"ETH_BR_PORT", 0x4040, 0x4, 22, 0x0, 1, 4, [⟨0, 12, .rwl 0x4000 16, 1, false, 0⟩, ⟨12, 3, .rwl 0x4000 16, 0, false, 0⟩, ⟨15, 2, .rwl 0x4000 16, 0, false, 0⟩, ⟨17, 1, .rwl 0x4000 16, 1, false, 0⟩]⟩,
  ⟨"ETH_BR_PCPMAP", 0x4100, 0x4, 22, 0x0, 1, 4, [⟨0, 24, .rwl 0x4000 16, 0xfac688, false, 0⟩]⟩,
  ⟨"ETH_BR_VLAN", 0x8000, 0x8, 4096, 0x0, 1, 8, [⟨0, 22, .rwl 0x4000 16, 0, false, 0⟩, ⟨22, 22, .rwl 0x4000 16, 0, false, 0⟩, ⟨44, 1, .rwl 0x4000 16, 0, false, 0⟩]⟩]

def regsETH : List RegD := regsETH0 ++ regsETH1

def regsTSN0 : List RegD := [
  ⟨"TSN_GCTL", 0x0, 0x0, 1, 0x0, 1, 4, [⟨0, 1, .rw, 0, false, 0⟩, ⟨1, 1, .wo, 0, true, 0⟩, ⟨2, 8, .rw, 0, false, 0⟩]⟩,
  ⟨"TSN_GSTAT", 0x4, 0x0, 1, 0x0, 1, 4, [⟨0, 1, .ro, 0, false, 0⟩, ⟨1, 1, .ro, 0, false, 0⟩, ⟨2, 1, .w1c, 0, false, 2⟩, ⟨3, 8, .ro, 0, false, 0⟩]⟩,
  ⟨"TSN_GBASE", 0x8, 0x0, 1, 0x0, 1, 8, [⟨0, 64, .rw, 0, false, 0⟩]⟩,
  ⟨"TSN_GCYC", 0x10, 0x0, 1, 0x0, 1, 4, [⟨0, 32, .rw, 0, false, 0⟩]⟩,
  ⟨"TSN_GEXT", 0x14, 0x0, 1, 0x0, 1, 4, [⟨0, 32, .rw, 0, false, 0⟩]⟩,
  ⟨"TSN_TNS", 0x4000, 0x0, 1, 0x0, 1, 8, [⟨0, 64, .ro, 0, false, 0⟩]⟩,
  ⟨"TSN_TFR", 0x4008, 0x0, 1, 0x0, 1, 4, [⟨0, 32, .ro, 0, false, 0⟩]⟩,
  ⟨"TSN_TADD", 0x4010, 0x0, 1, 0x0, 1, 8, [⟨0, 40, .rw, 0xcccccccd, false, 0⟩]⟩,
  ⟨"TSN_TSTEP", 0x4018, 0x0, 1, 0x0, 1, 8, [⟨0, 64, .wo, 0, true, 0⟩]⟩,
  ⟨"TSN_TSET", 0x4020, 0x0, 1, 0x0, 1, 8, [⟨0, 64, .wo, 0, true, 0⟩]⟩,
  ⟨"TSN_SGBASE", 0x4028, 0x0, 1, 0x0, 1, 8, [⟨0, 64, .rw, 0, false, 0⟩]⟩,
  ⟨"TSN_QCFG", 0x100, 0x4, 8, 0x0, 1, 4, [⟨0, 16, .rw, 0x40, false, 0⟩, ⟨16, 1, .rw, 0, false, 0⟩]⟩,
  ⟨"TSN_CBS", 0x200, 0x8, 8, 0x0, 1, 8, [⟨0, 32, .rw, 0, false, 0⟩, ⟨32, 16, .rw, 0, false, 0⟩, ⟨48, 16, .rw, 0, false, 0⟩]⟩,
  ⟨"TSN_GCL", 0x1000, 0x4, 256, 0x0, 1, 4, [⟨0, 8, .rw, 0xff, false, 0⟩, ⟨8, 24, .rw, 0, false, 0⟩]⟩,
  ⟨"TSN_SGCTL", 0x4100, 0x4, 32, 0x0, 1, 4, [⟨0, 4, .rw, 0, false, 0⟩]⟩,
  ⟨"TSN_SID", 0x8000, 0x10, 512, 0x0, 1, 8, [⟨0, 48, .rw, 0, false, 0⟩, ⟨48, 12, .rw, 0, false, 0⟩, ⟨60, 1, .rw, 0, false, 0⟩, ⟨61, 1, .rw, 0, false, 0⟩, ⟨63, 1, .rw, 0, false, 0⟩]⟩,
  ⟨"TSN_SID_HI", 0x8008, 0x10, 512, 0x0, 1, 8, [⟨0, 22, .rw, 0, false, 0⟩, ⟨22, 8, .rw, 0, false, 0⟩, ⟨30, 1, .rw, 0, false, 0⟩, ⟨31, 8, .rw, 0, false, 0⟩, ⟨39, 1, .rw, 0, false, 0⟩, ⟨40, 8, .rw, 0, false, 0⟩, ⟨48, 1, .rw, 0, false, 0⟩]⟩,
  ⟨"TSN_SFLT", 0xa000, 0x10, 256, 0x0, 1, 8, [⟨0, 8, .rw, 0xff, false, 0⟩, ⟨8, 5, .rw, 0, false, 0⟩, ⟨13, 1, .rw, 0, false, 0⟩, ⟨14, 8, .rw, 0, false, 0⟩, ⟨22, 1, .rw, 0, false, 0⟩, ⟨23, 14, .rw, 0, false, 0⟩, ⟨37, 1, .rw, 0, false, 0⟩, ⟨38, 1, .rw, 0, false, 0⟩]⟩,
  ⟨"TSN_SFLT_HI", 0xa008, 0x10, 256, 0x0, 1, 8, []⟩,
  ⟨"TSN_FMTR", 0xb000, 0x10, 256, 0x0, 1, 8, [⟨0, 32, .rw, 0, false, 0⟩, ⟨32, 32, .rw, 0, false, 0⟩]⟩,
  ⟨"TSN_FMTR_HI", 0xb008, 0x10, 256, 0x0, 1, 8, [⟨0, 16, .rw, 0, false, 0⟩, ⟨16, 16, .rw, 0, false, 0⟩, ⟨32, 1, .rw, 0, false, 0⟩, ⟨33, 1, .rw, 0, false, 0⟩, ⟨34, 1, .rw, 0, false, 0⟩, ⟨35, 1, .rw, 0, false, 0⟩]⟩,
  ⟨"TSN_SGCL", 0xc000, 0x80, 32, 0x8, 16, 8, [⟨0, 1, .rw, 1, false, 0⟩, ⟨1, 3, .rw, 0, false, 0⟩, ⟨4, 1, .rw, 0, false, 0⟩, ⟨8, 24, .rw, 0, false, 0⟩]⟩,
  ⟨"TSN_FRGEN", 0xd000, 0x8, 256, 0x0, 1, 8, [⟨0, 16, .rw, 0, false, 0⟩]⟩,
  ⟨"TSN_FRREC", 0xe000, 0x10, 256, 0x0, 1, 8, [⟨0, 1, .rw, 0, false, 0⟩, ⟨1, 5, .rw, 2, false, 0⟩, ⟨6, 16, .rw, 1, false, 0⟩, ⟨22, 1, .rw, 0, false, 0⟩]⟩]

def regsTSN1 : List RegD := [
  ⟨"TSN_FRREC_HI", 0xe008, 0x10, 256, 0x0, 1, 8, [⟨0, 32, .ro, 0, false, 0⟩, ⟨32, 32, .ro, 0, false, 0⟩]⟩]

def regsTSN : List RegD := regsTSN0 ++ regsTSN1

def regsCAN : List RegD := [
  ⟨"CAN_CTL", 0x0, 0x0, 1, 0x0, 1, 4, [⟨0, 1, .wo, 0, true, 0⟩, ⟨1, 1, .wo, 0, true, 0⟩]⟩,
  ⟨"CAN_STAT", 0x4, 0x0, 1, 0x0, 1, 4, [⟨0, 2, .ro, 0, false, 0⟩, ⟨2, 2, .ro, 0, false, 0⟩, ⟨4, 8, .ro, 0, false, 0⟩, ⟨12, 8, .ro, 0, false, 0⟩, ⟨20, 8, .ro, 0, false, 0⟩]⟩,
  ⟨"CAN_CFG", 0x8, 0x0, 1, 0x0, 1, 4, [⟨0, 1, .rws, 0, false, 0⟩, ⟨1, 1, .rws, 0, false, 0⟩, ⟨2, 1, .rws, 1, false, 0⟩, ⟨3, 1, .rws, 0, false, 0⟩, ⟨4, 1, .rws, 0, false, 0⟩, ⟨5, 1, .rws, 1, false, 0⟩, ⟨6, 1, .rws, 0, false, 0⟩, ⟨8, 16, .rws, 0, false, 0⟩]⟩,
  ⟨"CAN_NTIM", 0xc, 0x0, 1, 0x0, 1, 4, [⟨0, 6, .rws, 1, false, 0⟩, ⟨6, 9, .rws, 0xff, false, 0⟩, ⟨15, 7, .rws, 0x40, false, 0⟩, ⟨22, 7, .rws, 0x40, false, 0⟩]⟩,
  ⟨"CAN_DTIM", 0x10, 0x0, 1, 0x0, 1, 4, [⟨0, 6, .rws, 1, false, 0⟩, ⟨6, 9, .rws, 0x3f, false, 0⟩, ⟨15, 7, .rws, 0x10, false, 0⟩, ⟨22, 7, .rws, 0x10, false, 0⟩]⟩,
  ⟨"CAN_XTIM", 0x14, 0x0, 1, 0x0, 1, 4, [⟨0, 8, .rws, 0, false, 0⟩, ⟨8, 6, .rws, 0, false, 0⟩, ⟨14, 6, .rws, 0, false, 0⟩, ⟨20, 6, .rws, 0, false, 0⟩]⟩,
  ⟨"CAN_IRQ", 0x18, 0x0, 1, 0x0, 1, 4, [⟨0, 1, .w1c, 0, false, 0⟩, ⟨1, 1, .w1c, 0, false, 0⟩, ⟨2, 1, .w1c, 0, false, 0⟩, ⟨3, 1, .w1c, 0, false, 0⟩]⟩,
  ⟨"CAN_IRQEN", 0x1c, 0x0, 1, 0x0, 1, 4, [⟨0, 4, .rw, 0, false, 0⟩]⟩,
  ⟨"CAN_CNT", 0x100, 0x8, 10, 0x0, 1, 8, [⟨0, 48, .ro, 0, false, 0⟩]⟩,
  ⟨"CAN_GW_CTL", 0x4000, 0x0, 1, 0x0, 1, 4, [⟨0, 1, .w1s, 0, false, 1⟩]⟩,
  ⟨"CAN_GW_SMAC", 0x4008, 0x0, 1, 0x0, 1, 8, [⟨0, 48, .rwl 0x4000 0, 0, false, 0⟩]⟩,
  ⟨"CAN_GW_CNT", 0x4100, 0x8, 7, 0x0, 1, 8, [⟨0, 48, .ro, 0, false, 0⟩]⟩,
  ⟨"CAN_GW_RULE", 0x8000, 0x10, 256, 0x0, 1, 8, [⟨0, 1, .rwl 0x4000 0, 0, false, 0⟩, ⟨1, 20, .rwl 0x4000 0, 0, false, 0⟩, ⟨21, 29, .rwl 0x4000 0, 0, false, 0⟩, ⟨50, 1, .rwl 0x4000 0, 0, false, 0⟩, ⟨51, 1, .rwl 0x4000 0, 0, false, 0⟩, ⟨52, 3, .rwl 0x4000 0, 0, false, 0⟩]⟩,
  ⟨"CAN_GW_RULE_HI", 0x8008, 0x10, 256, 0x0, 1, 8, [⟨0, 29, .rwl 0x4000 0, 0, false, 0⟩, ⟨29, 20, .rwl 0x4000 0, 0, false, 0⟩, ⟨49, 11, .rwl 0x4000 0, 0, false, 0⟩, ⟨60, 1, .rwl 0x4000 0, 0, false, 0⟩]⟩,
  ⟨"CAN_GW_ACT", 0x9000, 0x4, 256, 0x0, 1, 4, [⟨0, 1, .rwl 0x4000 0, 0, false, 0⟩, ⟨1, 9, .rwl 0x4000 0, 0, false, 0⟩, ⟨10, 3, .rwl 0x4000 0, 0, false, 0⟩, ⟨13, 1, .rwl 0x4000 0, 0, false, 0⟩, ⟨14, 5, .rwl 0x4000 0, 0, false, 0⟩, ⟨19, 6, .rwl 0x4000 0, 0, false, 0⟩]⟩,
  ⟨"CAN_GW_STRM", 0xa000, 0x10, 32, 0x0, 1, 8, [⟨0, 48, .rwl 0x4000 0, 0, false, 0⟩, ⟨48, 12, .rwl 0x4000 0, 0, false, 0⟩, ⟨60, 3, .rwl 0x4000 0, 0, false, 0⟩, ⟨63, 1, .rwl 0x4000 0, 0, false, 0⟩]⟩,
  ⟨"CAN_GW_STRM_HI", 0xa008, 0x10, 32, 0x0, 1, 8, [⟨0, 64, .rwl 0x4000 0, 0, false, 0⟩]⟩,
  ⟨"CAN_GW_UNPK", 0xa400, 0x10, 32, 0x0, 1, 8, [⟨0, 64, .rwl 0x4000 0, 0, false, 0⟩]⟩,
  ⟨"CAN_GW_UNPK_HI", 0xa408, 0x10, 32, 0x0, 1, 8, [⟨0, 1, .rwl 0x4000 0, 0, false, 0⟩, ⟨1, 12, .rwl 0x4000 0, 0, false, 0⟩, ⟨13, 8, .rwl 0x4000 0, 0, false, 0⟩]⟩]

def regsLIN : List RegD := [
  ⟨"LIN_CTL", 0x0, 0x0, 1, 0x0, 1, 4, [⟨0, 1, .wo, 0, true, 0⟩, ⟨1, 1, .wo, 0, true, 0⟩, ⟨2, 1, .wo, 0, true, 0⟩]⟩,
  ⟨"LIN_STAT", 0x4, 0x0, 1, 0x0, 1, 4, [⟨0, 2, .ro, 0, false, 0⟩, ⟨20, 8, .ro, 0, false, 0⟩, ⟨2, 1, .ro, 0, false, 0⟩]⟩,
  ⟨"LIN_CFG", 0x8, 0x0, 1, 0x0, 1, 4, [⟨0, 1, .rws, 0, false, 0⟩, ⟨1, 18, .rws, 0x208d, false, 0⟩, ⟨19, 6, .rws, 0, false, 0⟩]⟩,
  ⟨"LIN_IRQ", 0x18, 0x0, 1, 0x0, 1, 4, [⟨0, 1, .w1c, 0, false, 0⟩, ⟨1, 1, .w1c, 0, false, 0⟩, ⟨2, 1, .w1c, 0, false, 0⟩, ⟨3, 1, .w1c, 0, false, 0⟩]⟩,
  ⟨"LIN_IRQEN", 0x1c, 0x0, 1, 0x0, 1, 4, [⟨0, 4, .rw, 0, false, 0⟩]⟩,
  ⟨"LIN_CNT", 0x100, 0x8, 5, 0x0, 1, 8, [⟨0, 48, .ro, 0, false, 0⟩]⟩,
  ⟨"LIN_SCHED", 0x200, 0x4, 64, 0x0, 1, 4, [⟨0, 6, .rws, 0, false, 0⟩, ⟨6, 16, .rws, 0, false, 0⟩]⟩,
  ⟨"LIN_RESP", 0x400, 0x4, 64, 0x0, 1, 4, [⟨0, 4, .rws, 0, false, 0⟩, ⟨4, 1, .rws, 0, false, 0⟩, ⟨5, 1, .rws, 0, false, 0⟩, ⟨6, 1, .rws, 1, false, 0⟩]⟩]

def regsSEC : List RegD := [
  ⟨"SEC_CTL", 0x0, 0x0, 1, 0x0, 1, 4, [⟨0, 1, .wo, 0, true, 0⟩]⟩,
  ⟨"SEC_STAT", 0x4, 0x0, 1, 0x0, 1, 4, [⟨0, 2, .ro, 0, false, 0⟩, ⟨2, 1, .ro, 0, false, 0⟩, ⟨8, 8, .ro, 0, false, 2⟩]⟩,
  ⟨"SEC_RSTCNT", 0x8, 0x0, 1, 0x0, 1, 4, [⟨0, 32, .ro, 0, false, 0⟩]⟩,
  ⟨"SEC_MEAS", 0x100, 0x20, 16, 0x8, 4, 8, [⟨0, 64, .ro, 0, false, 0⟩]⟩,
  ⟨"SEC_ALIAS", 0x400, 0x8, 29, 0x0, 1, 8, [⟨0, 64, .ro, 0, false, 0⟩]⟩,
  ⟨"SEC_JOB_CMD", 0x1000, 0x100, 4, 0x0, 1, 4, [⟨0, 4, .wo, 0, true, 0⟩, ⟨4, 1, .wo, 0, true, 0⟩, ⟨5, 1, .wo, 0, true, 0⟩]⟩,
  ⟨"SEC_JOB_SRC", 0x1008, 0x100, 4, 0x0, 1, 8, [⟨0, 44, .rw, 0, false, 0⟩]⟩,
  ⟨"SEC_JOB_DST", 0x1010, 0x100, 4, 0x0, 1, 8, [⟨0, 44, .rw, 0, false, 0⟩]⟩,
  ⟨"SEC_JOB_LEN", 0x1018, 0x100, 4, 0x0, 1, 4, [⟨0, 24, .rw, 0, false, 0⟩]⟩,
  ⟨"SEC_JOB_STAT", 0x101c, 0x100, 4, 0x0, 1, 4, [⟨0, 2, .ro, 2, false, 0⟩, ⟨4, 4, .ro, 0, false, 0⟩]⟩,
  ⟨"SEC_JOB_KEY", 0x1020, 0x100, 4, 0x4, 12, 4, [⟨0, 32, .wo, 0, false, 0⟩]⟩,
  ⟨"SEC_JOB_RES", 0x1080, 0x100, 4, 0x8, 8, 8, [⟨0, 64, .ro, 0, false, 0⟩]⟩,
  ⟨"SEC_DBG_CHAL", 0x2000, 0x4, 4, 0x0, 1, 4, [⟨0, 32, .ro, 0, false, 0⟩]⟩,
  ⟨"SEC_DBG_CERT", 0x2100, 0x4, 48, 0x0, 1, 4, [⟨0, 32, .wo, 0, false, 0⟩]⟩,
  ⟨"SEC_DBG_CMD", 0x21c0, 0x0, 1, 0x0, 1, 4, [⟨0, 1, .wo, 0, true, 0⟩]⟩,
  ⟨"SEC_DBG_STAT", 0x21c4, 0x0, 1, 0x0, 1, 4, [⟨0, 2, .ro, 2, false, 0⟩, ⟨4, 4, .ro, 0, false, 0⟩]⟩,
  ⟨"SEC_DBG_CTL", 0x21c8, 0x0, 1, 0x0, 1, 4, [⟨0, 1, .wo, 0, true, 0⟩]⟩]

def regsSECCW : List RegD := [
  ⟨"SEC_CW_CTL", 0x0, 0x0, 1, 0x0, 1, 4, [⟨0, 1, .wo, 0, true, 0⟩, ⟨1, 1, .w1s, 0, true, 1⟩, ⟨2, 1, .w1s, 0, false, 1⟩, ⟨3, 1, .wo, 0, true, 0⟩, ⟨4, 1, .wo, 0, true, 0⟩]⟩,
  ⟨"SEC_CW_STAT", 0x4, 0x0, 1, 0x0, 1, 4, [⟨0, 1, .w1c, 0, false, 0⟩, ⟨1, 2, .ro, 0, false, 0⟩]⟩,
  ⟨"SEC_CW_WDT", 0x8, 0x0, 1, 0x0, 1, 4, [⟨0, 24, .rw, 0, false, 0⟩, ⟨24, 1, .w1s, 0, true, 0⟩, ⟨25, 1, .wo, 0, true, 0⟩]⟩,
  ⟨"SEC_CW_TVBM", 0x10, 0x0, 1, 0x0, 1, 8, [⟨12, 36, .rwl 0x0 2, 0, false, 0⟩]⟩,
  ⟨"SEC_CW_GDST", 0x18, 0x0, 1, 0x0, 1, 8, [⟨6, 38, .rwl 0x0 1, 0, false, 0⟩]⟩,
  ⟨"SEC_CW_GLEN", 0x1c, 0x0, 1, 0x0, 1, 4, [⟨0, 24, .rwl 0x0 1, 0, false, 0⟩]⟩,
  ⟨"SEC_CW_COCTL", 0x60, 0x0, 1, 0x0, 1, 4, [⟨0, 1, .w1s, 0, true, 1⟩, ⟨1, 1, .w1c, 0, false, 0⟩]⟩,
  ⟨"SEC_CW_MREXT", 0x80, 0x0, 1, 0x0, 1, 4, [⟨0, 4, .wo, 0, true, 0⟩]⟩,
  ⟨"SEC_CW_MRSTAT", 0x84, 0x0, 1, 0x0, 1, 4, [⟨0, 2, .ro, 2, false, 0⟩, ⟨2, 2, .ro, 0, false, 0⟩]⟩,
  ⟨"SEC_CW_KSCMD", 0x100, 0x0, 1, 0x0, 1, 4, [⟨0, 4, .wo, 0, true, 0⟩, ⟨4, 4, .wo, 0, true, 0⟩, ⟨8, 6, .wo, 0, true, 0⟩, ⟨14, 1, .wo, 0, true, 0⟩, ⟨15, 1, .wo, 0, true, 0⟩]⟩,
  ⟨"SEC_CW_KSSTAT", 0x104, 0x0, 1, 0x0, 1, 4, [⟨0, 2, .ro, 2, false, 0⟩, ⟨2, 2, .ro, 0, false, 0⟩]⟩,
  ⟨"SEC_CW_KSDST", 0x108, 0x0, 1, 0x0, 1, 8, [⟨6, 38, .rw, 0, false, 0⟩]⟩,
  ⟨"SEC_CW_DENY", 0x200, 0x0, 1, 0x0, 1, 8, [⟨0, 8, .ro, 0, false, 0⟩, ⟨8, 6, .ro, 0, false, 0⟩, ⟨14, 9, .ro, 0, false, 0⟩, ⟨23, 32, .ro, 0, false, 0⟩, ⟨55, 1, .ro, 0, false, 0⟩, ⟨62, 1, .w1c, 0, false, 2⟩, ⟨63, 1, .w1c, 0, false, 2⟩]⟩,
  ⟨"SEC_CW_GOLD", 0x20, 0x8, 4, 0x0, 1, 8, [⟨0, 64, .rwl 0x0 1, 0, false, 0⟩]⟩,
  ⟨"SEC_CW_CO", 0x40, 0x8, 4, 0x0, 1, 8, [⟨0, 1, .rwl 0x60 0, 0, false, 0⟩, ⟨1, 23, .rwl 0x60 0, 0, false, 0⟩, ⟨24, 20, .rwl 0x60 0, 0, false, 0⟩]⟩,
  ⟨"SEC_CW_KSDATA", 0x180, 0x8, 16, 0x0, 1, 8, [⟨0, 64, .rw, 0, false, 0⟩]⟩]

def regsSAFE : List RegD := [
  ⟨"SAFE_CTL", 0x0, 0x0, 1, 0x0, 1, 4, [⟨0, 1, .w1s, 0, true, 1⟩, ⟨1, 1, .wo, 0, true, 0⟩, ⟨8, 6, .wo, 0, true, 0⟩, ⟨16, 8, .ro, 0, false, 0⟩]⟩,
  ⟨"SAFE_STAT", 0x4, 0x0, 1, 0x0, 1, 4, [⟨0, 2, .ro, 0, false, 0⟩, ⟨2, 1, .ro, 0, false, 0⟩, ⟨3, 1, .ro, 0, false, 0⟩, ⟨4, 1, .ro, 0, false, 0⟩, ⟨5, 1, .ro, 0, false, 0⟩, ⟨6, 1, .w1c, 0, false, 2⟩, ⟨7, 1, .w1c, 0, false, 2⟩, ⟨8, 8, .ro, 0, false, 0⟩, ⟨16, 2, .ro, 0, false, 0⟩, ⟨18, 1, .ro, 0, false, 0⟩]⟩,
  ⟨"SAFE_CFG", 0x8, 0x0, 1, 0x0, 1, 4, [⟨0, 19, .rwl 0x0 0, 0xbb80, false, 0⟩, ⟨19, 8, .rwl 0x0 0, 0x9b, false, 0⟩]⟩,
  ⟨"SAFE_WDT", 0xc, 0x0, 1, 0x0, 1, 4, [⟨0, 16, .rw, 0, false, 0⟩, ⟨16, 7, .rw, 0, false, 0⟩, ⟨23, 1, .w1s, 0, true, 0⟩, ⟨24, 8, .wo, 0, true, 0⟩]⟩,
  ⟨"SAFE_FREC", 0x10, 0x0, 1, 0x0, 1, 8, [⟨0, 6, .ro, 0, false, 2⟩, ⟨14, 8, .ro, 0, false, 2⟩, ⟨22, 40, .ro, 0, false, 2⟩, ⟨62, 1, .w1c, 0, false, 2⟩, ⟨63, 1, .w1c, 0, false, 2⟩]⟩,
  ⟨"SAFE_TIME", 0x18, 0x0, 1, 0x0, 1, 8, [⟨0, 48, .ro, 0, false, 0⟩]⟩,
  ⟨"SAFE_SOUT", 0x20, 0x0, 1, 0x0, 1, 4, [⟨0, 4, .rw, 0, true, 0⟩, ⟨4, 4, .rwl 0x0 0, 0, false, 0⟩, ⟨8, 4, .rwl 0x0 0, 0, false, 0⟩, ⟨12, 4, .ro, 0, false, 0⟩]⟩,
  ⟨"SAFE_REJOIN", 0x24, 0x0, 1, 0x0, 1, 4, [⟨0, 1, .wo, 0, true, 0⟩, ⟨1, 2, .ro, 2, false, 0⟩, ⟨8, 8, .ro, 0, false, 0⟩]⟩,
  ⟨"SAFE_FMAP", 0x100, 0x4, 64, 0x0, 1, 4, [⟨0, 3, .rwl 0x0 0, 0, false, 0⟩, ⟨3, 3, .rwl 0x0 0, 0, false, 0⟩, ⟨6, 8, .rwl 0x0 0, 0, false, 0⟩, ⟨14, 8, .ro, 0, false, 0⟩, ⟨22, 1, .ro, 0, false, 0⟩, ⟨31, 1, .wo, 0, true, 0⟩]⟩,
  ⟨"SAFE_PAIR", 0x200, 0x4, 16, 0x0, 1, 4, [⟨0, 2, .wo, 0, true, 0⟩, ⟨2, 2, .wo, 0, true, 0⟩, ⟨4, 4, .ro, 0, false, 0⟩, ⟨8, 4, .ro, 0, false, 0⟩, ⟨12, 2, .ro, 2, false, 0⟩, ⟨16, 8, .ro, 0, false, 0⟩]⟩,
  ⟨"SAFE_TCLS", 0x1000, 0x4, 512, 0x0, 1, 4, [⟨0, 1, .rwl 0x0 0, 0, false, 0⟩, ⟨1, 2, .rwl 0x0 0, 2, false, 0⟩, ⟨3, 1, .rwl 0x0 0, 0, false, 0⟩]⟩]

def regsPWR : List RegD := [
  ⟨"PWR_RAIL", 0x0, 0x0, 1, 0x0, 1, 4, [⟨0, 5, .rw, 0xa, true, 0⟩, ⟨5, 5, .ro, 0xa, false, 0⟩, ⟨10, 1, .ro, 0, false, 0⟩, ⟨11, 1, .w1c, 0, false, 2⟩, ⟨12, 12, .rw, 0xfa, false, 0⟩]⟩,
  ⟨"PWR_DOM", 0x100, 0x4, 218, 0x0, 1, 4, [⟨0, 2, .wo, 0, true, 0⟩, ⟨2, 3, .ro, 0, false, 0⟩, ⟨8, 3, .ro, 0, false, 0⟩]⟩,
  ⟨"PWR_CORE", 0x800, 0x4, 128, 0x0, 1, 4, [⟨0, 1, .rw, 0, false, 0⟩, ⟨1, 1, .ro, 0, false, 0⟩, ⟨2, 6, .ro, 5, false, 0⟩, ⟨8, 16, .rw, 0x400, false, 0⟩]⟩,
  ⟨"PWR_CWHOLD", 0xc00, 0x4, 14, 0x0, 1, 4, [⟨0, 32, .rw, 0, false, 0⟩]⟩]

def regsCLK : List RegD := [
  ⟨"CLK_CORE", 0x0, 0x4, 128, 0x0, 1, 4, [⟨0, 7, .rw, 0x28, true, 0⟩, ⟨7, 7, .ro, 0x28, false, 0⟩, ⟨14, 1, .ro, 0, false, 0⟩, ⟨16, 3, .ro, 0, false, 0⟩]⟩,
  ⟨"CLK_ISL", 0x400, 0x4, 205, 0x0, 1, 4, [⟨0, 1, .rw, 0, true, 0⟩, ⟨1, 1, .ro, 0, false, 0⟩, ⟨2, 1, .w1c, 0, false, 2⟩, ⟨3, 3, .ro, 0, false, 0⟩]⟩]

def regsRST : List RegD := [
  ⟨"RST_CTL", 0x0, 0x0, 1, 0x0, 1, 4, [⟨0, 1, .wo, 0, true, 0⟩, ⟨8, 8, .wo, 0, true, 0⟩]⟩,
  ⟨"RST_CMD", 0x8, 0x0, 1, 0x0, 1, 4, [⟨0, 2, .wo, 0, true, 0⟩, ⟨2, 9, .wo, 0, true, 0⟩]⟩,
  ⟨"RST_CMDSTAT", 0xc, 0x0, 1, 0x0, 1, 4, [⟨0, 2, .ro, 2, false, 0⟩, ⟨2, 2, .ro, 0, false, 0⟩]⟩,
  ⟨"RST_REC", 0x100, 0x0, 1, 0x0, 1, 8, [⟨0, 4, .ro, 0, false, 2⟩, ⟨4, 6, .ro, 0, false, 2⟩, ⟨10, 1, .ro, 0, false, 2⟩, ⟨11, 2, .ro, 0, false, 2⟩, ⟨13, 7, .ro, 0, false, 2⟩, ⟨32, 16, .ro, 0, false, 2⟩, ⟨48, 8, .ro, 0, false, 2⟩]⟩,
  ⟨"RST_RECT", 0x108, 0x0, 1, 0x0, 1, 8, [⟨0, 48, .ro, 0, false, 0⟩]⟩,
  ⟨"RST_LOSTN", 0x150, 0x0, 1, 0x0, 1, 4, [⟨0, 16, .ro, 0, false, 2⟩, ⟨16, 1, .w1c, 0, false, 2⟩]⟩,
  ⟨"RST_LOST", 0x110, 0x8, 8, 0x0, 1, 8, [⟨0, 44, .ro, 0, false, 2⟩, ⟨44, 9, .ro, 0, false, 2⟩, ⟨53, 2, .ro, 0, false, 2⟩, ⟨63, 1, .w1c, 0, false, 2⟩]⟩]

def regsTRC : List RegD := [
  ⟨"TRC_CTL", 0x0, 0x0, 1, 0x0, 1, 4, [⟨0, 1, .rw, 0, true, 0⟩, ⟨1, 2, .rw, 0, false, 0⟩, ⟨3, 1, .rw, 0, false, 0⟩, ⟨4, 4, .rw, 4, false, 0⟩, ⟨8, 1, .wo, 0, true, 0⟩, ⟨12, 8, .rw, 0x10, false, 0⟩]⟩,
  ⟨"TRC_STAT", 0x4, 0x0, 1, 0x0, 1, 4, [⟨0, 1, .w1c, 0, false, 2⟩, ⟨1, 1, .w1c, 0, false, 2⟩, ⟨2, 1, .ro, 0, false, 0⟩, ⟨8, 8, .ro, 0, false, 0⟩]⟩,
  ⟨"TRC_MBASE", 0x8, 0x0, 1, 0x0, 1, 8, [⟨12, 32, .rw, 0, false, 0⟩]⟩,
  ⟨"TRC_MSIZE", 0x10, 0x0, 1, 0x0, 1, 4, [⟨0, 5, .rw, 0x10, false, 0⟩]⟩,
  ⟨"TRC_MWP", 0x18, 0x0, 1, 0x0, 1, 8, [⟨0, 30, .ro, 0, false, 0⟩, ⟨30, 1, .ro, 0, false, 0⟩]⟩,
  ⟨"TRC_LOST", 0x20, 0x0, 1, 0x0, 1, 8, [⟨0, 48, .ro, 0, false, 0⟩, ⟨63, 1, .wo, 0, true, 0⟩]⟩,
  ⟨"TRC_HCMD", 0x3000, 0x0, 1, 0x0, 1, 4, [⟨0, 2, .wo, 0, true, 0⟩, ⟨2, 4, .wo, 0, true, 0⟩, ⟨6, 8, .wo, 0, true, 0⟩]⟩,
  ⟨"TRC_HSTAT", 0x3004, 0x0, 1, 0x0, 1, 4, [⟨0, 2, .ro, 2, false, 0⟩, ⟨2, 1, .ro, 0, false, 0⟩]⟩,
  ⟨"TRC_SRC", 0x100, 0x4, 128, 0x0, 1, 4, [⟨0, 2, .rw, 0, false, 0⟩]⟩,
  ⟨"TRC_ENC", 0x1000, 0x40, 128, 0x0, 1, 4, [⟨0, 1, .rw, 0, true, 0⟩, ⟨1, 1, .rw, 1, false, 0⟩, ⟨2, 1, .rw, 0, false, 0⟩, ⟨3, 2, .rw, 0, false, 0⟩, ⟨5, 2, .rw, 0, false, 0⟩, ⟨7, 1, .rw, 0, false, 0⟩, ⟨28, 1, .rw, 0, false, 0⟩, ⟨8, 2, .ro, 0, false, 0⟩, ⟨10, 9, .rw, 0, false, 0⟩, ⟨19, 9, .rw, 0, false, 0⟩]⟩,
  ⟨"TRC_DCFG", 0x1004, 0x40, 128, 0x0, 1, 4, [⟨0, 2, .rw, 0, false, 0⟩, ⟨2, 1, .rw, 0, false, 0⟩, ⟨3, 8, .rw, 0, false, 0⟩, ⟨11, 1, .rw, 0, false, 0⟩, ⟨12, 1, .rw, 0, false, 0⟩, ⟨13, 1, .rw, 0, false, 0⟩, ⟨14, 1, .rw, 0, false, 0⟩, ⟨15, 1, .rw, 0, false, 0⟩]⟩,
  ⟨"TRC_RNG0LO", 0x1008, 0x40, 128, 0x0, 1, 8, [⟨2, 46, .rw, 0, false, 0⟩]⟩,
  ⟨"TRC_RNG0HI", 0x1010, 0x40, 128, 0x0, 1, 8, [⟨2, 46, .rw, 0, false, 0⟩]⟩,
  ⟨"TRC_RNG1LO", 0x1018, 0x40, 128, 0x0, 1, 8, [⟨2, 46, .rw, 0, false, 0⟩]⟩,
  ⟨"TRC_RNG1HI", 0x1020, 0x40, 128, 0x0, 1, 8, [⟨2, 46, .rw, 0, false, 0⟩]⟩,
  ⟨"TRC_BP0", 0x1028, 0x40, 128, 0x0, 1, 8, [⟨2, 46, .rw, 0, false, 0⟩]⟩,
  ⟨"TRC_BP1", 0x1030, 0x40, 128, 0x0, 1, 8, [⟨2, 46, .rw, 0, false, 0⟩]⟩,
  ⟨"TRC_WP", 0x1038, 0x40, 128, 0x0, 1, 8, [⟨3, 45, .rw, 0, false, 0⟩]⟩]

def regsPMU : List RegD := [
  ⟨"PMU_MODE", 0x0, 0x0, 1, 0x0, 1, 4, [⟨0, 2, .ro, 0, false, 0⟩, ⟨2, 2, .wo, 0, true, 0⟩, ⟨4, 1, .w1c, 0, false, 2⟩]⟩,
  ⟨"PMU_SNAP", 0x4, 0x0, 1, 0x0, 1, 4, [⟨0, 3, .wo, 0, true, 0⟩, ⟨3, 1, .ro, 0, false, 0⟩, ⟨4, 1, .w1c, 0, false, 2⟩, ⟨5, 1, .ro, 0, false, 0⟩]⟩,
  ⟨"PMU_SNAPAT", 0x8, 0x0, 1, 0x0, 1, 8, [⟨0, 48, .rw, 0, false, 0⟩]⟩,
  ⟨"PMU_SNAPT", 0x10, 0x0, 1, 0x0, 1, 8, [⟨0, 48, .ro, 0, false, 0⟩, ⟨48, 16, .ro, 0, false, 0⟩]⟩,
  ⟨"PMU_RD", 0x18, 0x0, 1, 0x0, 1, 4, [⟨0, 8, .rw, 0, true, 0⟩, ⟨8, 5, .rw, 0, true, 0⟩, ⟨14, 2, .ro, 2, false, 0⟩, ⟨16, 1, .ro, 0, false, 0⟩, ⟨20, 12, .ro, 0, false, 0⟩]⟩,
  ⟨"PMU_VAL", 0x100, 0x8, 64, 0x0, 1, 8, [⟨0, 48, .ro, 0, false, 0⟩, ⟨48, 1, .ro, 0, false, 0⟩, ⟨49, 1, .ro, 0, false, 0⟩]⟩,
  ⟨"PMU_CTHR", 0x400, 0x4, 128, 0x0, 1, 4, [⟨0, 8, .rw, 0, false, 0⟩, ⟨8, 8, .rw, 0, false, 0⟩, ⟨16, 8, .rw, 0, false, 0⟩, ⟨24, 8, .rw, 0, false, 0⟩]⟩,
  ⟨"PMU_RTHR", 0x600, 0x4, 30, 0x0, 1, 4, [⟨0, 9, .rw, 0, false, 0⟩]⟩,
  ⟨"PMU_MTHR", 0x680, 0x4, 8, 0x0, 1, 4, [⟨0, 8, .rw, 0, false, 0⟩, ⟨8, 8, .rw, 0, false, 0⟩, ⟨16, 8, .rw, 0, false, 0⟩]⟩,
  ⟨"PMU_BWSEL", 0x800, 0x20, 16, 0x0, 1, 8, [⟨0, 2, .rw, 0, false, 0⟩, ⟨2, 6, .rw, 0, false, 0⟩, ⟨8, 3, .rw, 0, false, 0⟩, ⟨11, 2, .rw, 0, false, 0⟩, ⟨13, 2, .rw, 0, false, 0⟩, ⟨16, 32, .rw, 0x9c4, false, 0⟩]⟩,
  ⟨"PMU_BWLAST", 0x808, 0x20, 16, 0x0, 1, 8, [⟨0, 48, .ro, 0, false, 0⟩, ⟨48, 16, .ro, 0, false, 0⟩]⟩,
  ⟨"PMU_BWMAX", 0x810, 0x20, 16, 0x0, 1, 8, [⟨0, 48, .ro, 0, false, 0⟩, ⟨63, 1, .wo, 0, true, 0⟩]⟩,
  ⟨"PMU_SMP", 0x1000, 0x20, 128, 0x0, 1, 8, [⟨0, 6, .rw, 0, false, 0⟩, ⟨6, 1, .rw, 0, false, 0⟩, ⟨8, 40, .rw, 0, false, 0⟩]⟩,
  ⟨"PMU_SREC0", 0x1008, 0x20, 128, 0x0, 1, 8, [⟨0, 48, .ro, 0, false, 0⟩, ⟨48, 3, .ro, 0, false, 0⟩, ⟨51, 2, .ro, 0, false, 0⟩, ⟨53, 1, .ro, 0, false, 0⟩, ⟨62, 1, .w1c, 0, false, 2⟩, ⟨63, 1, .w1c, 0, false, 0⟩]⟩,
  ⟨"PMU_SREC1", 0x1010, 0x20, 128, 0x0, 1, 8, [⟨0, 32, .ro, 0, false, 0⟩, ⟨32, 32, .ro, 0, false, 0⟩]⟩]

/-- The blocks: offset of instance 0, how many, and their registers (R45). -/
def blocks : List BlockD := [
  ⟨.sched, 0x0, 16, regsSCHED⟩,
  ⟨.icu, 0x1000000, 2, regsICU⟩,
  ⟨.mmu, 0x2000000, 128, regsMMU⟩,
  ⟨.cache, 0x3000000, 32, regsCACHE⟩,
  ⟨.noc, 0x4000000, 30, regsNOC⟩,
  ⟨.dmc, 0x5000000, 8, regsDMC⟩,
  ⟨.meqt, 0x6000000, 512, regsMEQT⟩,
  ⟨.meqp, 0x8000000, 2, regsMEQP⟩,
  ⟨.eth, 0xa000000, 40, regsETH⟩,
  ⟨.tsn, 0xb000000, 40, regsTSN⟩,
  ⟨.can, 0xc000000, 24, regsCAN⟩,
  ⟨.lin, 0xd000000, 16, regsLIN⟩,
  ⟨.pcie, 0xe000000, 2, regsPCIE⟩,
  ⟨.pwr, 0xf000000, 1, regsPWR⟩,
  ⟨.clk, 0x10000000, 1, regsCLK⟩,
  ⟨.rst, 0x11000000, 1, regsRST⟩,
  ⟨.sec, 0x12000000, 1, regsSEC⟩,
  ⟨.safe, 0x13000000, 2, regsSAFE⟩,
  ⟨.trc, 0x14000000, 1, regsTRC⟩,
  ⟨.pmu, 0x15000000, 1, regsPMU⟩,
  ⟨.seccw, 0x8000000000, 1, regsSECCW⟩]

end Sys2Proof.Machine
end

