-- ==== Sys2Proof/Syntax.lean ====
section
/-! DEFINITION. The commands of the block: one constructor of `Instr` per row of the spec's table of operations and
events, with the operands the row takes. -/

namespace Sys2Proof

/-- The instructions of the opcode maps (R60). -/
inductive Op where
  | nop
  | add
  | sub
  | addc
  | subc
  | and
  | or
  | xor
  | andn
  | orn
  | shl
  | shr
  | sar
  | rol
  | cmpeq
  | cmpne
  | cmplt
  | cmpltu
  | cmple
  | cmpleu
  | min
  | max
  | minu
  | maxu
  | clz
  | ctz
  | popc
  | bswap
  | sext
  | zext
  | addi
  | andi
  | ori
  | xori
  | shli
  | shri
  | sari
  | roli
  | cmpeqi
  | cmpnei
  | cmplti
  | cmpltui
  | movi
  | movhi
  | addpc
  | mfsr
  | mtsr
  | mul
  | mac
  | mulw
  | mulwu
  | div
  | divu
  | decadd
  | decsub
  | movm
  | movtm
  | fadd
  | fsub
  | fmul
  | fdiv
  | fsqrt
  | fma
  | fms
  | fnma
  | fmin
  | fmax
  | fabs
  | fneg
  | fsgnj
  | fclass
  | fcmpeq
  | fcmplt
  | fcmple
  | fcmpun
  | fcvt
  | fcvti
  | fcvtiu
  | fcvtf
  | fcvtfu
  | ldb
  | ldbu
  | ldh
  | ldhu
  | ldw
  | ldwu
  | ldd
  | ldres
  | ldm
  | restl
  | resth
  | pref
  | wfill
  | rsfill
  | ldx
  | stb
  | sth
  | stw
  | std
  | stx
  | stcond
  | stm
  | savel
  | saveh
  | wspill
  | rsspill
  | barl
  | bars
  | bara
  | barx
  | dclean
  | dinval
  | iclean
  | br
  | call
  | callw
  | jmp
  | callr
  | callwr
  | beqz
  | bnez
  | bltz
  | bgez
  | bgtz
  | blez
  | bbs
  | bbc
  | ret
  | retw
  | rett
  | rspush
  | rspop
  | trap
  | hcall
  | mcall
  | waitev
  | isync
  | pflush
  | pbar
deriving DecidableEq, Repr

/-- The operands of one decoded syllable, and where it issues (R48, R56, R57): the core, the bank, whether it sits
in the I1 slot, the fields [21:16], [15:10], [9:4] and [3:0] of its format, whether an extension follows, and its
immediate or displacement as R57 and R58 extend it, in the immediate's own unit. -/
structure Syl where
  core : Nat
  bank : Nat
  i1 : Bool := false
  d : BitVec 6 := 0
  a : BitVec 6 := 0
  b : BitVec 6 := 0
  fn : BitVec 4 := 0
  ext : Bool := false
  imm : Word := 0
deriving DecidableEq, Repr

/-- Who makes a register access: the router it comes from, its world, level and tenant, and whether it is the
debug port (R43, R47, R538). -/
structure Agent where
  router : Nat := 0
  closed : Bool := false
  pl : BitVec 2 := 2
  tenant : Nat := 0
  debug : Bool := false
deriving DecidableEq, Repr

/-- What an answer to a memory request carries. -/
inductive MemAns where
  | data (v : Nat) | decodeError | poison | fenced | timeout
deriving DecidableEq, Repr

/-- One packet of the mesh: its network, the fields of its head (R274 to R278) and its data. A unit is numbered
4 × router + local port. One record stands for a head with the body or data flit that follows it; `excl`: a fill grants
the line alone (log 22); `fromDram`: its data was read from DRAM for this request (the model's own mark, for R545). -/
structure Pkt where
  net : Nat
  typ : Nat
  src : Nat := 0
  dst : Nat := 0
  clsA : Bool := true
  esc : Bool := false
  more : Bool := false
  closed : Bool := false
  tag : Nat := 0
  tenant : Nat := 0
  size : Nat := 0
  mt : Nat := 2
  victim : Bool := false
  pa : Nat := 0
  data : Line := 0
  mask : BitVec 64 := 0
  poison : Bool := false
  excl : Bool := false
  fromDram : Bool := false
deriving DecidableEq, Repr


/-- What a transaction-layer packet is: a memory request; a request that the controllers do not support, such as an I/O or AtomicOp
request; a power-management or error message (R229). -/
inductive TlpKind where
  | memory | unsupported | message
deriving DecidableEq, Repr

/-- A transaction-layer packet of a PCIe link: a write with its bytes or a read, its address and length, its
relaxed-ordering attribute and its tag; whether it is poisoned, and whether its ECRC is bad (R229, R232 to R235). -/
structure Tlp where
  write : Bool
  addr : Nat
  len : Nat
  ro : Bool := false
  tag : Nat := 0
  data : List Byte := []
  kind : TlpKind := .memory
  poisoned : Bool := false
  badEcrc : Bool := false
deriving DecidableEq, Repr


/-- The registers of an endpoint's configuration header and capabilities that a host reads and writes (R236): `power` is the power state
of the power-management capability, `other` any that the spec leaves to the PCI Express specification, by its offset. -/
inductive CfgReg where
  | id | command | classCode | headerType | power | barLo (i : Nat) | barHi (i : Nat) | msiControl | msiAddrLo | msiAddrHi | msiData | other (off : Nat)
deriving DecidableEq, Repr


/-- A bus frame (R418, R429): format 0 classical, 1 FD, 2 XL, 3 LIN; its identifier (a LIN id for LIN), its bits, its data
and the fields of an XL frame. -/
structure CanFrame where
  fmt : Nat
  id : Nat
  ide : Bool := false
  rtr : Bool := false
  brs : Bool := false
  esi : Bool := false
  data : List Byte := []
  sdt : Nat := 0
  vcid : Nat := 0
  sec : Bool := false
  af : Nat := 0
deriving DecidableEq, Repr

/-- The commands of the block, in the table's order. -/
inductive Instr where
  /-- REGISTER_WRITE (R10). A write to a configuration register that has no row of its own updates its fields according to their types. -/
  | registerWrite (ag : Agent) (addr size : Nat) (v : Word)
  /-- BUNDLE_ISSUE (R135). A bundle issues on the first core edge on which no hold applies to it. -/
  | bundleIssue (core : Nat) (bank : Nat)
  /-- NOP (R83). NOP does nothing. -/
  | nop (x : Syl)
  /-- ADD (R83). ADD writes ra + rb and the unit's carry and overflow flags. -/
  | add (x : Syl)
  /-- SUB (R83). SUB writes ra − rb and the unit's flags. -/
  | sub (x : Syl)
  /-- ADDC (R84). ADDC adds with the unit's carry flag and writes the flags. -/
  | addc (x : Syl)
  /-- SUBC (R84). SUBC subtracts with borrow and writes the flags. -/
  | subc (x : Syl)
  /-- AND (R83). AND writes the bitwise AND of ra and rb. -/
  | and (x : Syl)
  /-- OR (R83). OR writes the bitwise OR of ra and rb. -/
  | or (x : Syl)
  /-- XOR (R83). XOR writes the bitwise exclusive-or of ra and rb. -/
  | xor (x : Syl)
  /-- ANDN (R83). ANDN writes ra AND NOT rb. -/
  | andn (x : Syl)
  /-- ORN (R83). ORN writes ra OR NOT rb. -/
  | orn (x : Syl)
  /-- SHL (R83). SHL shifts ra left by rb[5:0]. -/
  | shl (x : Syl)
  /-- SHR (R83). SHR shifts ra right with zeros in. -/
  | shr (x : Syl)
  /-- SAR (R83). SAR shifts ra right with copies of bit 63. -/
  | sar (x : Syl)
  /-- ROL (R83). ROL rotates ra left. -/
  | rol (x : Syl)
  /-- CMPEQ (R83). CMPEQ writes 1 if ra equals rb, else 0. -/
  | cmpeq (x : Syl)
  /-- CMPNE (R83). CMPNE writes 1 if ra differs from rb, else 0. -/
  | cmpne (x : Syl)
  /-- CMPLT (R83). CMPLT writes 1 if ra < rb signed. -/
  | cmplt (x : Syl)
  /-- CMPLTU (R83). CMPLTU writes 1 if ra < rb unsigned. -/
  | cmpltu (x : Syl)
  /-- CMPLE (R83). CMPLE writes 1 if ra ≤ rb signed. -/
  | cmple (x : Syl)
  /-- CMPLEU (R83). CMPLEU writes 1 if ra ≤ rb unsigned. -/
  | cmpleu (x : Syl)
  /-- MIN (R83). MIN writes the signed minimum. -/
  | min (x : Syl)
  /-- MAX (R83). MAX writes the signed maximum. -/
  | max (x : Syl)
  /-- MINU (R83). MINU writes the unsigned minimum. -/
  | minu (x : Syl)
  /-- MAXU (R83). MAXU writes the unsigned maximum. -/
  | maxu (x : Syl)
  /-- CLZ (R83). CLZ writes the count of leading zero bits of ra. -/
  | clz (x : Syl)
  /-- CTZ (R83). CTZ writes the count of trailing zero bits of ra. -/
  | ctz (x : Syl)
  /-- POPC (R83). POPC writes the number of 1 bits of ra. -/
  | popc (x : Syl)
  /-- BSWAP (R83). BSWAP reverses the eight bytes of ra. -/
  | bswap (x : Syl)
  /-- SEXT (R83). SEXT sign-extends ra from the width in fn. -/
  | sext (x : Syl)
  /-- ZEXT (R83). ZEXT zero-extends ra from the width in fn. -/
  | zext (x : Syl)
  /-- ADDI (R83). ADDI adds an immediate and writes the flags. -/
  | addi (x : Syl)
  /-- ANDI (R83). ANDI ANDs a zero-extended immediate. -/
  | andi (x : Syl)
  /-- ORI (R83). ORI ORs a zero-extended immediate. -/
  | ori (x : Syl)
  /-- XORI (R83). XORI exclusive-ors a zero-extended immediate. -/
  | xori (x : Syl)
  /-- SHLI (R83). SHLI shifts left by an immediate amount. -/
  | shli (x : Syl)
  /-- SHRI (R83). SHRI shifts right logically by an immediate amount. -/
  | shri (x : Syl)
  /-- SARI (R83). SARI shifts right arithmetically by an immediate amount. -/
  | sari (x : Syl)
  /-- ROLI (R83). ROLI rotates left by an immediate amount. -/
  | roli (x : Syl)
  /-- CMPEQI (R83). CMPEQI compares ra with an immediate for equality. -/
  | cmpeqi (x : Syl)
  /-- CMPNEI (R83). CMPNEI compares ra with an immediate for inequality. -/
  | cmpnei (x : Syl)
  /-- CMPLTI (R83). CMPLTI compares ra with an immediate, signed less-than. -/
  | cmplti (x : Syl)
  /-- CMPLTUI (R83). CMPLTUI compares ra with the sign-extended immediate taken as unsigned. -/
  | cmpltui (x : Syl)
  /-- MOVI (R83). MOVI writes the sign-extended immediate. -/
  | movi (x : Syl)
  /-- MOVHI (R57). MOVHI sets the high bits of rd from the immediate and keeps the rest. -/
  | movhi (x : Syl)
  /-- ADDPC (R83). ADDPC writes the bundle address plus the immediate. -/
  | addpc (x : Syl)
  /-- MFSR (R70). MFSR reads a special register into a general register. -/
  | mfsr (x : Syl)
  /-- MTSR (R70). MTSR writes a special register, effective from the next bundle. -/
  | mtsr (x : Syl)
  /-- MUL (R89). MUL issues a 64-bit product into a product register with latency 3. -/
  | mul (x : Syl)
  /-- MAC (R90). MAC issues an accumulate of the product into a product register. -/
  | mac (x : Syl)
  /-- MULW (R89). MULW issues a signed 128-bit product into a product-register pair. -/
  | mulw (x : Syl)
  /-- MULWU (R89). MULWU issues an unsigned 128-bit product into a product-register pair. -/
  | mulwu (x : Syl)
  /-- DIV (R91). DIV starts a signed divide as a long operation and sets DVS.busy. -/
  | div (x : Syl)
  /-- DIVU (R91). DIVU starts an unsigned divide as a long operation. -/
  | divu (x : Syl)
  /-- DECADD (R95). DECADD starts a packed-decimal addition as a long operation. -/
  | decadd (x : Syl)
  /-- DECSUB (R95). DECSUB starts a packed-decimal subtraction as a long operation. -/
  | decsub (x : Syl)
  /-- MOVM (R75). MOVM copies an M-unit register to a general register. -/
  | movm (x : Syl)
  /-- MOVTM (R75). MOVTM copies a general register into an M-unit register. -/
  | movtm (x : Syl)
  /-- M_RESULT_WRITE (R76). A multiply or MOVTM result lands in its M-unit register at the end of its latency. -/
  | mResultWrite (core : Nat) (bank : Nat)
  /-- DIVIDE_COMPLETE (R94). A divide ends its data-dependent latency and writes QT, RM and DVS. -/
  | divideComplete (core : Nat) (bank : Nat)
  /-- DECIMAL_COMPLETE (R97). A decimal operation ends its latency and writes rd and DVS. -/
  | decimalComplete (core : Nat) (bank : Nat)
  /-- FADD (R115). FADD issues a floating-point addition. -/
  | fadd (x : Syl)
  /-- FSUB (R115). FSUB issues a floating-point subtraction. -/
  | fsub (x : Syl)
  /-- FMUL (R115). FMUL issues a floating-point multiplication. -/
  | fmul (x : Syl)
  /-- FDIV (R120). FDIV starts a floating-point division as a long operation. -/
  | fdiv (x : Syl)
  /-- FSQRT (R120). FSQRT starts a floating-point square root as a long operation. -/
  | fsqrt (x : Syl)
  /-- FMA (R115). FMA issues a fused multiply-add with rd as addend. -/
  | fma (x : Syl)
  /-- FMS (R115). FMS issues a fused multiply-subtract. -/
  | fms (x : Syl)
  /-- FNMA (R115). FNMA issues a negated fused multiply-add. -/
  | fnma (x : Syl)
  /-- FMIN (R117). FMIN issues a minimumNumber operation. -/
  | fmin (x : Syl)
  /-- FMAX (R117). FMAX issues a maximumNumber operation. -/
  | fmax (x : Syl)
  /-- FABS (R115). FABS clears the sign bit. -/
  | fabs (x : Syl)
  /-- FNEG (R115). FNEG inverts the sign bit. -/
  | fneg (x : Syl)
  /-- FSGNJ (R115). FSGNJ gives ra's magnitude with rb's sign. -/
  | fsgnj (x : Syl)
  /-- FCLASS (R116). FCLASS writes the one-hot class mask of ra. -/
  | fclass (x : Syl)
  /-- FCMPEQ (R117). FCMPEQ performs a quiet equality comparison. -/
  | fcmpeq (x : Syl)
  /-- FCMPLT (R117). FCMPLT performs a signalling less-than comparison. -/
  | fcmplt (x : Syl)
  /-- FCMPLE (R117). FCMPLE performs a signalling less-or-equal comparison. -/
  | fcmple (x : Syl)
  /-- FCMPUN (R117). FCMPUN tests whether either operand is a NaN. -/
  | fcmpun (x : Syl)
  /-- FCVT (R128). FCVT converts between floating-point formats. -/
  | fcvt (x : Syl)
  /-- FCVTI (R129). FCVTI converts to a signed 64-bit integer. -/
  | fcvti (x : Syl)
  /-- FCVTIU (R129). FCVTIU converts to an unsigned 64-bit integer. -/
  | fcvtiu (x : Syl)
  /-- FCVTF (R115). FCVTF converts a signed integer to floating point. -/
  | fcvtf (x : Syl)
  /-- FCVTFU (R115). FCVTFU converts an unsigned integer to floating point. -/
  | fcvtfu (x : Syl)
  /-- F_RESULT_WRITE (R119). A fixed-latency F result lands in its register and its flags are ORed into FPC. -/
  | fResultWrite (core : Nat) (bank : Nat)
  /-- F_LONG_OPERATION_COMPLETE (R120). An FDIV or FSQRT ends its latency and writes its result and flags. -/
  | fLongOperationComplete (core : Nat) (bank : Nat)
  /-- LDB (R86). LDB loads a sign-extended byte. -/
  | ldb (x : Syl)
  /-- LDBU (R86). LDBU loads a zero-extended byte. -/
  | ldbu (x : Syl)
  /-- LDH (R86). LDH loads a sign-extended halfword. -/
  | ldh (x : Syl)
  /-- LDHU (R86). LDHU loads a zero-extended halfword. -/
  | ldhu (x : Syl)
  /-- LDW (R86). LDW loads a sign-extended word. -/
  | ldw (x : Syl)
  /-- LDWU (R86). LDWU loads a zero-extended word. -/
  | ldwu (x : Syl)
  /-- LDD (R86). LDD loads a doubleword. -/
  | ldd (x : Syl)
  /-- LDX (R86). LDX loads with register-indexed addressing. -/
  | ldx (x : Syl)
  /-- LDRES (R103). LDRES loads a doubleword and sets the reservation on its granule. -/
  | ldres (x : Syl)
  /-- LDM (R179). LDM loads the registers of a mask, one access per edge, restartably. -/
  | ldm (x : Syl)
  /-- RESTL (R176). RESTL restores the lower half-context from a folio. -/
  | restl (x : Syl)
  /-- RESTH (R176). RESTH restores the upper half-context from a folio. -/
  | resth (x : Syl)
  /-- PREF (R88). PREF requests a line into the level its hint selects. -/
  | pref (x : Syl)
  /-- WFILL (R67). WFILL loads a window frame below the oldest resident position. -/
  | wfill (x : Syl)
  /-- RSFILL (R80). RSFILL loads 8 return-stack entries beneath the existing ones. -/
  | rsfill (x : Syl)
  /-- STB (R86). STB stores a byte. -/
  | stb (x : Syl)
  /-- STH (R86). STH stores a halfword. -/
  | sth (x : Syl)
  /-- STW (R86). STW stores a word. -/
  | stw (x : Syl)
  /-- STD (R86). STD stores a doubleword. -/
  | std (x : Syl)
  /-- STX (R86). STX stores with register-indexed addressing. -/
  | stx (x : Syl)
  /-- STCOND (R104). STCOND stores if the reservation is valid, writes the outcome and clears the reservation. -/
  | stcond (x : Syl)
  /-- STM (R179). STM stores the registers of a mask, one access per edge, restartably. -/
  | stm (x : Syl)
  /-- SAVEL (R176). SAVEL saves the lower half-context into a folio. -/
  | savel (x : Syl)
  /-- SAVEH (R176). SAVEH saves the upper half-context into a folio. -/
  | saveh (x : Syl)
  /-- WSPILL (R67). WSPILL stores the oldest resident window and decrements wres. -/
  | wspill (x : Syl)
  /-- RSSPILL (R80). RSSPILL stores the 8 oldest return-stack entries and decrements rsd by 8. -/
  | rsspill (x : Syl)
  /-- BARL (R108). BARL holds later accesses until earlier loads return. -/
  | barl (x : Syl)
  /-- BARS (R108). BARS holds later stores until earlier stores and maintenance are performed. -/
  | bars (x : Syl)
  /-- BARA (R108). BARA holds later accesses until all earlier accesses complete. -/
  | bara (x : Syl)
  /-- BARX (R101). BARX holds issue until every earlier long operation has ended. -/
  | barx (x : Syl)
  /-- DCLEAN (R264). DCLEAN writes back a dirty line chip-wide and keeps it valid. -/
  | dclean (x : Syl)
  /-- DINVAL (R264). DINVAL removes a line from every data cache and discards dirty data. -/
  | dinval (x : Syl)
  /-- ICLEAN (R264). ICLEAN removes a line from the L1I of every core of the cluster. -/
  | iclean (x : Syl)
  /-- BR (R139). BR branches unconditionally to a PC-relative target. -/
  | br (x : Syl)
  /-- CALL (R78). CALL pushes the return address and branches. -/
  | call (x : Syl)
  /-- CALLW (R63). CALLW pushes the return address, turns the window forward and branches. -/
  | callw (x : Syl)
  /-- JMP (R55). JMP branches to the address in ra. -/
  | jmp (x : Syl)
  /-- CALLR (R78). CALLR pushes the return address and branches to ra. -/
  | callr (x : Syl)
  /-- CALLWR (R63). CALLWR calls through ra with a window turn. -/
  | callwr (x : Syl)
  /-- BEQZ (R139). BEQZ branches if ra is zero. -/
  | beqz (x : Syl)
  /-- BNEZ (R139). BNEZ branches if ra is non-zero. -/
  | bnez (x : Syl)
  /-- BLTZ (R139). BLTZ branches if ra is negative. -/
  | bltz (x : Syl)
  /-- BGEZ (R139). BGEZ branches if ra is non-negative. -/
  | bgez (x : Syl)
  /-- BGTZ (R139). BGTZ branches if ra is positive. -/
  | bgtz (x : Syl)
  /-- BLEZ (R139). BLEZ branches if ra is zero or negative. -/
  | blez (x : Syl)
  /-- BBS (R139). BBS branches if the named bit of ra is set. -/
  | bbs (x : Syl)
  /-- BBC (R139). BBC branches if the named bit of ra is clear. -/
  | bbc (x : Syl)
  /-- RET (R78). RET pops the return stack and branches there. -/
  | ret (x : Syl)
  /-- RETW (R63). RETW pops the return stack, turns the window back and branches. -/
  | retw (x : Syl)
  /-- RETT (R68). RETT reloads PSW, PC and g1–g6 from the stacking record and decrements the entry depth. -/
  | rett (x : Syl)
  /-- RSPUSH (R78). RSPUSH pushes ra onto the return stack. -/
  | rspush (x : Syl)
  /-- RSPOP (R78). RSPOP pops the return stack into rd. -/
  | rspop (x : Syl)
  /-- TRAP (R142). TRAP raises cause 15 with its immediate. -/
  | trap (x : Syl)
  /-- HCALL (R142). HCALL raises cause 16 to the partition manager. -/
  | hcall (x : Syl)
  /-- MCALL (R441). MCALL enters the Closed-world monitor, or returns BUSY while cw_busy is set. -/
  | mcall (x : Syl)
  /-- WAITEV (R164). WAITEV yields, consumes pending events, waits, or ends the thread, as its mask selects. -/
  | waitev (x : Syl)
  /-- ISYNC (R112). ISYNC discards later fetched bundles and refetches once earlier stores are performed. -/
  | isync (x : Syl)
  /-- PFLUSH (R113). PFLUSH invalidates the context's branch-predictor entries. -/
  | pflush (x : Syl)
  /-- PBAR (R113). PBAR stops direction and target prediction until the next taken branch retires. -/
  | pbar (x : Syl)
  /-- LOAD_DATA_RETURN (R87). A load's data becomes usable in the core and the destination is released. -/
  | loadDataReturn (core : Nat) (bank : Nat) (seq : Nat) (ans : MemAns)
  /-- STORE_PERFORM (R214). A buffered store is written into a line held with write permission and is performed. -/
  | storePerform (core : Nat) (bank : Nat) (seq : Nat)
  /-- STORE_ACKNOWLEDGE (R214). The acknowledgement of a non-cacheable or device store reaches the core and the store is performed. -/
  | storeAcknowledge (core : Nat) (bank : Nat) (seq : Nat) (ans : MemAns)
  /-- DEVICE_ACCESS_SEND (R217). A device access is sent once the previous device access of the context is performed. -/
  | deviceAccessSend (core : Nat) (bank : Nat)
  /-- DEVICE_ACCESS_TIMEOUT (R223). A device access unanswered within MMU_DTO.dto is declared lost. -/
  | deviceAccessTimeout (core : Nat) (bank : Nat) (seq : Nat)
  /-- BARRIER_RELEASE (R109). A barrier's condition becomes met and held bundles may issue. -/
  | barrierRelease (core : Nat) (bank : Nat)
  /-- SNOOP_DEFERRAL_END (R107). The deferral of a snoop for a constrained sequence ends and the snoop is answered. -/
  | snoopDeferralEnd (cluster : Nat) (p : Pkt)
  /-- EXCEPTION_ENTRY (R148). An exception or trap is accepted in place of a bundle and the entry sequence starts. -/
  | exceptionEntry (core : Nat) (bank : Nat) (cause : Nat) (g2 : Word) (g3 : Word) (g4 : Word)
  /-- NORMAL_INTERRUPT_ACCEPT (R147). A presented normal-class level is accepted by the issuing bank and the entry sequence starts. -/
  | normalInterruptAccept (core : Nat) (bank : Nat)
  /-- ENTRY_CAPTURE (R147). Once pending writes into g1–g6 land, PSW, PC and g1–g6 are captured and stacked. -/
  | entryCapture (core : Nat) (bank : Nat)
  /-- FAST_CLASS_ENTRY (R151). A fast-class level is taken in the fast bank without stacking. -/
  | fastClassEntry (core : Nat)
  /-- FETCH_MISS_FILL (R133). A missed fetch block returns and enters F2. -/
  | fetchMissFill (core : Nat) (bank : Nat) (line : Line)
  /-- PAGE_WALK_READ (R210). The data of one walk read returns and the walk proceeds to the next level. -/
  | pageWalkRead (core : Nat) (instr : Bool) (ans : MemAns)
  /-- TRANSLATION_RESULT (R207). A translation result becomes usable in the core and the missing bundle refetches or faults. -/
  | translationResult (core : Nat) (instr : Bool)
  /-- MMU_INV (R211). A write to MMU_INV starts an invalidation of the given scope. -/
  | mmuInv (ag : Agent) (core : Nat) (v : Word)
  /-- TLB_INVALIDATION_RECEIVE (R211). A broadcast invalidation reaches a core or PCIe controller, which removes matching entries. -/
  | tlbInvalidationReceive (by_ : Nat) (target : Nat)
  /-- TLB_INVALIDATION_ACKNOWLEDGED (R211). The last invalidation acknowledgement arrives and MMU_INVS.busy clears. -/
  | tlbInvalidationAcknowledged (by_ : Nat)
  /-- DECODE_MAP_CHANGE (R581). A new decode map reaches a core, router or PCIe controller, which empties its translation caches. -/
  | decodeMapChange (target : Nat)
  /-- WRITE_BUFFER_DRAIN_END (R226). A reset's write-buffer drain ends, and unperformed entries are abandoned and logged. -/
  | writeBufferDrainEnd (core : Nat)
  /-- THREAD_VALIDATE (R160). A write of SCHED_THR_A.valid validates or discards a thread entry. -/
  | threadValidate (cluster : Nat) (thread : Nat) (valid : Bool)
  /-- SCHEDULER_DECISION (R167). On a cluster edge the scheduler chooses the bank of each core that should issue. -/
  | schedulerDecision (cluster : Nat)
  /-- QUANTUM_EXPIRY (R167). A RUN bank's quantum expires and an equal-priority READY bank may displace it. -/
  | quantumExpiry (core : Nat)
  /-- BANK_SWITCH (R168). A switch command reaches a core and the new bank starts issuing. -/
  | bankSwitch (core : Nat)
  /-- WAITEV_ANSWER (R165). The scheduler's answer to WAITEV reaches the core. -/
  | waitevAnswer (core : Nat) (bank : Nat)
  /-- THREAD_TIMER_FIRE (R166). A thread's deadline is reached and event bit 14 is set. -/
  | threadTimerFire (cluster : Nat) (thread : Nat)
  /-- SCHED_SEM_POST (R163). A write to SCHED_SEM_POST adds to a semaphore's count. -/
  | schedSemPost (cluster : Nat) (sem : Nat) (add : Nat)
  /-- SEMAPHORE_TAKE (R163). The scheduler gives one semaphore unit to the highest waiting thread. -/
  | semaphoreTake (cluster : Nat) (sem : Nat)
  /-- COMPLETION_NOTICE (R162). A completion notice from the message engine sets the bound event bits. -/
  | completionNotice (cluster : Nat) (tenant : Nat) (qp : Nat)
  /-- INTERRUPT_EVENT_LEVEL (R329). An event-routed interrupt level in a scheduler sets the bound event bits. -/
  | interruptEventLevel (cluster : Nat) (source : Nat)
  /-- THREAD_LOAD (R184). The scheduler loads a READY-OUT thread, evicting a victim if needed. -/
  | threadLoad (core : Nat)
  /-- BANK_FREEZE (R182). A frozen bank is saved, its thread becomes FROZEN and the supervisor's bit 15 is set. -/
  | bankFreeze (core : Nat) (bank : Nat)
  /-- FAST_ENABLE_APPLY (R189). A change of fast_en takes effect on the next edge bank 7 is EMPTY. -/
  | fastEnableApply (core : Nat)
  /-- PCIE_RESUME (R230). PCIE_CTL.resume validates the controller and starts link training. -/
  | pcieResume (ag : Agent) (pcie : Nat)
  /-- PCIE_STOP (R230). PCIE_CTL.stop moves the controller to STOPPING and answers work in flight. -/
  | pcieStop (ag : Agent) (pcie : Nat)
  /-- PCIE_STOP_COMPLETE (R230). All opened mesh transactions close, the link goes to Detect and the controller is STOPPED. -/
  | pcieStopComplete (pcie : Nat)
  /-- PERST_RELEASE (R230). As root port, PERST_n is released after its hold time. -/
  | perstRelease (pcie : Nat)
  /-- PERST_FALL (R230). As endpoint, a fall of PERST_n acts as a stop. -/
  | perstFall (pcie : Nat)
  /-- WAKE_FALL (R230). As root port, a fall of WAKE_n sets PCIE_IRQ.link. -/
  | wakeFall (pcie : Nat)
  /-- PCIE_LINK_CHANGE (R237). The PCIe link comes up or goes down. -/
  | pcieLinkChange (pcie : Nat) (up : Bool) (speed : Nat) (width : Nat)
  /-- PCIE_ATT_ENTRY_WRITE (R231). A write of v = 1 checks a translation-table entry, or v = 0 retires it. -/
  | pcieAttEntryWrite (ag : Agent) (pcie : Nat) (entry : Nat) (v : Word)
  /-- PCIE_OUTBOUND_REQUEST (R232). A window access is decoded by the controller and sent as a TLP. -/
  | pcieOutboundRequest (pcie : Nat) (p : Pkt)
  /-- PCIE_COMPLETION_RECEIVE (R232). A completion for an outbound request arrives and is answered to the requester. -/
  | pcieCompletionReceive (pcie : Nat) (k : Nat) (status : Nat) (poisoned : Bool) (data : Nat)
  /-- PCIE_COMPLETION_TIMEOUT (R232). An outbound read gets no completion within cto and is answered Decode error. -/
  | pcieCompletionTimeout (pcie : Nat) (k : Nat)
  /-- PCIE_INBOUND_TLP (R233). An inbound memory TLP is translated and sent as line requests. -/
  | pcieInboundTlp (pcie : Nat) (t : Tlp)
  /-- PCIE_INBOUND_LINE_ANSWER (R240). The answers to an inbound TLP's lines arrive and its completion is handed to the link. -/
  | pcieInboundLineAnswer (pcie : Nat) (tag : Nat) (ans : MemAns)
  /-- PCIE_MSI_RECEIVE (R235). An inbound MSI write sets a pending vector bit. -/
  | pcieMsiReceive (pcie : Nat) (addr : Nat) (data : Nat)
  /-- PCIE_MSIGEN (R235). A write of PCIE_MSIGEN.vec sends one MSI as endpoint. -/
  | pcieMsigen (ag : Agent) (pcie : Nat) (vec : Nat)
  /-- PCIE_CONFIG_REQUEST (R236). The endpoint serves a host configuration request. -/
  | pcieConfigRequest (pcie : Nat) (write : Bool) (reg : CfgReg) (v : Nat)
  /-- INTX_MESSAGE (R237). A received INTx message is discarded and recorded. -/
  | intxMessage (pcie : Nat)
  /-- PCIE_LINK_ERROR (R237). A correctable or uncorrectable link error is counted or causes retraining. -/
  | pcieLinkError (pcie : Nat) (correctable : Bool) (replay : Bool)
  /-- L2_LOOKUP (R253). An L2 bank looks up a request from a core port. -/
  | l2Lookup (core : Nat) (instr : Bool) (line : Nat)
  /-- READ_SHARED (R248). The home slice serves a ReadShared request. -/
  | readShared (slice : Nat) (p : Pkt)
  /-- READ_UNIQUE (R248). The home slice serves a ReadUnique request. -/
  | readUnique (slice : Nat) (p : Pkt)
  /-- UPGRADE (R248). The home slice serves an Upgrade request. -/
  | upgrade (slice : Nat) (p : Pkt)
  /-- CLEAN_REQUEST (R248). The home slice serves a Clean request. -/
  | cleanRequest (slice : Nat) (p : Pkt)
  /-- INVALIDATE_REQUEST (R248). The home slice serves an Invalidate request. -/
  | invalidateRequest (slice : Nat) (p : Pkt)
  /-- EVICT (R254). The home slice serves an Evict request. -/
  | evict (slice : Nat) (p : Pkt)
  /-- VICTIM_OFFER (R255). The home slice accepts or declines a victim offer. -/
  | victimOffer (slice : Nat) (p : Pkt)
  /-- NON_CACHEABLE_READ (R245). The home slice serves a non-cacheable read. -/
  | nonCacheableRead (slice : Nat) (p : Pkt)
  /-- NON_CACHEABLE_WRITE (R245). The home slice merges a non-cacheable write. -/
  | nonCacheableWrite (slice : Nat) (p : Pkt)
  /-- FULL_LINE_WRITE (R245). The home slice serves a full-line write. -/
  | fullLineWrite (slice : Nat) (p : Pkt)
  /-- DEVICE_READ (R587). A device read of DRAM space is served by the home slice. -/
  | deviceRead (slice : Nat) (p : Pkt)
  /-- DEVICE_WRITE (R587). A device write of DRAM space is served by the home slice. -/
  | deviceWrite (slice : Nat) (p : Pkt)
  /-- SNOOP_INVALIDATE (R248). A cluster answers an Invalidate snoop. -/
  | snoopInvalidate (cluster : Nat) (p : Pkt)
  /-- FORWARD_SHARED (R261). An owner cluster forwards a line for a shared request. -/
  | forwardShared (cluster : Nat) (p : Pkt)
  /-- FORWARD_UNIQUE (R261). An owner cluster forwards a line for an ownership request. -/
  | forwardUnique (cluster : Nat) (p : Pkt)
  /-- SNOOP_CLEAN (R248). A cluster answers a Clean snoop with its dirty data. -/
  | snoopClean (cluster : Nat) (p : Pkt)
  /-- SNOOP_ANSWER (R249). A snoop answer reaches the slice and the line's transaction completes. -/
  | snoopAnswer (slice : Nat) (p : Pkt)
  /-- FILL (R261). A fill reaches the requesting cluster and core and frees its miss register. -/
  | fill (core : Nat) (instr : Bool) (p : Pkt)
  /-- OWNERSHIP_GRANT (R262). Ownership of a line for a store, STCOND or PREF returns to the core. -/
  | ownershipGrant (core : Nat) (p : Pkt)
  /-- EVICT_ANSWER (R254). An Ack, Superseded or Declined answer to an eviction reaches the cluster. -/
  | evictAnswer (cluster : Nat) (p : Pkt)
  /-- MAINTENANCE_ACKNOWLEDGE (R265). The home slice's acknowledgement of DCLEAN or DINVAL reaches the core. -/
  | maintenanceAcknowledge (core : Nat) (bank : Nat) (seq : Nat) (ans : MemAns)
  /-- CACHE_INVALIDATE (R269). CACHE_MAINT op 0 starts an invalidate of the target cache. -/
  | cacheInvalidate (ag : Agent) (block : Nat) (level : Nat) (core : Nat) (ways : Nat)
  /-- CACHE_CLEAN (R269). CACHE_MAINT op 1 starts a clean of the target cache. -/
  | cacheClean (ag : Agent) (block : Nat) (level : Nat) (core : Nat) (ways : Nat)
  /-- CACHE_CLEAN_INVALIDATE (R269). CACHE_MAINT op 2 starts a clean and invalidate of the target cache. -/
  | cacheCleanInvalidate (ag : Agent) (block : Nat) (level : Nat) (core : Nat) (ways : Nat)
  /-- CACHE_MAINT_COMPLETE (R269). The last set is visited and the last writeback accepted, and CACHE_STAT.busy clears. -/
  | cacheMaintComplete (block : Nat)
  /-- ROUTER_HEAD_FLIT (R272). A head flit usable at a router input is checked, routed and launched when granted. -/
  | routerHeadFlit (router : Nat) (net : Nat) (input : Nat) (vc : Nat) (err : Nat)
  /-- SLOT_ADMISSION (R283). A waiting class D request is launched at its group's slot. -/
  | slotAdmission (router : Nat) (port : Nat) (slot : Nat)
  /-- ESCAPE_CHANNEL_MOVE (R287). A class A head that waited one edge without credit moves to the escape channel. -/
  | escapeChannelMove (router : Nat) (net : Nat) (input : Nat) (vc : Nat)
  /-- CREDIT_RETURN (R37). A freed FIFO credit becomes usable at its source. -/
  | creditReturn (router : Nat) (net : Nat) (output : Nat) (vc : Nat)
  /-- LINK_HEARTBEAT (R292). A link idle for 64 router edges launches a heartbeat word. -/
  | linkHeartbeat (router : Nat) (output : Nat) (net : Nat)
  /-- LINK_SILENCE_TIMEOUT (R292). An input silent for 256 router edges is declared down. -/
  | linkSilenceTimeout (router : Nat) (input : Nat)
  /-- LINK_FENCE (R293). A router output is fenced and later packets to it are discarded or answered Fenced. -/
  | linkFence (ag : Agent) (router : Nat) (output : Nat)
  /-- DSLOT_APPLY (R283). A written slot table takes effect at the start of the next frame. -/
  | dslotApply (router : Nat)
  /-- NOC_ERR_CLEAR (R298). A write of NOC_ERR.clr clears the error counts. -/
  | nocErrClear (ag : Agent) (router : Nat)
  /-- TRANSACTION_TIMEOUT (R291). A normal or DRAM transaction unanswered within rto ends as the table states. -/
  | transactionTimeout (unit key : Nat)
  /-- DRAM_READ (R309). A full-line read is accepted into a controller queue. -/
  | dramRead (channel : Nat) (p : Pkt)
  /-- DRAM_WRITE (R310). A full-line write enters the write queue and is acknowledged. -/
  | dramWrite (channel : Nat) (p : Pkt)
  /-- DRAM_READ_COMPLETE (R312). A read's data is launched after its bank and pipeline counts, checked by inline ECC. -/
  | dramReadComplete (channel : Nat) (p : Pkt) (err : Nat) (flip : Line)
  /-- WRITE_BATCH_START (R310). A batch of writes starts when the write queue fills or no read waits. -/
  | writeBatchStart (channel : Nat)
  /-- REFRESH_DUE (R313). A per-bank refresh falls due every tREFIpb and is issued or deferred. -/
  | refreshDue (channel : Nat) (rank : Nat)
  /-- MR4_POLL (R303). A periodic MR4 read updates the refresh rate and write-link error count. -/
  | mr4Poll (channel : Nat) (rate : Nat) (errs : Nat)
  /-- REGULATOR_ADMIT (R315). A regulated request takes a token and enters its queue. -/
  | regulatorAdmit (channel : Nat) (group : Nat)
  /-- REGION_COMMIT (R307). DMC_REGCTL.commit validates the region table and distributes it. -/
  | regionCommit (ag : Agent)
  /-- REGION_TABLE_DONE (R307). Every unit holds the new table and DMC_REGCTL.done is set. -/
  | regionTableDone
  /-- DRAM_INIT_START (R317). DMC_INIT.start runs the initialisation steps. -/
  | dramInitStart (ag : Agent) (channel : Nat)
  /-- DRAM_INIT_END (R317). Initialisation finishes with done, or a step fails with err. -/
  | dramInitEnd (channel : Nat) (fail : Nat) (mr4 : Nat)
  /-- DMC_ERR_CLEAR (R318). A write of DMC_ERR.clr clears the four error counts. -/
  | dmcErrClear (ag : Agent) (channel : Nat)
  /-- SOURCE_LEVEL_CHANGE (R321). An interrupt line rises or falls at its distributor. -/
  | sourceLevelChange (source : Nat)
  /-- PIN_LEVEL_FILTERED (R322). An external pin level stable for filt edges counts as a level. -/
  | pinLevelFiltered (pin : Nat) (level : Bool)
  /-- SOURCE_PRESENTATION (R325). The distributor presents the best eligible source to a bank or fast slot. -/
  | sourcePresentation (core slot : Nat)
  /-- ACCEPT_NOTICE (R326). A core's accept notice reaches the distributor and sets act. -/
  | acceptNotice (source : Nat)
  /-- END_NOTICE (R327). An end notice clears act and resamples the line. -/
  | endNotice (source : Nat)
  /-- ICU_SWL (R335). A write of ICU_SWL sets a software line's level. -/
  | icuSwl (ag : Agent) (half : Nat) (v : Word)
  /-- ICU_SRC_WRITE (R336). A routing-entry write withdraws and re-presents a source. -/
  | icuSrcWrite (ag : Agent) (half source : Nat) (v : Word)
  /-- CORE_WAKE_REQUEST (R330). A pending source or switch command for a sleeping core requests a wake. -/
  | coreWakeRequest (core : Nat)
  /-- SQ_DB (R346). An SQ_DB doorbell is accepted and advances sq_doorbell. -/
  | sqDb (tenant : Nat) (off : Nat) (size : Nat) (v : Word)
  /-- CQ_ACK (R347). A CQ_ACK doorbell advances cq_acked and recomputes the summary line. -/
  | cqAck (tenant : Nat) (qp : Nat) (size : Nat) (v : Word)
  /-- ABORT (R348). CTL_DB ABORT stops the channel and discards its pending work. -/
  | abort (tenant : Nat) (qp : Nat)
  /-- REBUILD (R374). CTL_DB REBUILD reads the CQ and derives the ring numbers. -/
  | rebuild (tenant : Nat) (qp : Nat)
  /-- DESCRIPTOR_READ (R352). A descriptor's data returns and is checked before consumption. -/
  | descriptorRead (tenant : Nat) (qp : Nat) (ans : MemAns)
  /-- NOP_DESCRIPTOR (R358). A NOP descriptor is consumed and completed. -/
  | nopDescriptor (tenant : Nat) (qp : Nat)
  /-- SEND (R366). A SEND descriptor joins a transmit chain. -/
  | send (tenant : Nat) (qp : Nat)
  /-- POST (R364). A POST descriptor adds a buffer to the free list. -/
  | post (tenant : Nat) (qp : Nat)
  /-- START (R359). A START descriptor moves the channel to RUNNING, at once or at its time. -/
  | start (tenant : Nat) (qp : Nat)
  /-- STOP (R360). A STOP descriptor drains the channel. -/
  | stop (tenant : Nat) (qp : Nat)
  /-- EDIT (R362). An EDIT descriptor writes one setting word while STOPPED. -/
  | edit (tenant : Nat) (qp : Nat)
  /-- RESUME (R363). A RESUME descriptor validates the channel and arms it. -/
  | resume (tenant : Nat) (qp : Nat)
  /-- TIMED_START (R359). The gPTP time reaches a timed START and the channel becomes RUNNING. -/
  | timedStart (tenant : Nat) (qp : Nat)
  /-- CHANNEL_DRAIN_END (R360). A STOP's drain finishes and the channel becomes STOPPED. -/
  | channelDrainEnd (tenant : Nat) (qp : Nat)
  /-- COMPLETION_POSTED (R355). A completion write is acknowledged, cq_posted advances and the notice is launched. -/
  | completionPosted (tenant : Nat) (qp : Nat) (ans : MemAns)
  /-- SEND_CHAIN_COMPLETE (R366). The last frame of a sent chain leaves the port and its completion is written. -/
  | sendChainComplete (tenant : Nat) (qp : Nat)
  /-- RECEIVE_MESSAGE (R364). An arriving message is placed in posted buffers or dropped whole. -/
  | receiveMessage (tenant : Nat) (qp : Nat)
  /-- REASSEMBLY_TIMEOUT (R370). A message whose final segment does not arrive in time is dropped with cause 51. -/
  | reassemblyTimeout (tenant : Nat) (qp : Nat)
  /-- MEQ_QP_SEQ (R374). A write of MEQ_QP_SEQ sets the ring numbers and makes them valid. -/
  | meqQpSeq (ag : Agent) (tenant : Nat) (qp : Nat) (v : Word)
  /-- MEQ_QP_CNTREQ (R375). A write requests a snapshot of a queue-pair counter. -/
  | meqQpCntreq (ag : Agent) (tenant : Nat) (qp : Nat) (v : Word)
  /-- ETH_RESUME (R382). ETH_CTL.resume validates the port and starts link set-up. -/
  | ethResume (ag : Agent) (port : Nat)
  /-- ETH_STOP (R382). ETH_CTL.stop flushes the port's queues and takes the link down. -/
  | ethStop (ag : Agent) (port : Nat)
  /-- ETH_LINK_CHANGE (R384). A port's link comes up or drops. -/
  | ethLinkChange (port : Nat) (up : Bool) (speed : Nat) (isMaster : Bool) (sqi : Nat)
  /-- RECEIVE_FRAME (R387). A received frame passes the ingress steps and is forwarded or discarded. -/
  | receiveFrame (port : Nat) (bytes : List Byte) (fcs : Bool) (wait : Nat)
  /-- EGRESS_SELECT (R396). An idle port selects the head of the highest eligible class and sends it. -/
  | egressSelect (port : Nat) (wait : Nat)
  /-- FDB_AGING (R390). A dynamic FDB entry not seen within its age is removed. -/
  | fdbAging (half : Nat) (vid : Nat) (mac : Nat)
  /-- FDB_READ (R391). FDB command 0 reads the entry for the key. -/
  | fdbRead (ag : Agent) (half : Nat)
  /-- FDB_WRITE_STATIC (R391). FDB command 1 writes a static entry. -/
  | fdbWriteStatic (ag : Agent) (half : Nat) (ports : Nat)
  /-- FDB_WRITE_DYNAMIC (R391). FDB command 2 writes a dynamic entry. -/
  | fdbWriteDynamic (ag : Agent) (half : Nat) (ports : Nat)
  /-- FDB_DELETE (R391). FDB command 3 deletes the entry. -/
  | fdbDelete (ag : Agent) (half : Nat)
  /-- FDB_FLUSH_DYNAMIC (R391). FDB command 4 flushes every dynamic entry. -/
  | fdbFlushDynamic (ag : Agent) (half : Nat)
  /-- FDB_FLUSH_DYNAMIC_PORT (R391). FDB command 5 flushes the dynamic entries of one port. -/
  | fdbFlushDynamicPort (ag : Agent) (half : Nat) (ports : Nat)
  /-- TSN_TSTEP (R392). A write of TSN_TSTEP adds a signed step to the gPTP time. -/
  | tsnTstep (ag : Agent) (half : Nat) (v : Word)
  /-- TSN_TSET (R392). A write of TSN_TSET sets the gPTP time. -/
  | tsnTset (ag : Agent) (half : Nat) (v : Word)
  /-- TSN_TNS_READ (R392). A read of TSN_TNS captures TSN_TFR on the same edge. -/
  | tsnTnsRead (half : Nat)
  /-- GATE_STATE_CHANGE (R398). The time reaches a gate-list change instant and the gate states change. -/
  | gateStateChange (port : Nat)
  /-- GATE_LIST_GO (R400). TSN_GCTL.go makes an admin gate list pending. -/
  | gateListGo (ag : Agent) (port : Nat) (v : Word)
  /-- GATE_CONFIG_CHANGE (R400). At the change time the gate-list banks swap. -/
  | gateConfigChange (port : Nat)
  /-- STREAM_GATE_CHANGE (R403). A stream gate changes state at its list instants. -/
  | streamGateChange (half : Nat) (gate : Nat)
  /-- RECOVERY_RESET_TIMEOUT (R406). A recovery function with no passed frame for its reset time resets. -/
  | recoveryResetTimeout (half : Nat) (fn : Nat)
  /-- CABLE_DIAG_START (R385). ETH_DIAG.start starts a cable diagnostic. -/
  | cableDiagStart (ag : Agent) (port : Nat)
  /-- CABLE_DIAG_COMPLETE (R385). The cable measurement ends and ETH_DIAGR reports it. -/
  | cableDiagComplete (port : Nat) (fault : Nat) (dist : Nat)
  /-- SA_KEY_INSTALL (R409). ETH_SACMD installs a key into an SA. -/
  | saKeyInstall (ag : Agent) (port : Nat) (v : Word)
  /-- SA_KEY_CLEAR (R409). ETH_SACMD with clear zeroes an SA's key. -/
  | saKeyClear (ag : Agent) (port : Nat) (v : Word)
  /-- SA_SUBKEY_READY (R409). The hash subkey is derived and ETH_SASTAT reports VALID. -/
  | saSubkeyReady (port : Nat)
  /-- CAN_RESUME (R419). CAN_CTL.resume validates the controller and starts integration. -/
  | canResume (ag : Agent) (can : Nat)
  /-- CAN_STOP (R419). CAN_CTL.stop flushes the queue and stops the controller. -/
  | canStop (ag : Agent) (can : Nat)
  /-- CAN_FRAME_RECEIVED (R422). A received CAN frame becomes valid and is passed to the gateway. -/
  | canFrameReceived (can : Nat) (f : CanFrame)
  /-- CAN_FRAME_OFFER (R421). The controller offers its winning queued frame on the bus. -/
  | canFrameOffer (can : Nat)
  /-- CAN_FRAME_SENT (R421). A queued frame finishes transmission successfully. -/
  | canFrameSent (can : Nat)
  /-- CAN_BUS_ERROR (R420). A bus error updates the error counters and may enter bus-off. -/
  | canBusError (can : Nat) (kind : Nat)
  /-- BUS_OFF_RECOVERY (R420). After 128 recessive sequences the controller leaves bus-off. -/
  | busOffRecovery (can : Nat)
  /-- TTL_EXPIRY (R421). A queued frame older than ttl is discarded. -/
  | ttlExpiry (can : Nat)
  /-- GATEWAY_FRAME (R427). The gateway matches a frame against its rules and performs their actions. -/
  | gatewayFrame (half : Nat)
  /-- STREAM_FRAME_UNPACK (R431). An NTSCF frame reaching the gateway is unpacked onto buses. -/
  | streamFrameUnpack (half : Nat)
  /-- LIN_RESUME (R423). LIN_CTL.resume validates the controller and starts it. -/
  | linResume (ag : Agent) (lin : Nat)
  /-- LIN_STOP (R423). LIN_CTL.stop stops the controller. -/
  | linStop (ag : Agent) (lin : Nat)
  /-- LIN_SCHEDULE_ENTRY (R423). A commander's slot time elapses and the next schedule entry's header is sent. -/
  | linScheduleEntry (lin : Nat)
  /-- LIN_HEADER (R424). A header's PID arrives and the controller publishes, subscribes or ignores. -/
  | linHeader (lin : Nat) (id : Nat) (good : Bool)
  /-- LIN_RESPONSE_RECEIVED (R424). A subscribed response becomes valid and goes to the gateway. -/
  | linResponseReceived (lin : Nat) (data : List Byte) (good : Bool)
  /-- LIN_NO_RESPONSE (R424). No complete response arrives within the limit and an error is counted. -/
  | linNoResponse (lin : Nat)
  /-- GO_TO_SLEEP (R425). A go-to-sleep command halts the schedule and sets sleep. -/
  | goToSleep (lin : Nat)
  /-- WAKE_UP_SIGNAL (R425). A detected wake-up signal clears sleep. -/
  | wakeUpSignal (lin : Nat)
  /-- LIN_WAKE (R425). LIN_CTL.wake drives a wake-up pulse and clears sleep. -/
  | linWake (ag : Agent) (lin : Nat)
  /-- SCHEDULE_RESUME (R425). A commander resumes its schedule after the post-wake wait. -/
  | scheduleResume (lin : Nat)
  /-- BOOT (R442). The boot ROM loads and checks a catalogue and starts the monitor. -/
  | boot (a b : List Byte) (ok : Bool)
  /-- SCRIPT_POLL_TIMEOUT (R447). A script poll unmet after its limit fails the boot step. -/
  | scriptPollTimeout
  /-- XSPI_READ_TIMEOUT (R320). An xSPI read that gets no data in time ends with a decode error and raises line 742. -/
  | xspiReadTimeout (p : Pkt)
  /-- BOOTLOCK_SET (R451). Setting bootlock freezes MEAS0–7 and derives the identity and alias keys. -/
  | bootlockSet (ag : Agent)
  /-- CARVE_OUT_LOCK (R437). SEC_CW_COCTL.lock checks and locks the carve-outs. -/
  | carveOutLock (ag : Agent)
  /-- MEASUREMENT_EXTEND (R449). SEC_CW_MREXT extends a measurement register. -/
  | measurementExtend (ag : Agent) (index : Nat)
  /-- DERIVE_INTO_SLOT (R453). Key-store op 1 derives a key into a delivery slot. -/
  | deriveIntoSlot (ag : Agent) (v : Word)
  /-- LOAD_KEY_INTO_SLOT (R453). Key-store op 2 loads a key into a slot. -/
  | loadKeyIntoSlot (ag : Agent) (v : Word)
  /-- RELEASE_SLOT (R453). Key-store op 3 releases a slot to a consumer. -/
  | releaseSlot (ag : Agent) (v : Word)
  /-- REVOKE_SLOT (R453). Key-store op 4 zeroes a slot's key and consumer. -/
  | revokeSlot (ag : Agent) (v : Word)
  /-- ATTEST (R454). Key-store op 5 writes a signed attestation report. -/
  | attest (ag : Agent)
  /-- PROGRAM_ROOT (R453). Key-store op 6 programs a root hash. -/
  | programRoot (ag : Agent) (v : Word)
  /-- REVOKE_ROOT (R453). Key-store op 7 revokes a root. -/
  | revokeRoot (ag : Agent) (v : Word)
  /-- GENERATE_DUS (R453). Key-store op 8 generates the device-unique secret and revokes debug grants. -/
  | generateDus (ag : Agent)
  /-- SEAL (R453). Key-store op 9 sets the lifecycle to PROVISIONED. -/
  | sealKey (ag : Agent)
  /-- ADVANCE_ROLLBACK (R453). Key-store op 10 advances the rollback counter. -/
  | advanceRollback (ag : Agent)
  /-- PROGRAM_DEBUG_KEY (R453). Key-store op 11 programs dbgkey and dbgpol. -/
  | programDebugKey (ag : Agent)
  /-- DECOMMISSION (R453). Key-store op 12 sets the lifecycle to DECOMMISSIONED. -/
  | decommission (ag : Agent)
  /-- SM3_JOB (R457). Job op 1 starts an SM3 hash. -/
  | sm3Job (ag : Agent) (chan : Nat) (v : Word)
  /-- SM4_GCM_ENCRYPT (R457). Job op 2 starts an SM4-GCM encryption. -/
  | sm4GcmEncrypt (ag : Agent) (chan : Nat) (v : Word)
  /-- SM4_GCM_DECRYPT (R457). Job op 3 starts an SM4-GCM decryption. -/
  | sm4GcmDecrypt (ag : Agent) (chan : Nat) (v : Word)
  /-- AES_GCM_ENCRYPT (R457). Job op 4 starts an AES-GCM encryption. -/
  | aesGcmEncrypt (ag : Agent) (chan : Nat) (v : Word)
  /-- AES_GCM_DECRYPT (R457). Job op 5 starts an AES-GCM decryption. -/
  | aesGcmDecrypt (ag : Agent) (chan : Nat) (v : Word)
  /-- SM2_VERIFY (R457). Job op 6 starts an SM2 signature verification. -/
  | sm2Verify (ag : Agent) (chan : Nat) (v : Word)
  /-- TRNG_JOB (R457). Job op 7 requests random bits. -/
  | trngJob (ag : Agent) (chan : Nat) (v : Word)
  /-- JOB_COMPLETE (R455). A crypto job ends and its result or failure is reported. -/
  | jobComplete (chan : Nat)
  /-- TRNG_HEALTH_FAILURE (R456). A TRNG health test fails and every TRNG request then fails. -/
  | trngHealthFailure
  /-- TRNG_RESTART (R456). SEC_CW_CTL.trng_restart clears the failure after a passing start-up test. -/
  | trngRestart (ag : Agent) (pass : Bool)
  /-- CW_WATCHDOG_ARM (R458). SEC_CW_WDT.arm arms the Closed-world watchdog. -/
  | cwWatchdogArm (ag : Agent) (v : Word)
  /-- CW_WATCHDOG_KICK (R458). SEC_CW_WDT.kick restarts the Closed-world watchdog period. -/
  | cwWatchdogKick (ag : Agent) (v : Word)
  /-- CW_WATCHDOG_EXPIRY (R458). The armed Closed-world watchdog expires and triggers a restart. -/
  | cwWatchdogExpiry
  /-- CW_RESTART_REQUEST (R458). SEC_CW_CTL.restart triggers a Closed-world restart. -/
  | cwRestartRequest (ag : Agent)
  /-- CW_RESTART (R458). SEC_CTL.cw_restart from the partition manager triggers a Closed-world restart. -/
  | cwRestart (ag : Agent)
  /-- CLOSED_WORLD_RESTART (R459). The Closed world restarts, forcing returns and restoring the golden monitor. -/
  | closedWorldRestart
  /-- DEBUG_CHALLENGE_READ (R464). A read of SEC_DBG_CHAL returns a fresh challenge and replaces the previous one. -/
  | debugChallengeRead
  /-- DEBUG_CERTIFICATE_CHECK (R464). SEC_DBG_CMD.go checks a debug certificate and grants authorisations. -/
  | debugCertificateCheck (ag : Agent)
  /-- DEBUG_REVOKE (R465). SEC_DBG_CTL.revoke revokes every certificate grant. -/
  | debugRevoke (ag : Agent)
  /-- DBG_REVOKE (R465). SEC_CW_CTL.dbg_revoke lets the Closed world revoke grants. -/
  | dbgRevoke (ag : Agent)
  /-- ANCHOR_HEARTBEAT (R469). An anchor launches a heartbeat to its peer every 400 anchor edges. -/
  | anchorHeartbeat (half : Nat)
  /-- PEER_HEARTBEAT (R476). A peer heartbeat arrives, updating peer state and carrying any declaration. -/
  | peerHeartbeat (half : Nat)
  /-- PEER_SILENCE (R469). No peer heartbeat for 80,000 anchor edges raises fault 0x14. -/
  | peerSilence (half : Nat)
  /-- CLOCK_RATE_WINDOW (R470). At the end of a 40,000-edge window the anchor compares clock rates. -/
  | clockRateWindow (half own peer main : Nat)
  /-- SUPPLY_VIOLATION (R563). A monitored rail outside its window for 16 anchor edges raises its fault. -/
  | supplyViolation (half rail mv : Nat)
  /-- FAULT_REPORT (R474). A fault report becomes usable in the anchor, is recorded and its action chosen. -/
  | faultReport (half n : Nat)
  /-- SPLIT (R482). On SPLIT the anchor fences the cut and suspends class A tenants. -/
  | split (half : Nat)
  /-- SPLIT_DRAIN_END (R482). The drain wait of a split ends and tenants across the cut are faulted. -/
  | splitDrainEnd (half : Nat)
  /-- SAFE_REJOIN (R483). SAFE_REJOIN.go checks and starts a rejoin of the halves. -/
  | safeRejoin (ag : Agent) (half : Nat)
  /-- REJOIN_LINKS_UP (R484). All cut links read up and the rejoin completes to FULL. -/
  | rejoinLinksUp (half : Nat)
  /-- REJOIN_LINK_TIMEOUT (R484). A cut link still down after 4,096 anchor edges refuses the rejoin. -/
  | rejoinLinkTimeout (half : Nat)
  /-- SAFE_WDT_ARM (R487). SAFE_WDT.arm arms the anchor window watchdog. -/
  | safeWdtArm (ag : Agent) (half : Nat) (v : Word)
  /-- SAFE_WDT_KICK (R487). A kick is checked against value and window. -/
  | safeWdtKick (ag : Agent) (half : Nat) (v : Word)
  /-- SAFE_WDT_EXPIRY (R487). No kick within the period raises fault 0x04. -/
  | safeWdtExpiry (half : Nat)
  /-- INJECT (R492). SAFE_CTL.inject reports a test fault in test mode. -/
  | inject (ag : Agent) (half code : Nat)
  /-- SAFE_CTL_LOCK (R480). SAFE_CTL.lock checks and locks the tenant classes. -/
  | safeCtlLock (ag : Agent) (half : Nat)
  /-- FMAP_COUNT_CLEAR (R473). A write of SAFE_FMAP.clr restarts a fault code's count. -/
  | fmapCountClear (ag : Agent) (half code : Nat)
  /-- SAFE_OUTPUT_WRITE (R486). A write of SAFE_SOUT.val updates the safe-output pins where the level allows. -/
  | safeOutputWrite (ag : Agent) (half v : Nat)
  /-- PAIR_FORM (R488). SAFE_PAIR form drains and resets two cores to run as a lockstep pair. -/
  | pairForm (ag : Agent) (half cluster k : Nat)
  /-- PAIR_DISSOLVE (R489). SAFE_PAIR dissolve drains, resets and separates a pair. -/
  | pairDissolve (ag : Agent) (half cluster k : Nat)
  /-- PAIR_FORMED (R489). 64 core edges after reset the pair is formed. -/
  | pairFormed (cluster k : Nat)
  /-- LOCKSTEP_MISMATCH (R491). The checker finds a differing output, stops the pair and reports fault 0x12. -/
  | lockstepMismatch (cluster k : Nat)
  /-- POWER_UP (R497). PWR_DOM cmd 1 powers up a domain through its sequence. -/
  | powerUp (ag : Agent) (domain : Nat)
  /-- POWER_DOWN (R498). PWR_DOM cmd 2 stops, drains and switches off a domain. -/
  | powerDown (ag : Agent) (domain : Nat)
  /-- POWER_DOWN_RETENTION (R499). PWR_DOM cmd 3 places a DRAM channel in retention and switches it off. -/
  | powerDownRetention (ag : Agent) (domain : Nat)
  /-- POWER_SEQUENCE_DONE (R495). A power sequence ends and its status reads DONE. -/
  | powerSequenceDone (domain : Nat)
  /-- RETENTION_WAKE (R499). A request reaching a retained channel powers it up and is then served. -/
  | retentionWake (channel : Nat)
  /-- CORE_FREQUENCY_CHANGE (R503). A write of CLK_CORE.mult moves the regulator and generator step by step. -/
  | coreFrequencyChange (ag : Agent) (core mult : Nat)
  /-- CORE_FREQUENCY_STEP (R503). On each ref edge the regulator or generator moves one step until the change is DONE. -/
  | coreFrequencyStep (core : Nat)
  /-- RAIL_CHANGE (R504). A write of PWR_RAIL.vcore sends a new rail setting to the PMIC. -/
  | railChange (ag : Agent) (vcore : Nat)
  /-- PMIC_ANSWER (R573). The PMIC acknowledges or NACKs a private write, which is retried or completed. -/
  | pmicAnswer (ack : Bool)
  /-- RAIL_SETTLED (R504). After the settle wait busy clears and cur is set. -/
  | railSettled
  /-- CLOCK_GATE (R505). CLK_ISL.gate stops or restarts an island's clock. -/
  | clockGate (ag : Agent) (island : Nat) (gate : Bool)
  /-- LOSS_OF_LOCK (R501). A generator loses lock, stops its island and is reported after 64 ref edges. -/
  | lossOfLock (island : Nat)
  /-- IDLE_SLEEP (R506). A core idle for idle_dly edges flushes its L1s and stops its clock. -/
  | idleSleep (core : Nat)
  /-- CORE_WAKE (R507). A wake request opens a sleeping core's clock gate. -/
  | coreWake (core : Nat)
  /-- COLD_RESET (R515). PORn rising or VDD_AON failing runs the cold start-up. -/
  | coldReset (aon : Option Nat)
  /-- WARM_CHIP_RESET (R511). RST_CTL with key 0xA5, or WRSTn low, resets every domain. -/
  | warmChipReset (pin : Bool) (ag : Agent) (v : Word)
  /-- CLUSTER_RESET (R512). RST_CMD op 1 resets a cluster, its cores and its L2. -/
  | clusterReset (ag : Agent) (cluster : Nat)
  /-- CORE_RESET (R512). RST_CMD op 2 or fault 0x08 resets a core and freezes its threads. -/
  | coreReset (ag : Agent) (core : Nat)
  /-- TENANT_RESET (R514). RST_CMD op 3 turns a tenant's threads OFF and aborts its queue pairs. -/
  | tenantReset (ag : Agent) (tenant : Nat)
  /-- TRACE_ENCODER_ENABLE (R524). A write of TRC_ENC.en arms or idles an encoder. -/
  | traceEncoderEnable (ag : Agent) (core : Nat) (v : Word)
  /-- TRACE_TRIGGER (R524). TRC_CTL.trig raises the trigger in every encoder. -/
  | traceTrigger (ag : Agent)
  /-- CHUNK_CLOSE_TIMEOUT (R527). 64 Ledger edges without a new packet close an encoder's chunk. -/
  | chunkCloseTimeout (core : Nat)
  /-- CHUNK_ADMISSION (R528). The Ledger takes one chunk per edge, admitting or discarding it. -/
  | chunkAdmission
  /-- MEMORY_SINK_WRITE (R531). The Ledger writes a line of stream to the memory ring. -/
  | memorySinkWrite
  /-- SINK_ERROR (R532). A memory-sink write answered with an error or timeout stops the sink. -/
  | sinkError
  /-- LEDGER_ENABLE (R532). TRC_CTL.en = 1 starts the Ledger or is refused. -/
  | ledgerEnable (ag : Agent) (v : Word)
  /-- LEDGER_DISABLE (R532). TRC_CTL.en = 0 flushes the merge buffer to the sink. -/
  | ledgerDisable (ag : Agent) (v : Word)
  /-- LEDGER_FLUSH_END (R532). The flush ends and TRC_STAT.busy clears. -/
  | ledgerFlushEnd
  /-- HALT (R536). TRC_HCMD halt evicts the thread at its next d = 0 boundary and holds it. -/
  | halt (ag : Agent) (cluster thread : Nat)
  /-- RELEASE (R536). TRC_HCMD release clears a thread's debug hold. -/
  | release (ag : Agent) (cluster thread : Nat)
  /-- DBGXFER_UPDATE (R589). A DBGXFER update launches a debug-port access. -/
  | dbgxferUpdate (v : Nat)
  /-- DEBUG_ACCESS_ANSWER (R589). The answer of a debug-port access is stored for capture. -/
  | debugAccessAnswer (ans : MemAns)
  /-- TRC_LOST_CLEAR (R539). A write of TRC_LOST.clr clears the lost-byte count. -/
  | trcLostClear (ag : Agent)
  /-- SERVICE_MODE (R548). PMU_MODE cmd 1 enters SERVICE mode. -/
  | serviceMode (ag : Agent)
  /-- RECOVERY_MODE (R548). PMU_MODE cmd 2 enters RECOVERY mode. -/
  | recoveryMode (ag : Agent)
  /-- TEST_MODE (R548). PMU_MODE cmd 3 enters TEST mode. -/
  | testMode (ag : Agent)
  /-- SNAPSHOT (R550). PMU_SNAP op 1 schedules a snapshot of every counter. -/
  | snapshot (ag : Agent)
  /-- FREEZE (R550). PMU_SNAP op 2 schedules a freeze of every counter. -/
  | freeze (ag : Agent)
  /-- UNFREEZE (R550). PMU_SNAP op 3 schedules the resumption of counting. -/
  | unfreeze (ag : Agent)
  /-- FREEZE_AND_SNAPSHOT (R550). PMU_SNAP op 4 schedules a freeze and a snapshot. -/
  | freezeAndSnapshot (ag : Agent)
  /-- SNAPSHOT_TICK (R551). Tick τ reaches each island, which samples or freezes its counters. -/
  | snapshotTick
  /-- PMU_READOUT (R553). A write of PMU_RD starts the readout of an island's counter page. -/
  | pmuReadout (ag : Agent) (v : Word)
  /-- PMU_READOUT_COMPLETE (R553). The last readout word is stored and rstat reads VALID. -/
  | pmuReadoutComplete
  /-- SAMPLING_FIRE (R555). A sampling comparator reaches a multiple of its period and the core records a sample. -/
  | samplingFire (core : Nat)
  /-- SAMPLE_RECORD_STORED (R556). A sample record is stored in PMU_SREC and raises its interrupt source. -/
  | sampleRecordStored (core : Nat)
  /-- BANDWIDTH_WINDOW_END (R557). A bandwidth window ends and its total updates PMU_BWLAST and PMU_BWMAX. -/
  | bandwidthWindowEnd (monitor : Nat)
  /-- BWMAX_CLEAR (R560). A write of PMU_BWMAX.clr clears the maximum. -/
  | bwmaxClear (ag : Agent) (monitor : Nat)
  /-- SETTING_PROPAGATE (R558). A PMU setting reaches its island over the ring and takes effect. -/
  | settingPropagate (addr : Nat)
  /-- JUNCTION_OVER_TEMPERATURE (R472). A junction sensor of a half stays above SAFE_CFG.tmax for 16 anchor edges and raises fault 0x07. -/
  | junctionOverTemperature (half temp : Nat)
  /-- ANCHOR_LOCKSTEP_MISMATCH (R472). The comparator of an anchor's lockstep cores finds a mismatch and the anchor enters SAFE-STATE by fault 0x01 through the hardwired path. -/
  | anchorLockstepMismatch (half : Nat)
  /-- PERST_RISE (R230). As endpoint, a rise of the PERST_n input lets a RUNNING controller start link training. -/
  | perstRise (pcie : Nat)
  /-- ETH_STOP_COMPLETE (R382). The frame in transmission on a STOPPING port finishes, the link is taken down and the port becomes STOPPED. -/
  | ethStopComplete (port : Nat)
  /-- POWER_CLOCK_STATUS_READ (R518). A read of a PWR_DOM, CLK_CORE or CLK_ISL status that is not DONE marks it read, which can lower interrupt source 741. -/
  | powerClockStatusRead (addr : Nat)
deriving DecidableEq, Repr

end Sys2Proof
end

