-- ==== Sys2Proof/Machine/State.lean ====
section
/-! DEFINITION. The state of the part: every register, buffer, queue, counter and mode the spec gives it, as plain
data. -/

namespace Sys2Proof.Machine

/-! ## Processor status word and register banks (02, 05, 06, 07) -/

/-- The processor status word by its fields (R71). -/
structure Psw where
  pl : BitVec 2 := 3
  world : Bool := true
  ie : Bool := false
  fie : Bool := false
  wcur : Nat := 0
  wres : Nat := 1
  tw : Bool := false
  rsm : Bool := false
  rsl : Bool := false
  rsd : Nat := 0
  cf0 : Bool := false
  cf1 : Bool := false
  vf0 : Bool := false
  vf1 : Bool := false
  bank : Nat := 0
  fast : Bool := false
deriving DecidableEq, Repr

/-- What kind of result an operation in flight brings. -/
inductive FlightKind where
  | mul | div | dec | fp | fpLong | load | slow
deriving DecidableEq, Repr

/-- A result in flight: the edge that ends its latency and what it writes then; `hold`: a register it holds pending though
it writes none (R76, R99, R119). -/
structure Flight where
  kind : FlightKind
  due : Nat
  mw : List (Nat × Word) := []
  pw : Option (Nat × Word) := none
  hold : Nat := 0
  fl : Nat := 0
  dvs : Nat := 0
  dcy : Option Bool := none
  fault : Option Nat := none
  addr : Word := 0
deriving DecidableEq, Repr

/-- The memory type of an access, in rising order of strictness reversed (R202). -/
inductive MType where
  | device | nc | wb
deriving DecidableEq, Repr

/-- A combined translation held by a TLB (R208); `mt1` is stage 1's type, and `grp` marks a page of a 64 KiB group that stage 2 maps
in smaller pages (R200). -/
structure TlbEnt where
  regime : BitVec 2
  tenant : Nat
  asid : Nat
  glob : Bool
  lg : Nat
  vpage : Nat
  out : Nat
  ipa : Nat
  mt : MType
  u : Bool
  w : Bool
  ux : Bool
  sx : Bool
  r2 : Bool
  w2 : Bool
  x2 : Bool
  lvl1 : Nat
  lvl2 : Nat
  dec : Bool
  mt1 : MType
  grp : Bool := false
deriving DecidableEq, Repr

/-- A load whose data is not yet usable (R87): its place among the context's accesses, the physical register, its
addresses (`hi`: that of the upper part of a split), size and type, whether its request is sent and the edge from which it is late, the lines
still to be requested, the bytes known so far by their place, the tags of its requests, whether it is a
line of a block operation (1) or of a RETT's record (2) (R153, R177), and the entries that translated it (R211). -/
structure LoadEnt where
  seq : Nat
  phys : Nat
  va : Word
  pa : Nat
  size : Nat
  sext : Bool := false
  mt : MType := .wb
  sent : Bool := true
  late : Nat := 0
  hi : Option Nat := none
  fwd : List (Nat × Byte) := []
  want : List Nat := []
  pc : Word := 0
  tag : Nat := 0
  tag2 : Nat := 0
  blk : Nat := 0
  ents : List TlbEnt := []
deriving DecidableEq, Repr

/-- The barriers of R108. -/
inductive BarKind where
  | barl | bars | bara
deriving DecidableEq, Repr

/-- A barrier whose condition is unmet: it waits on the accesses numbered below `seq` (R109). -/
structure BarWait where
  kind : BarKind
  seq : Nat
deriving DecidableEq, Repr

/-- A STCOND that awaits ownership of its line, or the acknowledgement of its non-cacheable store (R106). -/
structure StcWait where
  phys : Nat
  pa : Nat
  val : Word
  ack : Option Nat := none
deriving DecidableEq, Repr

/-- A store recorded lost that marks its bank: its address, the syndrome kind and its place among the context's accesses
(R110, R224). -/
structure LostStore where
  pa : Nat
  kind : Nat
  seq : Nat
deriving DecidableEq, Repr

/-- A bundle that has issued and awaits what it needs before it commits (R153, R177, R179, R218): its edge, its syllables and
words; whether it holds an STM or LDM, the accesses each has made, whether LDM's progress is the one kept (R180; log 68), and the values
that LDM has loaded, which land when the bundle commits (R52); the registers and translations as the bundle found them (R53); the
place of its first access among the context's. -/
structure Held where
  at_ : Nat
  syls : List (Op × Syl)
  words : Nat
  multi : Bool := false
  stm : Nat := 0
  ldm : Nat := 0
  last : Bool := false
  got : List Flight := []
  phys : SMap Word := []
  mreg : SMap Word := []
  dvs : Word := 0
  fpc : Word := 0
  lof : Word := 0
  dtlb : List TlbEnt := []
  seq : Nat := 0
deriving DecidableEq, Repr

/-- An entry that was accepted and whose capture is not done (R147, R148). -/
structure EntrySeq where
  at_ : Nat
  cause : Nat
  level : BitVec 2
  g2 : Word
  g3 : Word
  g4 : Word
  pc : Word
deriving DecidableEq, Repr

/-- The state of a bank (R158). -/
inductive BankState where
  | empty | ready | run | wait | frozen
deriving DecidableEq, Repr

/-- One register bank, that is one hardware context (R62, R70, R75, R78, R144, R156, R180). -/
structure Bank where
  psw : Psw := {}
  pc : Word := 0
  phys : SMap Word := []
  fpc : Word := 0
  lof : Word := 0
  folio : Word := 0
  tvbs : Word := 0
  tvbp : Word := 0
  tvbm : Word := 0
  psec : Word := 0
  tenant : Nat := 0
  asid : Nat := 0
  mreg : SMap Word := []
  dvs : Word := 0
  rs : SMap Word := []
  rst : Nat := 0
  depth : Nat := 0
  prog : SMap Word := []
  closedEntry : Option (Nat × Word × Nat) := none
  resv : Option Nat := none
  resvAt : Nat := 0
  st : BankState := .empty
  thread : Option Nat := none
  fly : List Flight := []
  loads : List LoadEnt := []
  bars : List BarWait := []
  stc : Option StcWait := none
  isync : Option (Nat × Nat) := none
  waitev : Option Nat := none
  slept : Option Nat := none
  held : Option Held := none
  cons : Option Nat := none
  gLand : Nat := 0
  entry : Option EntrySeq := none
  missing : Bool := false
  lofPend : Bool := false
  lost : Option LostStore := none
  devLost : Bool := false
  seq : Nat := 0
  ready : Nat := 0
  gh : BitVec 16 := 0
  psecNow : Word := 0
  pbar : Bool := false
  runSince : Nat := 0
  waitSince : Nat := 0
  irq : Option (Nat × Nat) := none
  fwait : Option Nat := none
  fsent : Option (Nat × Nat) := none
  fbuf : List (Nat × Line) := []
  stepOff : Bool := false
  swIn : Bool := false
  dbgPend : Bool := false
  waste : Nat := 0
deriving DecidableEq, Repr

/-- What kind of store a write-buffer entry holds (R215). -/
inductive WbKind where
  | normal | nc | dev | stack | clean | inval
deriving DecidableEq, Repr

/-- An entry of a core's write buffer (R215), `upper` that of the upper part of a split store, whose lower part is the entry before
(R221), `ent` the entry that translated it (R211), `thru` marks a normal write-back store that has passed its disabled caches (R267); a cache-maintenance operation that is not yet performed (R264)
stands here as well, since barriers wait on it in the same way. -/
structure WbEnt where
  seq : Nat
  bank : Nat
  tenant : Nat
  closed : Bool
  kind : WbKind
  pa : Nat
  size : Nat
  data : Line := 0
  mask : BitVec 64 := 0
  sent : Bool := false
  late : Nat := 0
  tag : Nat := 0
  thread : Option Nat := none
  upper : Bool := false
  ent : Option TlbEnt := none
  thru : Bool := false
deriving DecidableEq, Repr

/-- A cached non-leaf stage-1 descriptor: the table it names, of level `level + 1` (R208). -/
structure Wc1Ent where
  regime : BitVec 2
  tenant : Nat
  asid : Nat
  level : Nat
  vtop : Nat
  next : Nat
  s2root : Nat
deriving DecidableEq, Repr

/-- A cached ASID root with its tenant entry (R208). -/
structure RootEnt where
  tenant : Nat
  asid : Nat
  s1off : Bool
  s2root : Nat
  root : Nat
deriving DecidableEq, Repr

/-- A cached stage-2 translation of one 4 KiB intermediate page (R208). -/
structure Wc2Ent where
  tenant : Nat
  page : Nat
  out : Nat
  r : Bool
  w : Bool
  x : Bool
  mt : MType
  level : Nat
deriving DecidableEq, Repr

/-- What a walk read was answered with (R204, R210). -/
inductive WalkAns where
  | data (v : Word) | bad
deriving DecidableEq, Repr

/-- The kinds of access that permissions tell apart (R199); `exec` is the execute check of ICLEAN (R111). -/
inductive AccKind where
  | read | write | fetch | exec
deriving DecidableEq, Repr

/-- A translation in progress on one port of a core: the access's address, the bundle that waits for it, whether it is at the U level and
whether it is the upper half of a split access, the hint of a PREF that asks for it; whether the L2 TLB was missed, and the answers that
came so far; the tag of the read under way outside DRAM and the edge from which it is late, and the line that came for a read (R88, R204,
R210). -/
structure Walk where
  bank : Nat
  regime : BitVec 2
  tenant : Nat
  asid : Nat
  closed : Bool
  va : Word
  kind : AccKind
  pc : Word := 0
  user : Bool := false
  upper : Bool := false
  pref : Option Nat := none
  ans : List (Nat × WalkAns) := []
  l2 : Bool := false
  sent : Option (Nat × Nat) := none
  got : Option (Nat × Line × Bool) := none
deriving DecidableEq, Repr

/-- A block-target-buffer entry (R136, R137). -/
structure BtbEnt where
  set : Nat
  tag : BitVec 12
  vtag : Nat
  off : Nat
  kind : Nat
  bias : Bool
  target : Word
deriving DecidableEq, Repr

/-- A direction-table entry (R136). -/
structure DirEnt where
  tag : BitVec 12
  ctr : BitVec 2
deriving DecidableEq, Repr

/-- An indirect-target-table entry (R136). -/
structure IndEnt where
  tag : BitVec 12
  target : Word
deriving DecidableEq, Repr

/-- A predictor update that a branch on the correct path makes at BC: the edge, the bank, the places and tag it writes, the
kind, direction and scrambled target of the branch, and the free value of R586 (R136 to R138). -/
structure Train where
  due : Nat
  bank : Nat
  set : Nat
  tag : BitVec 12
  vtag : Nat
  off : Nat
  kind : Nat
  taken : Bool
  target : Word
  dir : Nat
  ind : Nat
  free : Word
deriving DecidableEq, Repr

/-- A PREF that waits for a translation: its bank, context, regime, world and level, address and hint (R88). -/
structure PrefWait where
  bank : Nat
  regime : BitVec 2
  tenant : Nat
  asid : Nat
  closed : Bool
  va : Word
  hint : Nat
  user : Bool := false
deriving DecidableEq, Repr

/-- A line that a PREF asks for in the L1D, with write permission or without, until it is asked for (R88, R251). -/
structure PrefLine where
  line : Nat
  write : Bool
  tenant : Nat
  closed : Bool
deriving DecidableEq, Repr

/-- An eviction and load under way on a core: the bank, the thread that leaves it and the one that comes, the victim's older
windows, the next row of R184 (spills first, then `w` SAVEL, `w + 1` SAVEH, `w + 2` RESTL, `w + 3` RESTH), whether the
victim ends (R161), whether the pending writes have ended, the edge the next row starts on, the
incoming lower half, and the code of the debug event it serves (R536). -/
structure Move where
  bank : Nat
  victim : Option Nat := none
  next : Option Nat := none
  w : Nat := 0
  row : Nat := 0
  ends : Bool := false
  begun : Bool := false
  at_ : Nat := 0
  lo : List Word := []
  halt : Option Nat := none
deriving DecidableEq, Repr

/-- What a thread without a bank takes with it beyond its folios: the mask of its WAITEV while it waits, that of one not
answered yet, a pending long-operation exception, unmet barriers, an ISYNC that waits, and PBAR (R102, R108, R112, R113, R164). -/
structure Parked where
  slept : Option Nat := none
  waitev : Option Nat := none
  lof : Bool := false
  bars : List BarWait := []
  isync : Option (Nat × Nat) := none
  pbar : Bool := false
deriving DecidableEq, Repr

/-- The MESI states of a held line (R247). -/
inductive Mesi where
  | m | e | s
deriving DecidableEq, Repr

/-- A line held by a cache. A cache is a list of these, the most recently used first (R243). -/
structure CLine where
  line : Nat
  st : Mesi := .s
  dirty : Bool := false
  data : Line := 0
  poison : Bool := false
  tenant : Nat := 0
  way : Nat := 0
deriving DecidableEq, Repr

/-- A busy miss register (R251, R252); a prefetch that reaches only the L2 (`lvl` 2) or the system cache (3) takes no
miss register and stands here until it is looked up (R88). `ports` are the ports that wait to read the line, `wports` those that wait
to own it, and `walks` the walks that wait for it, by port (R210, R251, R252). -/
structure Mshr where
  line : Nat
  write : Bool
  fetch : Bool := false
  pref : Bool := false
  secs : Nat := 0
  ports : List Nat := []
  tenant : Nat := 0
  closed : Bool := false
  waitWb : Bool := false
  asked : Bool := false
  lvl : Nat := 1
  way : Option Nat := none
  tag : Nat := 0
  late : Nat := 0
  wports : List Nat := []
  walks : List Nat := []
  full : Bool := false
deriving DecidableEq, Repr

/-- A stride stream of a core's L1D (R258). -/
structure Stride where
  bank : Nat
  addr : Word
  last : Nat
  delta : Int
  conf : Nat
deriving DecidableEq, Repr


/-- The decode map of the DRAM space and the Closed ranges, as one unit holds it (R206, R307, R437, R581). -/
structure DecodeMap where
  populated : Nat := 0
  regions : List (Nat × Nat × Nat) := []
  carve : List (Nat × Nat) := []
  golden : Option (Nat × Nat) := none
deriving DecidableEq, Repr

/-- One core (R156, R208, R243, R136, R215). -/
structure Core where
  banks : SMap Bank := []
  cyc : Nat := 0
  fastRun : Bool := false
  fastBuf : Option (Nat × Line) := none
  itlb : List TlbEnt := []
  dtlb : List TlbEnt := []
  l2tlb : List TlbEnt := []
  wc1 : List Wc1Ent := []
  wcr : List RootEnt := []
  wc2 : List Wc2Ent := []
  walkI : Option Walk := none
  walkD : Option Walk := none
  l1i : List CLine := []
  l1d : List CLine := []
  mshr : List Mshr := []
  imshr : List Mshr := []
  wb : List WbEnt := []
  btb : List BtbEnt := []
  dirT : SMap DirEnt := []
  indT : SMap IndEnt := []
  strides : List Stride := []
  map : DecodeMap := {}
  pres : SMap Nat := []
  fastSrc : Option Nat := none
  drain : Option Nat := none
  idle : Nat := 0
  ahead : Nat := 0
  prefs : List PrefWait := []
  pfl : List PrefLine := []
  bcq : List Train := []
  ifill : List (Nat × Line × Bool) := []
  move : Option Move := none
deriving DecidableEq, Repr

/-- A line on its way out of an L2, until its Evict or victim offer is answered (R250, R254). -/
structure EvEnt where
  line : Nat
  dirty : Bool
  data : Line
  poison : Bool := false
  offer : Bool := false
  tenant : Nat := 0
  superseded : Bool := false
  miss : Nat := 0
  late : Nat := 0
  tag : Nat := 0
deriving DecidableEq, Repr

/-- An L2 prefetch stream (R259). -/
structure L2Stream where
  core : Nat
  bank : Nat
  page : Nat
  last : Nat
  up : Bool
  run : Nat
deriving DecidableEq, Repr

/-- A running whole-cache maintenance operation (R269): the next set it visits, and the lines whose writeback is not accepted yet. -/
structure MaintOp where
  op : Nat
  level : Nat
  core : Nat
  ways : Nat
  nextSet : Nat := 0
  wait : List Nat := []
deriving DecidableEq, Repr

/-- A cluster: the [cluster] edges since it left reset, its L2 and its scheduler's hidden state (R159, R243, R252, R253). -/
structure Cluster where
  edges : Nat := 0
  l2 : List CLine := []
  mshr : List Mshr := []
  evq : List EvEnt := []
  streams : List L2Stream := []
  maint : Option MaintOp := none
  lastIn : SMap Nat := []
  decide_ : SMap Nat := []
  levels : List Nat := []
  held : List Nat := []
  parked : SMap Parked := []
  snoops : List Pkt := []
deriving DecidableEq, Repr

/-- A directory entry: the clusters that hold the line and the owner in E or M (R247). -/
structure DirLine where
  line : Nat
  holders : List Nat
  owner : Option Nat := none
  poison : Bool := false
deriving DecidableEq, Repr

/-- A line's transaction at its home slice (R249): the request it serves (type 0xE: the eviction of a directory entry,
0xF: the slice's own write to DRAM), the clusters whose snoop answer it awaits, whether a DRAM read or the acceptance of
a DRAM write is awaited (with the edge from which each is late and its tag), the data it has so far, whether its requester is answered,
and whether it waits for an entry in the directory's full set (R247). -/
structure SliceTxn where
  line : Nat
  req : Pkt
  await : List Nat := []
  rd : Bool := false
  wr : Bool := false
  data : Option Line := none
  dirty : Bool := false
  poison : Bool := false
  replied : Bool := false
  late : Nat := 0
  tag : Nat := 0
  wlate : Nat := 0
  wtag : Nat := 0
  evict : Bool := false
deriving DecidableEq, Repr

/-- A system-cache slice with its directory (R243, R247, R249); `stale`: the lines and clusters of snoop answers that came too late
and are discarded when they come (R291). -/
structure Slice where
  lines : List CLine := []
  dir : List DirLine := []
  txns : List SliceTxn := []
  queue : List Pkt := []
  maint : Option MaintOp := none
  stale : List (Nat × Nat) := []
deriving DecidableEq, Repr

/-- A mesh router: the packets in its input buffers (numbered network × 32 + input × 4 + channel), those that wait in a local unit for room
there, the class D requests
that wait for a slot at each local port, the flits it has in the next buffers and those freed there whose credit has not
returned, its round-robin pointers, how long each head has waited, and how long with no class A credit on any output it may take, the last slot used at each local port, the [ref] edges
of the last word on each input and output, its slot tables in force, the fences its anchor holds, the errors counted on
each input and its decode map (R272, R280, R283, R290, R292). -/
structure Router where
  bufs : SMap (List Pkt) := []
  backlog : SMap (List Pkt) := []
  waiting : SMap (List Pkt) := []
  used : SMap Nat := []
  rr : SMap Nat := []
  waited : SMap Nat := []
  starved : SMap Nat := []
  freed : SMap Nat := []
  admitted : SMap Nat := []
  lastWord : SMap Nat := []
  lastSent : SMap Nat := []
  slots : SMap Word := []
  anchorFence : List Nat := []
  dueCnt : SMap Nat := []
  map : DecodeMap := {}
deriving DecidableEq, Repr

/-- A fault report on its way to the collector of a half: the anchor it goes to, its code and the number of its source
island (R471, R510). -/
structure FaultRep where
  anchor : Nat
  code : Nat
  island : Nat
deriving DecidableEq, Repr

/-- A TLB invalidation under way (R211): the core whose MMU_INV started it, the value written, the targets it has not
reached (cores, and 128 and 129 for the PCIe controllers), the accesses its acknowledgements wait for, by core, bank and number (by
controller, 0 and number), and of a broadcast the units that have yet to send their acknowledgement and those whose acknowledgement has
not come. -/
structure Inval where
  by_ : Nat
  v : Word
  todo : List Nat
  marks : List (Nat × Nat × Nat) := []
  units : List Nat := []
  await : List Nat := []
deriving DecidableEq, Repr


/-! ## PCI Express controllers (R229 to R242) -/

/-- One mesh request of an inbound TLP: the address and bytes it covers, its data and byte enables, whether it writes a
whole line, its tag once sent, its answer. -/
structure PLine where
  pa : Nat
  n : Nat
  full : Bool := false
  data : Line := 0
  mask : BitVec 64 := 0
  tag : Option Nat := none
  late : Nat := 0
  done : Bool := false
  got : Line := 0
  bad : Bool := false
deriving DecidableEq, Repr

/-- An inbound TLP in progress, by its number (R234); `cut`: a stop has completed it while lines were open. -/
structure InTlp where
  seq : Nat
  tlp : Tlp
  tenant : Nat
  lines : List PLine
  cut : Bool := false
  pages : List Nat := []
deriving DecidableEq, Repr

/-- What a controller hands to its link: a request TLP, a completion by its status and data, or an MSI (R232 to R235). -/
inductive LinkTx where
  | memory (t : Tlp) (ro : Bool) (tc : Nat)
  | config (write : Bool) (type1 : Bool) (off : Nat) (be : Nat) (data : Nat)
  | completion (tag status : Nat) (poisoned : Bool) (data : List Byte)
  | configAnswer (status data : Nat)
  | msi (addr data : Nat)
deriving DecidableEq, Repr

/-- An outbound request that awaits its completion: the mesh request, its window offset, whether it is a configuration
access, the edge from which it is late, and the TLP sent for it (R232). -/
structure OutReq where
  req : Pkt
  off : Nat
  cfg : Bool
  late : Nat
  tlp : LinkTx
deriving DecidableEq, Repr

/-- A PCIe controller beyond its registers: translation cache, requests in progress and those that wait in the receive buffer, the
PERST_n it drives (with the edge that ends its hold) and sees, the endpoint's configuration header and capabilities as the host has set
them (R236), and the last packets handed to the link. -/
structure Pcie where
  cache : List Wc2Ent := []
  inb : List InTlp := []
  rxq : List Tlp := []
  next : Nat := 0
  out : List OutReq := []
  perst : Bool := false
  perstAt : Nat := 0
  perstIn : Bool := false
  command : BitVec 16 := 0
  bars : SMap Word := []
  msiEn : Bool := false
  msiLog : Nat := 0
  msiAddr : Word := 0
  msiData : Nat := 0
  power : Nat := 0
  caps : SMap Nat := []
  tx : List LinkTx := []
  map : DecodeMap := {}
deriving DecidableEq, Repr

/-! ## Trace and the security block (R463, R519 to R532) -/

/-- What a source has lost since the last DROP for it: bytes, causes, and the time of the first loss (R529). -/
structure Loss where
  bytes : Nat := 0
  cause : Nat := 0
  first : Nat := 0
deriving DecidableEq, Repr

/-- A trace chunk that waits at the Ledger: its source and priority, its packets' bytes, whether it begins with a SYNC, and
what its source lost before it (R520, R527, R529). -/
structure Chunk where
  src : Nat
  prio : Nat
  bytes : List Byte
  sync : Bool := false
  lost : Loss := {}
deriving DecidableEq, Repr

/-- A delivery slot of the key store: its key, and the consumer it is released to (R453). -/
structure KeySlot where
  key : Nat := 0
  consumer : Option Nat := none
deriving DecidableEq, Repr

/-- A crypto job under way: its operation and the inputs it took when it was written (R455 to R457). -/
structure Job where
  op : Nat
  k256 : Bool := false
  src : Nat := 0
  dst : Nat := 0
  len : Nat := 0
  key : Nat := 0
  iv : Nat := 0
deriving DecidableEq, Repr

/-- The key store and the security block beyond its registers (R450 to R465): fuses (lifecycle 0 BLANK, 1 PROVISIONED, 2
DECOMMISSIONED; ordering code), delivery slots, the measurement hash at bootlock, the debug grants made by certificate,
whether a challenge is unused, the write-only data last written, the jobs under way, the version booted and the Closed-world
watchdog's deadline, the public keys derived, and whether the lock of the carve-outs waits for the map to reach every holder. -/
structure Sec where
  life : Nat := 0
  dus : Option Nat := none
  roots : SMap Nat := []
  revoked : Nat := 0
  rollback : Nat := 0
  dbgkey : Option Nat := none
  dbgpol : Nat := 0
  ordering : Nat := 1
  slots : SMap KeySlot := []
  measHash : Nat := 0
  certGrants : Nat := 0
  chalFresh : Bool := false
  cert : SMap Word := []
  jobKey : SMap Word := []
  jobs : SMap Job := []
  version : Nat := 0
  wdtEnd : Option Nat := none
  idPub : Nat := 0
  aliasPub : Nat := 0
  lockReq : Bool := false
deriving DecidableEq, Repr

/-! ## DRAM channels (R299 to R317) -/

/-- A DRAM channel beyond its registers: class D reads, class A reads and writes in queue, requests in the regulators,
with their groups, regulator tokens in 1/64, the open row of each rank × 16 + bank, the next bank to refresh of each rank and the refreshes
deferred, whether it initialises, and what step 1 of its initialisation read: rate, ranks, row_bits, iecc, lecc. -/
structure Chan where
  dq : List Pkt := []
  aq : List Pkt := []
  wq : List Pkt := []
  held : List (Nat × Pkt) := []
  tokens : SMap Nat := []
  rows : SMap Nat := []
  refBank : SMap Nat := []
  deferred : List (Nat × Nat) := []
  initing : Bool := false
  rate : Nat := 0
  ranks : Nat := 1
  rowBits : Nat := 17
  iecc : Bool := true
  lecc : Bool := true
deriving DecidableEq, Repr

/-! ## Message engine (R337 to R378) -/

/-- A consumed descriptor (R350). -/
structure SqDesc where
  asn : Nat
  op : Nat
  more : Bool := false
  a : Word := 0
  b : Word := 0
  tag : Nat := 0
deriving DecidableEq, Repr

/-- A posted receive buffer: its POST's number and tag, and its address (R364). -/
structure RxBuf where
  asn : Nat
  addr : Nat
  tag : Nat
deriving DecidableEq, Repr

/-- A full-line access of a pipeline (R340): its address in the tenant and the data of a write; once it is launched its
place, its tag and the edge it is late on; its answer when it came. -/
structure LineAcc where
  addr : Nat
  write : Option Line := none
  pa : Nat := 0
  tag : Nat := 0
  late : Nat := 0
  sent : Bool := false
  got : Option MemAns := none
deriving DecidableEq, Repr

/-- A complete SEND chain (R366): its descriptors, whether it is started, the reads of its data while they are under way, the
frames not yet in egress queues, its status once it is refused, and the port and timestamp of its first frame. -/
structure TxChain where
  descs : List SqDesc
  started : Bool := false
  loads : List LineAcc := []
  frames : List (List Byte) := []
  status : Option Nat := none
  port : Nat := 63
  ts : Nat := 0
deriving DecidableEq, Repr

/-- A completion that waits for its write (R353); its casn, phase and drop counts are filled when the write is launched. -/
structure Cqe where
  status : Nat
  reason : Nat := 0
  ncons : Nat := 0
  asn : Nat := 0
  tag : Nat := 0
  length : Nat := 0
  nbuf : Nat := 0
  port : Nat := 63
  macc : Nat := 0
  ts : Nat := 0
deriving DecidableEq, Repr

/-- A received message whose bytes are being written into its buffers, and the completion that follows (R364). -/
structure RxFill where
  accs : List LineAcc
  done : Cqe
deriving DecidableEq, Repr

/-- A REBUILD under way (R374): the slots read, the first and the last entry read (casn, asn and ncons, where one stands in its
slot with its phase), the breaks found and the read that goes on. -/
structure CqScan where
  next : Nat := 0
  first : Option (Nat × Nat × Nat) := none
  last : Option (Nat × Nat × Nat) := none
  breaks : List (Nat × Nat × Nat) := []
  acc : LineAcc
deriving DecidableEq, Repr

/-- A frame's segment, a frame or a gateway record that reached a receive channel: its bytes, ingress port and timestamp
(R364, R411). -/
structure Arrival where
  bytes : List Byte
  port : Nat := 63
  ts : Nat := 0
deriving DecidableEq, Repr

/-- A message in reassembly, with the buffers taken for it (R364, R370). -/
structure Reasm where
  macc : Nat
  len : Nat
  bytes : List Byte
  port : Nat
  ts : Nat
  since : Nat
  bufs : List RxBuf := []
deriving DecidableEq, Repr

/-- A queue pair beyond its registers: the ring-state numbers (R356), descriptor reads under way (number, tag, line
address, edge it is late on), the consumed descriptor not yet executed, the SENDs of an unfinished chain, chains, posted buffers, completions
that wait and the one being written with its casn, tag, address and edge, drop counts not yet reported,
arrivals, the message in reassembly, the messages being written, the REBUILD under way, the timed START, the completion a drain ends with, the transmit bucket in 1/16 byte,
the counters of the header template's fields, and the four counters of R378. -/
structure Qp where
  consumed : Nat := 0
  doorbell : Nat := 0
  completed : Nat := 0
  posted : Nat := 0
  acked : Nat := 0
  faultAsn : Nat := 0
  faultStatus : Nat := 0
  aborted : Bool := false
  lastReason : Nat := 0
  drops : Nat := 0
  maccRx : Nat := 0
  stall : Bool := false
  reads : List (Nat × Nat × Option Nat × Nat) := []
  cur : Option SqDesc := none
  part : List SqDesc := []
  chains : List TxChain := []
  free : List RxBuf := []
  cq : List Cqe := []
  posting : Option (Cqe × Nat × Nat × Nat × Nat) := none
  pendDrops : Nat := 0
  pendCause : Nat := 0
  arr : List Arrival := []
  rx : Option Reasm := none
  fills : List RxFill := []
  scan : Option CqScan := none
  startAt : Option (Nat × SqDesc) := none
  stopC : Option Cqe := none
  bucket : Nat := 0
  ipId : Nat := 0
  avtpSeq : Nat := 0
  cnt : SMap Nat := []
deriving DecidableEq, Repr

/-! ## Ethernet (R379 to R415) -/

/-- A frame inside a bridge: addresses, VLAN, priority, drop eligibility, whether it came tagged and that tag, what follows the addresses and tag, the
timestamp, and for a queue pair's frame its tenant, queue pair and chain. -/
structure EFrame where
  dst : Nat
  src : Nat
  vid : Nat := 0
  pcp : Nat := 0
  dei : Bool := false
  tagged : Bool := false
  tci : Nat := 0
  body : List Byte := []
  tc : Nat := 0
  ts : Nat := 0
  owner : Option (Nat × Nat × Nat) := none
deriving DecidableEq, Repr

/-- The settings of a gate control list: its base, cycle, extension and number of entries less 1 (R398, R400). -/
structure GateList where
  base : Nat := 0
  cycle : Nat := 0
  ext : Nat := 0
  len : Nat := 0
deriving DecidableEq, Repr

/-- A port beyond its registers: its egress queues by class, the frame in transmission, credits in 1/1,250,000 bit, the
operative gate list's settings and bank of entries, the change time of a pending list and its settings, the gate states, MACsec keys (salt and SSCI above
the key) of transmit SAs and of receive SC × 4 + SA, SAs whose packet numbers are used up, the write-only key registers,
the SA command whose subkey is being derived, and the last frame handed to the PCS. -/
structure EthPort where
  queues : SMap (List EFrame) := []
  tx : Option EFrame := none
  credit : SMap Int := []
  oper : GateList := {}
  bank : SMap Word := []
  ct : Option Nat := none
  admin : GateList := {}
  gates : Nat := 0xFF
  txKey : SMap Nat := []
  rxKey : SMap Nat := []
  spent : List Nat := []
  sak : SMap Nat := []
  saBusy : Option (Bool × Nat × Nat × Option Nat) := none
  wire : List Byte := []
deriving DecidableEq, Repr

/-- An entry of the forwarding database (R390). -/
structure FdbEnt where
  vid : Nat
  mac : Nat
  fixed : Bool
  ports : Nat
  seen : Nat
deriving DecidableEq, Repr

/-- A stream gate: the list in force and its cycle number, and its state (R403). -/
structure SGate where
  ents : List (Bool × Option Nat × Nat) := []
  cycle : Nat := 0
  isOpen : Bool := true
  ipv : Option Nat := none
deriving DecidableEq, Repr

/-- A recovery function: the last number, the history with its newest first, whether it takes any, since when (R406). -/
structure Recov where
  seq : Nat := 0
  hist : List Bool := []
  any : Bool := true
  since : Nat := 0
deriving DecidableEq, Repr

/-- A bridge beyond its registers: the running fraction of its gPTP time in 1/2^32 ns, forwarding database, stream gates, flow-meter buckets in 1/1,250,000 bit, recovery
functions. -/
structure Bridge where
  frac : Nat := 0
  fdb : List FdbEnt := []
  gates : SMap SGate := []
  commit : SMap Nat := []
  excess : SMap Nat := []
  recov : SMap Recov := []
deriving DecidableEq, Repr

/-! ## CAN, LIN and gateway (R416 to R434) -/

/-- A frame queued in a CAN controller and the [ref] edge it was queued on (R421). -/
structure CanTx where
  f : CanFrame
  since : Nat
deriving DecidableEq, Repr

/-- A CAN controller beyond its registers: its transmit queue, oldest first, and the frame it offers on the bus. -/
structure CanCtl where
  queue : List CanTx := []
  offer : Option CanTx := none
deriving DecidableEq, Repr

/-- A LIN controller beyond its registers: its response buffers, the id whose response is awaited, the next schedule entry, the
last one sent and the edge its break began on, whether the schedule is halted, the end of the last
wake-up signal, and the last bytes sent. -/
structure LinCtl where
  bufs : SMap (List Byte) := []
  await : Option Nat := none
  entry : Nat := 0
  last : Option Nat := none
  breakAt : Nat := 0
  halted : Bool := false
  wakeEnd : Option Nat := none
  wire : List Byte := []
deriving DecidableEq, Repr

/-- A gateway: bus frames that wait with their local source and time, stream frames to unpack, and the sequence number of
each stream slot (R427 to R431). -/
structure Gateway where
  inq : List (Nat × CanFrame × Nat) := []
  streams : List (List Byte) := []
  seqs : SMap Nat := []
deriving DecidableEq, Repr

/-! ## Distributors, anchors and the management hub (R319 to R336, R468 to R518, R573) -/

/-- The distributors beyond their registers: the software lines and the filtered pins that are
high, and the sleeping cores whose wake is asked for (R321, R322, R330, R335). -/
structure Icu where
  soft : List Nat := []
  pins : List Nat := []
  wake : List Nat := []
deriving DecidableEq, Repr

/-- A heartbeat on its way to an anchor: the other anchor's level, split and own flags, and the events it declares, by
their action codes (R469, R476). -/
structure Beat where
  dest : Nat
  level : Nat
  split : Bool
  own : Bool
  decl : List Nat
deriving DecidableEq, Repr

/-- A safety anchor beyond its registers: the [anchor] edges of the last heartbeat received and launched, the events to
declare, the edge that ends the drain of a split, the edge of the last kick and the number of kicks since arming, the code
by which it entered SAFE-STATE and whether by STOP, and the stage of a rejoin it runs as the staying half with the edge
that stage began on. -/
structure Anchor where
  peerAt : Nat := 0
  beatAt : Nat := 0
  decl : List Nat := []
  drain : Option Nat := none
  kickAt : Nat := 0
  kicks : Nat := 0
  lossCode : Nat := 0
  stopped : Bool := false
  rejoin : Option (Nat × Nat) := none
deriving DecidableEq, Repr

/-- A reset that waits for the write buffers of its cores: its RST_REC cause, its target, the requester's router, world
and level, and the cores still draining (R226, R511). -/
structure RSeq where
  cause : Nat
  target : Nat := 0
  src : Nat := 0x3F
  closed : Bool := false
  pl : Nat := 0
  wait : List Nat := []
deriving DecidableEq, Repr

/-- A power sequence under way: its command, and whether its work is stopped and its drain ended (R497, R498). -/
structure PSeq where
  cmd : Nat
  cut : Bool := false
  wait : List Nat := []
deriving DecidableEq, Repr

/-- The management hub beyond its registers: power sequences by domain; the rail setting sent to the power-management IC
with its NACKs so far, and the edge of its ACK; the registers whose status reads other than DONE and is unread; the edges
on which generators lost lock; resets that wait for drains; the edge each sleeping core's clock stopped on; the sleeping
cores with a recorded TLB invalidation; pair commands under way by core pair, with the edge both cores left reset on. -/
structure Hub where
  seqs : SMap PSeq := []
  rail : Option (Nat × Nat) := none
  ackAt : Option Nat := none
  unread : List Nat := []
  lolAt : SMap Nat := []
  resets : List RSeq := []
  slept : SMap Nat := []
  tlbRec : List Nat := []
  pairs : SMap (Nat × Nat) := []
deriving DecidableEq, Repr

/-! ## Boot (R442 to R447) -/

/-- The boot ROM's progress: the step of R442 it has reached, the catalogue it tries and those that have failed, the code
of the first failure, the copy of the header and table, the entry and script record it has reached, the edge a wait or
poll began on, the monitor's destination, length and hash, the mode of the xSPI interface and whether its last read ended
without data. Stage 11: the monitor runs; stage 12: both catalogues have failed. -/
structure Boot where
  stage : Nat := 1
  cat : Nat := 0
  failed : List Nat := []
  first : Nat := 0
  hdr : List Byte := []
  entry : Nat := 0
  rec_ : Nat := 0
  script : List Byte := []
  since : Option Nat := none
  monitor : Option (Nat × Nat × List Byte) := none
  xmode : Nat := 0
  xbad : Bool := false
deriving DecidableEq, Repr

/-! ## Trace encoders, the Ledger and the debug port (R519 to R539, R589) -/

/-- A core's trace encoder beyond its registers: the packets in its buffer and whether they begin with a SYNC, the last
instruction and data addresses, the core edge of its last packet, the bytes emitted since its last SYNC, the reason of the
SYNC its next packet must be, the [ref] edge its core's clock stopped on, the sleep its next packet must tell, whether its
last bundle was not admitted, the [ref] edge of its last packet, what it has lost since its last SYNC, and what was lost
before the open chunk (R521 to R529, R533). -/
structure Enc where
  buf : List Byte := []
  sync : Bool := false
  lastI : Nat := 0
  lastD : Nat := 0
  base : Nat := 0
  since : Nat := 0
  need : Option Nat := none
  slept : Option Nat := none
  wake : Option Nat := none
  excl : Bool := false
  lastAt : Nat := 0
  lost : Loss := {}
  before : Loss := {}
deriving DecidableEq, Repr

/-- The Ledger beyond its registers: the merge buffer with the oldest chunk first, the bytes of the output stream not yet
sent and the length of the stream so far, the source last taken, the losses by source, the sources whose chunks are
discarded until a SYNC, whether the sink is stopped, the last bytes on the trace port, and the line writes of the memory
sink under way by their tag and edge (R528 to R532). -/
structure Ledger where
  merge : List Chunk := []
  out : List Byte := []
  pos : Nat := 0
  last : Nat := 254
  losses : SMap Loss := []
  skip : List Nat := []
  stopped : Bool := false
  port : List Byte := []
  sent : List (Nat × Nat) := []
deriving DecidableEq, Repr

/-- The debug port: whether an access is in progress with its operation, size, world request, address, data, mesh tag and
the edge it was sent on; the status, size, address and read data of the last access (R537); and the thread that a halt command
waits for, by cluster (R536). -/
structure DebugPort where
  busy : Bool := false
  write : Bool := false
  lg : Nat := 0
  cw : Bool := false
  pa : Nat := 0
  data : Word := 0
  tag : Nat := 0
  late : Nat := 0
  status : Nat := 0
  lastLg : Nat := 0
  lastPa : Nat := 0
  lastData : Word := 0
  hcmd : Option (Nat × Nat) := none
deriving DecidableEq, Repr

/-! ## Performance counters (R540 to R560) -/

/-- A sample that waits: its bank and issue edge, the context word and low cycle count, the bundles issued since and the PC
once known (R555). -/
structure Hit where
  bank : Option Nat
  at_ : Nat
  ctx : Nat := 0
  cyc : Nat := 0
  skid : Nat := 0
  pc : Option Word := none
  hidden : Bool := false
deriving DecidableEq, Repr

/-- A sampling comparator: the setting in force, the events counted under it, and the samples that wait (R554, R555). -/
structure Smp where
  set : Word := 0
  n : Nat := 0
  hits : List Hit := []
deriving DecidableEq, Repr

/-- A bandwidth monitor: the setting in force, whether a window runs and its bytes so far, and the tick of its next boundary
(R557). -/
structure BwMon where
  set : Word := 0
  on_ : Bool := false
  bytes : Nat := 0
  edge : Nat := 0
deriving DecidableEq, Repr

/-- The performance monitors: the counters by island × 64 + code (a pipeline's by port), those that wrapped since the last
sample, the sampled copies by island × 2^14 + page × 2^8 + index with the wrap flag in bit 48, the islands sampled while OFF, the
command with its tick (op 0: it has acted), the settings in force by register, the comparators, the sample records on their
way, the readout under way (island and page) with the copy latched, its sn and off flag, whether the last sample was made in
SERVICE mode, the settings written and not yet in force, and the monitors (R540 to R558). -/
structure Pmu where
  cnt : SMap Nat := []
  wraps : List Nat := []
  shadow : SMap Nat := []
  off : List Nat := []
  snap : Option (Nat × Nat) := none
  force : SMap Word := []
  smp : SMap Smp := []
  recs : SMap (List (Word × Word)) := []
  rd : Option (Nat × Nat) := none
  copy : SMap Nat := []
  copySn : Nat := 0
  copyOff : Bool := false
  svc : Bool := false
  moved : List Nat := []
  bw : SMap BwMon := []
deriving DecidableEq, Repr

/-! ## The whole part -/

/-- The state of the part. Configuration registers stand in `regs`, numbered by their offset from 0xF00_0000_0000; a
register that is not listed holds its reset value. Unit tables list the units that differ from their reset state. -/
structure State where
  regs : SMap Word := []
  mem : List Host.Cell := []
  poison : List Nat := []
  ref : Nat := 0
  cores : SMap Core := []
  clusters : SMap Cluster := []
  slices : SMap Slice := []
  routers : SMap Router := []
  reports : List FaultRep := []
  notices : List (Bool × Nat) := []
  invals : List Inval := []
  faulted : List (Nat × Nat) := []
  pcies : SMap Pcie := []
  chunks : List Chunk := []
  sec : Sec := {}
  chans : SMap Chan := []
  qps : SMap Qp := []
  ports : SMap EthPort := []
  bridges : SMap Bridge := []
  cans : SMap CanCtl := []
  lins : SMap LinCtl := []
  gws : SMap Gateway := []
  icu : Icu := {}
  beats : List Beat := []
  anchors : SMap Anchor := []
  hub : Hub := {}
  boot : Boot := {}
  encs : SMap Enc := []
  ledger : Ledger := {}
  dbg : DebugPort := {}
  pmu : Pmu := {}
  inbox : List Pkt := []
  halves : List Pkt := []
  map : DecodeMap := {}
  tags : SMap Nat := []
  openTags : List (Nat × Nat) := []
  deadTags : List (Nat × Nat) := []
  draws : Nat := 0
  pending : List Instr := []
deriving DecidableEq, Repr

/-- The part stops with a fault: an access that a command makes to an address the part does not have. -/
inductive Fault where
  /-- Raised by a command that names a unit (a core, a bank, a router, a port, ...) that the part does not have.
  Safe: the part can receive no such command. -/
  | noSuchUnit
deriving DecidableEq, Repr

/-- Why a command has no next state. -/
inductive Refusal where
  /-- Raised by the arm of a command whose meaning is not written. Safe. -/
  | notModelled (mnemonic : String)
deriving DecidableEq, Repr

/-- A bank as its reset leaves it (R71, R585). -/
def Bank.reset (b : Nat) : Bank := { psw := { bank := b } }

/-- The boot bank, bank 0 of core 112, at the reset vector: thread 0 of cluster 14 runs in it (R513). -/
def Bank.boot : Bank := { pc := 0xFFFFFF00000#64, st := .run, thread := some 0 }

/-- A core as its reset leaves it. -/
def Core.reset (c : Nat) : Core := if c = 112 then { banks := [(0, Bank.boot)] } else {}

/-- The islands whose generators are locked after the start-up: those of core 112 and cluster 14, the routers, the
anchors, the security block and the hub (R494, R501, R515; log 50). -/
def bootIslands : List Nat := [112, 142] ++ (List.range 30).map (160 + ·) ++ [200, 201, 202, 204]

/-- The registers that the start-up leaves away from their reset values: thread 0 of cluster 14 is valid, with priority 7
and RUN, and the generators are locked (R513, R515). The domains of the boot set are ON by their reset values. -/
def bootRegs : SMap Word :=
  [(R.SCHED_THR_A 14 0, BitVec.ofNat 64 (2 ^ 63)), (R.SCHED_THR_B 14 0, BitVec.ofNat 64 (7 + 5 * 2 ^ 48 + 2 ^ 54))] ++
    bootIslands.map (fun i => (R.CLK_ISL i, 2))

/-- The whole part right after a cold reset and its start-up, with nothing waiting (R513, R515). -/
def State.reset : State := { regs := bootRegs }


end Sys2Proof.Machine
end

