-- ==== Sys2Proof/Machine/Ops.lean ====
section
/-! DEFINITION. The named operations over registers, units, memory and packets, and the taking of an exception. -/

namespace Sys2Proof.Machine

/-! ## Configuration registers -/

/-- Whether offset `o` of a block is the place of register `r`. -/
def RegD.at_ (r : RegD) (o : Nat) : Bool :=
  decide (r.off ≤ o) &&
  (let d := o - r.off
   if r.st1 = 0 then d = 0
   else if r.st2 = 0 then d % r.st1 = 0 && decide (d / r.st1 < r.n1)
   else decide (d / r.st1 < r.n1) && d % r.st1 % r.st2 = 0 && decide (d % r.st1 / r.st2 < r.n2))

/-- The block that holds an offset of the register space (R45). -/
def findBlock (a : Nat) : Option BlockD :=
  blocks.find? (fun b => decide (b.base ≤ a) && decide (a < b.base + b.insts * 0x10000))

/-- A register found at an offset: its block, the block's instance, the offset in the block and its description. -/
structure RegAt where
  kind : BlockKind
  inst : Nat
  base : Nat
  off : Nat
  d : RegD
deriving DecidableEq, Repr

/-- Index of the first dimension of a register array at an offset. -/
def RegAt.idx1 (r : RegAt) : Nat := if r.d.st1 = 0 then 0 else (r.off - r.d.off) / r.d.st1

/-- Index of the second dimension. -/
def RegAt.idx2 (r : RegAt) : Nat := if r.d.st2 = 0 then 0 else (r.off - r.d.off) % r.d.st1 / r.d.st2

/-- Whether a register that the block kind lists exists in this instance: DMC_REGION and DMC_REGCTL only in channel 0
(R307), bridge and time registers only in ports 0 and 20 (R414), gateway registers only in CAN blocks 0 and 12 (R434),
CACHE_CORE only in the cluster blocks (R270). -/
def regExists (k : BlockKind) (j : Nat) (o : Nat) (n : String) : Bool :=
  match k with
  | .dmc => j = 0 || !(n == "DMC_REGION" || n == "DMC_REGCTL")
  | .eth => decide (o < 0x4000) || j = 0 || j = 20
  | .tsn => decide (o < 0x4000) || j = 0 || j = 20
  | .can => decide (o < 0x4000) || j = 0 || j = 12
  | .cache => decide (j < 16) || !(n == "CACHE_CORE")
  | _ => true

/-- A register without the fields that its instance reserves: those of CACHE_PCLASS and CACHE_TMAP that only an L2 has (R270), and the
bits of PWR_CWHOLD above domain 217 and island 204 (R516). -/
def shaped (k : BlockKind) (j o : Nat) (r : RegD) : RegD :=
  match k with
  | .cache => if 16 ≤ j && (r.name == "CACHE_PCLASS" || r.name == "CACHE_TMAP") then { r with fields := r.fields.take 1 } else r
  | .pwr =>
    if o = 0xC18 then { r with fields := r.fields.map (fun f => { f with w := 26 }) }
    else if o = 0xC34 then { r with fields := r.fields.map (fun f => { f with w := 13 }) }
    else r
  | _ => r

/-- The register at an offset of the register space, if there is one. -/
def findReg (a : Nat) : Option RegAt :=
  match findBlock a with
  | none => none
  | some b =>
    let j := (a - b.base) / 0x10000
    let o := (a - b.base) % 0x10000
    match b.regs.find? (fun r => r.at_ o) with
    | none => none
    | some r => if regExists b.kind j o r.name then some ⟨b.kind, j, b.base + j * 0x10000, o, shaped b.kind j o r⟩ else none

/-- The reset value that a register's fields give. -/
def fieldsReset : List FieldD → Nat
  | [] => 0
  | f :: fs => (f.rst % 2 ^ f.w) <<< f.lo ||| fieldsReset fs

/-- The reset value of NOC_LINK: `up` for every link that exists (R298). -/
def linkReset (r : Nat) : Nat :=
  let x := r % 6
  let y := r / 6
  (if 0 < y then 1 else 0) + (if x < 5 then 0x10 else 0) + (if y < 4 then 0x100 else 0) + (if 0 < x then 0x1000 else 0)

/-- The action, the escalated action and whether the entry is fixed, of fault code `f` at reset (R472). -/
def fmapReset (f : Nat) : Nat := mget 0 Config.faultActions f

/-- The domains of the boot set: the crypto domain, cluster 14 and core 112 (R513). -/
def bootDomain (d : Nat) : Bool := d = 216 || d = 142 || d = 112

/-- Reset values that depend on the register's own number (R394, R414, R472, R298, R516). -/
def regResetSpecial (r : RegAt) : Option Nat :=
  match r.kind with
  | .noc => if r.off = 0x10 then some (linkReset r.inst) else none
  | .safe => if decide (0x100 ≤ r.off) && decide (r.off < 0x200) then some (fmapReset r.idx1) else none
  | .pwr =>
    if decide (0x100 ≤ r.off) && decide (r.off < 0x100 + 4 * 218) then
      some (if bootDomain r.idx1 then 2 <<< 2 else 0)
    else none
  | .eth =>
    if r.off = 0x28 then some (Config.tscOf r.inst 0)
    else if r.off = 0x8008 then some (0x3FFFFF ||| 0x3FFFFF <<< 22 ||| 1 <<< 44) else none
  | _ => none

/-- The reset value of the register at an offset; 0 where none stands (R13, R15). -/
def regReset (a : Nat) : Word :=
  match findReg a with
  | none => 0
  | some r =>
    match regResetSpecial r with
    | some v => BitVec.ofNat 64 v
    | none => BitVec.ofNat 64 (fieldsReset r.d.fields)

/-- The value held by the register at an offset. -/
def State.reg (s : State) (a : Nat) : Word := mget (regReset a) s.regs a

/-- The register at an offset becomes `v`. -/
def State.setReg (s : State) (a : Nat) (v : Word) : State := { s with regs := mset s.regs a v }

/-- A field of the register at an offset. -/
def State.f (s : State) (a : Nat) (x : Fld) : Nat := fld (s.reg a) x.lo x.w

/-- Whether a one-bit field is 1. -/
def State.on (s : State) (a : Nat) (x : Fld) : Bool := s.f a x ≠ 0

/-- A field of the register at an offset becomes `v`. -/
def State.setF (s : State) (a : Nat) (x : Fld) (v : Nat) : State := s.setReg a (setFld (s.reg a) x.lo x.w v)

/-- A field that counts up and stops at its greatest value gains `n`. -/
def State.incSat (s : State) (a : Nat) (x : Fld) (n : Nat) : State := s.setF a x (min (2 ^ x.w - 1) (s.f a x + n))

/-- A counter field that wraps gains `n`. -/
def State.incWrap (s : State) (a : Nat) (x : Fld) (n : Nat) : State := s.setF a x (s.f a x + n)

/-- The register at an offset returns to its reset value. -/
def State.resetReg (s : State) (a : Nat) : State := { s with regs := mdel s.regs a }

/-- The lock bit of an RWL field, as it stands (R12). -/
def lockHeld (s : State) (r : RegAt) (off b : Nat) : Bool := bit (s.reg (r.base + off)) b

/-- Whether the channel or function that owns the RWS fields of a register is STOPPED (R10, R159, R230, R356, R382,
R419, R423). -/
def ownerStopped (s : State) (r : RegAt) : Bool :=
  match r.kind with
  | .sched =>
    let st := s.f (R.SCHED_THR_B r.inst r.idx1) F.SCHED_THR_B_state
    st = 0 || st = 6
  | .meqt => s.f (R.MEQ_QP_STAT r.inst r.idx1) F.MEQ_QP_STAT_state = 0
  | .eth => s.f (R.ETH_STAT r.inst) F.ETH_STAT_state = 0
  | .tsn => s.f (R.ETH_STAT r.inst) F.ETH_STAT_state = 0
  | .can => s.f (R.CAN_STAT r.inst) F.CAN_STAT_state = 0
  | .lin => s.f (R.LIN_STAT r.inst) F.LIN_STAT_state = 0
  | .pcie => s.f (R.PCIE_STAT r.inst) F.PCIE_STAT_state = 0
  | _ => true

/-- What a write of `v` makes of one field of a register that holds `old` (R10, R12). A field that a command of the
table writes keeps its value. -/
def writeField (s : State) (r : RegAt) (old v : Word) (fd : FieldD) : Nat :=
  let o := fld old fd.lo fd.w
  let n := fld v fd.lo fd.w
  if fd.own then o
  else match fd.ty with
    | .rw => n
    | .ro => o
    | .wo => o
    | .w1c => o &&& (2 ^ fd.w - 1 - n)
    | .w1s => o ||| n
    | .rws => if ownerStopped s r then n else o
    | .rwl off b => if lockHeld s r off b then o else n

/-- The value of a register after a write of `v`: each field by its type, reserved bits 0 (R10, R13). -/
def writeFields (s : State) (r : RegAt) (old v : Word) : List FieldD → Word
  | [] => 0
  | fd :: fs => setFld (writeFields s r old v fs) fd.lo fd.w (writeField s r old v fd)

/-- Whether a register block takes a write of this agent: every block but SCHED_, MMU_ and the Closed-world block
ignores a write from the Open world below P (R240, R270, R297, R337, R376, R413, R433, R466, R492, R516, R539, R560);
in a tenant's MEQ_ block that holds of offsets below 0x1000; the debug port may write SEC_DBG_; SEC_CW_ is reached
only with world 1. -/
def writeAllowed (k : BlockKind) (o : Nat) (ag : Agent) : Bool :=
  let priv := ag.closed || decide (2 ≤ ag.pl.toNat)
  match k with
  | .sched => true
  | .mmu => true
  | .meqt => priv || decide (0x1000 ≤ o)
  | .sec => priv || (ag.debug && decide (0x2000 ≤ o) && decide (o < 0x2200))
  | .seccw => ag.closed
  | _ => priv

/-! ## Units -/

def State.core (s : State) (c : Nat) : Core := mget (Core.reset c) s.cores c
def State.setCore (s : State) (c : Nat) (x : Core) : State := { s with cores := mset s.cores c x }
def Core.bank (c : Core) (b : Nat) : Bank := mget (Bank.reset b) c.banks b
def Core.setBank (c : Core) (b : Nat) (x : Bank) : Core := { c with banks := mset c.banks b x }
def State.bank (s : State) (c b : Nat) : Bank := (s.core c).bank b
def State.setBank (s : State) (c b : Nat) (x : Bank) : State := s.setCore c ((s.core c).setBank b x)
def State.updCore (s : State) (c : Nat) (f : Core → Core) : State := s.setCore c (f (s.core c))
def State.updBank (s : State) (c b : Nat) (f : Bank → Bank) : State := s.setBank c b (f (s.bank c b))
def State.cluster (s : State) (k : Nat) : Cluster := mget {} s.clusters k
def State.setCluster (s : State) (k : Nat) (x : Cluster) : State := { s with clusters := mset s.clusters k x }
def State.updCluster (s : State) (k : Nat) (f : Cluster → Cluster) : State := s.setCluster k (f (s.cluster k))
def State.slice (s : State) (k : Nat) : Slice := mget {} s.slices k
def State.setSlice (s : State) (k : Nat) (x : Slice) : State := { s with slices := mset s.slices k x }
def State.updSlice (s : State) (k : Nat) (f : Slice → Slice) : State := s.setSlice k (f (s.slice k))
def State.router (s : State) (k : Nat) : Router := mget {} s.routers k
def State.setRouter (s : State) (k : Nat) (x : Router) : State := { s with routers := mset s.routers k x }
def State.updRouter (s : State) (k : Nat) (f : Router → Router) : State := s.setRouter k (f (s.router k))

/-- The next number of the run's free values. -/
def State.draw (s : State) : State := { s with draws := s.draws + 1 }

/-! ## Places on the mesh (R20, R21, R22, R45, R271) -/

/-- The router of cluster or slice `c` (R21). -/
def tileRouter (c : Nat) : Nat :=
  let q := c / 4
  let k := c % 4
  6 * (2 * (q / 2) + k / 2) + (1 + 2 * (q % 2) + k % 2)

def clusterUnit (c : Nat) : Nat := 4 * tileRouter c
def sliceUnit (c : Nat) : Nat := 4 * tileRouter c + 1

/-- The router of DRAM channel `m` (R22). -/
def dramRouter (m : Nat) : Nat := if m < 4 then 6 * m else 6 * (m - 4) + 5
def dramUnit (m : Nat) : Nat := 4 * dramRouter m

/-- Message-engine pipeline 0 W or 1 E. -/
def pipeUnit (p : Nat) : Nat := if p = 0 then 4 * 25 else 4 * 28
def pcieUnit (j : Nat) : Nat := if j = 0 then 4 * 24 else 4 * 29
def icuUnit (j : Nat) : Nat := if j = 0 then 4 * 26 + 2 else 4 * 27 + 2
def anchorUnit (j : Nat) : Nat := if j = 0 then 4 * 26 else 4 * 27 + 1
def hubUnit : Nat := 4 * 26 + 1
def secUnit : Nat := 4 * 27
def ledgerUnit : Nat := 4 * 29 + 1
def xspiUnit : Nat := 4 * 24 + 1
/-- The debug port's place on the mesh: (5,4), local port 2. -/
def debugUnit : Nat := 4 * 29 + 2

/-- The cluster of a core (R20). -/
def clusterOf (core : Nat) : Nat := core / 8

/-- The cluster at a unit number, if a cluster stands there. -/
def unitCluster (u : Nat) : Option Nat := (List.range 16).find? (fun c => clusterUnit c = u)

/-- The half, 0 West or 1 East, of a router (R23). -/
def routerHalf (r : Nat) : Nat := if r % 6 < 3 then 0 else 1

/-- The half of a cluster or slice. -/
def clusterHalf (c : Nat) : Nat := routerHalf (tileRouter c)

/-- Hops of a minimal route between two routers (R36). -/
def hops (a b : Nat) : Nat :=
  (max (a % 6) (b % 6) - min (a % 6) (b % 6)) + (max (a / 6) (b / 6) - min (a / 6) (b / 6))

/-! ## Memory -/

/-- What a byte that nothing has written reads as. DESIGN CHOICE (log 2): the spec gives DRAM no contents at power-on;
the model takes 0. Unsafe. -/
def memInit : Byte := 0

/-- The canonical form of memory: addresses strictly rising, no entry equal to what an unlisted address reads as. -/
def memWf : List Host.Cell → Bool
  | [] => true
  | [c] => c.2 ≠ memInit
  | c :: d :: m => c.2 ≠ memInit && decide (c.1 < d.1) && memWf (d :: m)

/-- The byte at an address. -/
def memGet (m : List Host.Cell) (a : Nat) : Byte := mget memInit m a

/-- The byte at an address becomes `v`; the canonical form is kept. -/
def memSet : List Host.Cell → Nat → Byte → List Host.Cell
  | [], a, v => if v = memInit then [] else [(a, v)]
  | (b, w) :: m, a, v =>
    if a < b then (if v = memInit then (b, w) :: m else (a, v) :: (b, w) :: m)
    else if a = b then (if v = memInit then m else (a, v) :: m)
    else (b, w) :: memSet m a v

/-- `n` bytes from an address, as a number, the lowest address least significant (R17). -/
def memRead (m : List Host.Cell) (a : Nat) : Nat → Nat
  | 0 => 0
  | n + 1 => (memGet m a).toNat + 256 * memRead m (a + 1) n

/-- The low `n` bytes of `v` written from an address. -/
def memWrite (m : List Host.Cell) (a v : Nat) : Nat → List Host.Cell
  | 0 => m
  | n + 1 => memWrite (memSet m a (BitVec.ofNat 8 v)) (a + 1) (v / 256) n

/-- The DRAM contents of a line. -/
def State.memLine (s : State) (line : Nat) : Line := BitVec.ofNat 512 (memRead s.mem (64 * line) 64)

/-- A line written to DRAM; a whole-line write clears its poison, or sets it (R289). -/
def State.putLine (s : State) (line : Nat) (d : Line) (p : Bool) : State :=
  { s with mem := memWrite s.mem (64 * line) d.toNat 64,
           poison := if p then line :: s.poison.filter (· ≠ line) else s.poison.filter (· ≠ line) }

/-- A line of `n` bytes with the bytes of `mask` taken from `new`. -/
def mergeLine (old new : Line) (mask : BitVec 64) : Line :=
  mergeFrom old new mask 64
where
  /-- The bytes below `n` merged. -/
  mergeFrom (old new : Line) (mask : BitVec 64) : Nat → Line
    | 0 => old
    | n + 1 =>
      let l := mergeFrom old new mask n
      if mask.getLsbD n then setLineField l n 1 (lineField new n 1) else l

/-- The byte mask of `n` bytes from offset `o` of a line. -/
def byteMask (o n : Nat) : BitVec 64 := BitVec.ofNat 64 ((2 ^ n - 1) <<< o)

/-! ## Coherent view of a line: the modified L1D copy, else the L2 owner's, else the slice's, else DRAM's (R247) -/

def findLine (l : List CLine) (line : Nat) : Option CLine := l.find? (fun c => c.line = line)

/-- The entry of a line replaced, or added in front as the most recently used. -/
def putCLine (l : List CLine) (x : CLine) : List CLine := x :: l.filter (fun c => c.line ≠ x.line)

def dropLine (l : List CLine) (line : Nat) : List CLine := l.filter (fun c => c.line ≠ line)

/-- A hit moves the line to the front: it is the most recently used (R243). -/
def touchLine (l : List CLine) (line : Nat) : List CLine :=
  match findLine l line with
  | none => l
  | some x => putCLine l x

/-- The home slice of a line, from the ten 4-bit groups of its address and its region's interleave set (R246). -/
def homeHash (line : Nat) : Nat :=
  (List.range 10).foldl (fun h i => h ^^^ ((line >>> (4 * i)) % 16)) 0

/-- The interleave set of the region that holds an address: 0 chip-wide, 1 West, 2 East (R246, R307). -/
def DecodeMap.setOf (m : DecodeMap) (pa : Nat) : Nat :=
  match m.regions.find? (fun r => decide (r.1 ≤ pa) && decide (pa < r.1 + r.2.1)) with
  | none => 0
  | some r => r.2.2

def homeSlice (m : DecodeMap) (line : Nat) : Nat :=
  let s := homeHash line
  let k := (s % 8) ^^^ (s / 8)
  match m.setOf (64 * line) with
  | 1 => k % 4 + 8 * (k / 4)
  | 2 => 4 + k % 4 + 8 * (k / 4)
  | _ => s

/-! ## Caches in force (R267) -/

/-- Whether a cluster's L2 is enabled (R267). -/
def l2On (s : State) (k : Nat) : Bool := s.on (R.CACHE_CTL k) F.CACHE_CTL_en
/-- Whether a core's L1D allocates and is looked up (R267). -/
def l1dOn (s : State) (c : Nat) : Bool := l2On s (clusterOf c) && s.on (R.CACHE_CORE (clusterOf c) (c % 8)) F.CACHE_CORE_l1d_en
def l1iOn (s : State) (c : Nat) : Bool := l2On s (clusterOf c) && s.on (R.CACHE_CORE (clusterOf c) (c % 8)) F.CACHE_CORE_l1i_en
/-- Whether a slice is enabled (R267). -/
def sliceOn (s : State) (k : Nat) : Bool := s.on (R.CACHE_CTL (16 + k)) F.CACHE_CTL_en

/-- The slice's copy of a line, if the slice is enabled. -/
def sliceLine (s : State) (k line : Nat) : Option CLine := if sliceOn s k then findLine (s.slice k).lines line else none

/-- The modified copy of a line among the enabled L1Ds of some cores. -/
def l1Modified (s : State) (cores : List Nat) (line : Nat) : Option CLine :=
  match cores with
  | [] => none
  | c :: cs =>
    match findLine (s.core c).l1d line with
    | some x => if x.dirty && l1dOn s c then some x else l1Modified s cs line
    | none => l1Modified s cs line

/-- The cores of a cluster. -/
def clusterCores (k : Nat) : List Nat := (List.range 8).map (8 * k + ·)

/-- The dirty or owned copy of a line within a cluster: an L1D's, else the L2's. A disabled cache takes no part (R267). -/
def clusterCopy (s : State) (k line : Nat) : Option CLine :=
  match l1Modified s (clusterCores k) line with
  | some x => some x
  | none => if l2On s k then findLine (s.cluster k).l2 line else none

/-- The cluster, if any, that holds a line dirty or exclusive. -/
def ownerCopy (s : State) (line : Nat) : List Nat → Option CLine
  | [] => none
  | k :: ks =>
    match clusterCopy s k line with
    | some x => if x.dirty || x.st ≠ .s then some x else ownerCopy s line ks
    | none => ownerCopy s line ks

/-- Whether a packet carries modified data of a line between caches. -/
def carriesDirty (p : Pkt) (line : Nat) : Bool := p.net = 3 && p.pa / 64 = line && p.mask ≠ 0

/-- The first packet of a router's buffers that carries modified data of a line. -/
def bufsDirty (line : Nat) : SMap (List Pkt) → Option Pkt
  | [] => none
  | (_, l) :: m =>
    match l.find? (fun p => carriesDirty p line) with
    | some p => some p
    | none => bufsDirty line m

/-- Modified data of a line on its way: in the eviction entry of the cluster that the directory names as owner, at the home slice, or in a packet (R249, R250). -/
def transitLine (s : State) (line : Nat) : Option (Line × Bool) :=
  let owner := ((s.slice (homeSlice s.map line)).dir.find? (fun d => d.line = line)).bind (fun d => d.owner)
  match owner.bind (fun q => (s.cluster q).evq.find? (fun e => e.line = line && e.dirty && !e.superseded)) with
  | some e => some (e.data, e.poison)
  | none =>
    match (s.slice (homeSlice s.map line)).txns.find? (fun t => t.line = line && (t.dirty || t.wr) && t.data.isSome) with
    | some t => t.data.map (fun d => (d, t.poison))
    | none =>
      match (s.inbox ++ s.halves).find? (fun p => carriesDirty p line) with
      | some p => some (p.data, p.poison)
      | none => (s.routers.findSome? (fun r => bufsDirty line r.2.bufs)).map (fun p => (p.data, p.poison))

/-- The latest value of a line, and whether it is poisoned. -/
def cohLine (s : State) (line : Nat) : Line × Bool :=
  match ownerCopy s line (List.range 16) with
  | some x => (x.data, x.poison)
  | none =>
    match transitLine s line with
    | some x => x
    | none =>
      match sliceLine s (homeSlice s.map line) line with
      | some x => (x.data, x.poison)
      | none => (s.memLine line, decide (line ∈ s.poison))

/-- `n` bytes of the coherent view from an address, within one line. -/
def cohRead (s : State) (pa n : Nat) : Nat := lineField (cohLine s (pa / 64)).1 (pa % 64) n

end Sys2Proof.Machine
end

