-- ==== Sys2Proof/Machine/Operands.lean ====
section
/-! DEFINITION. The registers a syllable names: windows, special registers, M-unit registers, the return stack, and the
view a half-context save takes. -/

namespace Sys2Proof.Machine

/-! ## General registers and windows (R62)

Physical registers are numbered: G[i] is i; K[p][i] is 16 + 32 p + i; H[p][i] is 32 + 32 p + i. -/

def physK (p i : Nat) : Nat := 16 + 32 * p + i
def physH (p i : Nat) : Nat := 32 + 32 * p + i

/-- The position before `p` in the ring of six. -/
def prevPos (p : Nat) : Nat := (p + 5) % 6
/-- The position after `p`. -/
def nextPos (p : Nat) : Nat := (p + 1) % 6

/-- The physical register that a name shows in the window of position `w` (R62); 0 is g0's, which does not exist. -/
def physOf (w n : Nat) : Nat :=
  if n < 16 then n
  else if n < 32 then physH (prevPos w) (n - 16)
  else if n < 48 then physK w (n - 32)
  else physH w (n - 48)

/-- A physical register; 0 reads as 0 (R62). -/
def Bank.rphys (b : Bank) (p : Nat) : Word := if p = 0 then 0 else mget 0 b.phys p

/-- A write of a physical register; a write of 0 is discarded (R62). -/
def Bank.wphys (b : Bank) (p : Nat) (v : Word) : Bank := if p = 0 then b else { b with phys := mset b.phys p v }

/-- The physical register a name shows now. -/
def Bank.nm (b : Bank) (n : BitVec 6) : Nat := physOf b.psw.wcur n.toNat

/-- The value of a general register (R62). -/
def Bank.g (b : Bank) (n : BitVec 6) : Word := b.rphys (b.nm n)

/-- A write of a general register (R62). -/
def Bank.setG (b : Bank) (n : BitVec 6) (v : Word) : Bank := b.wphys (b.nm n) v

/-- The call chain's current position (R63). -/
def Psw.cpos (p : Psw) : Nat := if p.tw then prevPos p.wcur else p.wcur

/-- The oldest resident position (R63). -/
def Psw.oldest (p : Psw) : Nat := (p.cpos + 6 - (p.wres - 1)) % 6

/-! ## M-unit registers (R75) -/

/-- An M-unit register: P0 to P3, QT, RM, DVS. -/
def Bank.m (b : Bank) (i : Nat) : Word := if i = 6 then b.dvs else mget 0 b.mreg i

/-- A write of an M-unit register; of DVS only the fields of type RW (R75, R77). -/
def Bank.setM (b : Bank) (i : Nat) (v : Word) : Bank :=
  if i = 6 then
    { b with dvs := (b.dvs &&& 1#64) ||| (v &&& 0x11E#64) }
  else { b with mreg := mset b.mreg i v }

/-! ## The return stack (R78) -/

def Bank.slot (b : Bank) (i : Nat) : Word := mget 0 b.rs (i % 16)

/-- The push of R78, where it does not trap. -/
def Bank.push (b : Bank) (v : Word) : Bank :=
  { b with rs := mset b.rs (b.rst % 16) v, rst := (b.rst + 1) % 16,
           psw := { b.psw with rsd := if b.psw.rsd < 16 then b.psw.rsd + 1 else b.psw.rsd } }

/-- The value the pop of R78 returns. -/
def Bank.top (b : Bank) : Word := b.slot (b.rst + 15)

/-- The pop of R78, where it does not trap. -/
def Bank.pop (b : Bank) : Bank :=
  { b with rst := (b.rst + 15) % 16,
           psw := if b.psw.rsd = 0 then { b.psw with rsl := true } else { b.psw with rsd := b.psw.rsd - 1 } }

/-! ## Special registers (R70 to R74) -/

/-- PSW as its word (R71). -/
def Psw.word (p : Psw) : Word :=
  BitVec.ofNat 64 (p.pl.toNat + (if p.world then 4 else 0) + (if p.ie then 8 else 0) + (if p.fie then 16 else 0)
    + (p.wcur % 8) * 32 + (p.wres % 8) * 256 + (if p.tw then 2048 else 0) + (if p.rsm then 4096 else 0)
    + (if p.rsl then 8192 else 0) + (p.rsd % 32) * 16384 + (if p.cf0 then 0x80000 else 0)
    + (if p.cf1 then 0x100000 else 0) + (if p.vf0 then 0x200000 else 0) + (if p.vf1 then 0x400000 else 0)
    + (p.bank % 8) * 0x1000000 + (if p.fast then 0x8000000 else 0))

/-- The fields a PSW word holds (R71). -/
def Psw.ofWord (w : Word) : Psw :=
  { pl := BitVec.ofNat 2 (fld w 0 2), world := bit w 2, ie := bit w 3, fie := bit w 4, wcur := fld w 5 3,
    wres := fld w 8 3, tw := bit w 11, rsm := bit w 12, rsl := bit w 13, rsd := fld w 14 5, cf0 := bit w 19,
    cf1 := bit w 20, vf0 := bit w 21, vf1 := bit w 22, bank := fld w 24 3, fast := bit w 27 }

/-- The flags of FLG[3:0] written (R70, R71). -/
def Psw.setFlg (p : Psw) (v : Word) : Psw :=
  { p with cf0 := bit v 0, cf1 := bit v 1, vf0 := bit v 2, vf1 := bit v 3 }

/-- FLG: the view of PSW[22:19] (R70). -/
def Psw.flg (p : Psw) : Word :=
  BitVec.ofNat 64 ((if p.cf0 then 1 else 0) + (if p.cf1 then 2 else 0) + (if p.vf0 then 4 else 0) + (if p.vf1 then 8 else 0))

/-- MTSR to PSW: the RW fields take the written value, rsl is cleared by a written 1, the others stay (R71). -/
def Psw.mtsr (p : Psw) (v : Word) : Psw :=
  { p with ie := bit v 3, fie := bit v 4, rsm := bit v 12, rsl := p.rsl && !bit v 13, cf0 := bit v 19, cf1 := bit v 20,
           vf0 := bit v 21, vf1 := bit v 22 }

/-- The value FPC takes from a write of `v`: a reserved rm leaves rm unchanged, [31:8] read as zero (R72). -/
def fpcWrite (old v : Word) : Word :=
  let rm := if fld v 0 3 ≤ 4 then fld v 0 3 else fld old 0 3
  BitVec.ofNat 64 (rm + fld v 3 5 * 8)

/-- The value LOF takes from a write: its reserved bits are 0 (R73). -/
def lofWrite (v : Word) : Word := v &&& 0xC00FFFFFFFFFFFFF#64

/-- CTXID of a bank (R74). -/
def Bank.ctxid (b : Bank) (core : Nat) : Word :=
  BitVec.ofNat 64 (b.tenant % 512 + (b.asid % 1024) * 512 + (core % 128) * 0x80000 + (b.psw.bank % 8) * 0x4000000)

/-- The value of a special register (R70); PSEC reads as zero. -/
def Bank.sr (b : Bank) (core : Nat) : Nat → Word
  | 0 => b.psw.word
  | 1 => b.psw.flg
  | 2 => b.fpc
  | 3 => b.lof
  | 4 => b.ctxid core
  | 5 => b.folio
  | 6 => b.tvbs
  | 7 => b.tvbp
  | 8 => b.tvbm
  | _ => 0

/-- A write of a special register (R70 to R74). -/
def Bank.setSr (b : Bank) (i : Nat) (v : Word) : Bank :=
  match i with
  | 0 => { b with psw := b.psw.mtsr v }
  | 1 => { b with psw := b.psw.setFlg v }
  | 2 => { b with fpc := fpcWrite b.fpc v }
  | 3 => { b with lof := lofWrite v }
  | 5 => { b with folio := v &&& 0xFFFFFFFFFFFFFFC0#64 }
  | 6 => { b with tvbs := v &&& 0xFFFFFFFFFFFFF000#64 }
  | 7 => { b with tvbp := v &&& 0xFFFFFFFFFFFFF000#64 }
  | 8 => { b with tvbm := v &&& 0xFFFFFFFFFFFFF000#64 }
  | 9 => { b with psec := v }
  | _ => b

/-- The level a special register is read from and written from; none: it has no write level, or the index is reserved
(R70). -/
def srRead (i : Nat) : Option Nat := if i = 0 ∨ i = 1 ∨ i = 2 ∨ i = 4 then some 0
  else if i = 3 ∨ i = 5 ∨ i = 6 then some 1 else if i = 7 ∨ i = 9 then some 2 else if i = 8 then some 3 else none

def srWrite (i : Nat) : Option Nat := if i = 1 ∨ i = 2 then some 0
  else if i = 0 ∨ i = 3 ∨ i = 5 ∨ i = 6 then some 1 else if i = 7 ∨ i = 9 then some 2 else if i = 8 then some 3 else none

/-! ## The view of a half-context save (R174) -/

/-- The view position. -/
def Psw.view (p : Psw) : Nat := p.cpos

/-- Register `i` of the view. -/
def Bank.viewG (b : Bank) (i : Nat) : Word := b.rphys (physOf b.psw.view i)

/-- A write of register `i` of the view. -/
def Bank.setViewG (b : Bank) (i : Nat) (v : Word) : Bank := b.wphys (physOf b.psw.view i) v

end Sys2Proof.Machine
end

