-- ==== Sys2Proof/Machine/Threads.lean ====
section
/-! DEFINITION. The thread table of a cluster scheduler and the setting of event bits (R159, R162, R164, R182, R225). -/

namespace Sys2Proof.Machine

/-- The state code of a thread (R159). -/
def thrState (s : State) (k n : Nat) : Nat := s.f (R.SCHED_THR_B k n) F.SCHED_THR_B_state

def State.setThrState (s : State) (k n c : Nat) : State := s.setF (R.SCHED_THR_B k n) F.SCHED_THR_B_state c

/-- The pending events of a thread and its wait mask. -/
def thrPend (s : State) (k n : Nat) : Nat := s.f (R.SCHED_THR_B k n) F.SCHED_THR_B_pend
def thrMask (s : State) (k n : Nat) : Nat := s.f (R.SCHED_THR_B k n) F.SCHED_THR_B_wmask
def thrPrio (s : State) (k n : Nat) : Nat := s.f (R.SCHED_THR_B k n) F.SCHED_THR_B_prio

/-- The home core of a thread, as a core of the chip. -/
def thrCore (s : State) (k n : Nat) : Nat := 8 * k + s.f (R.SCHED_THR_B k n) F.SCHED_THR_B_core

def thrTenant (s : State) (k n : Nat) : Nat := s.f (R.SCHED_THR_A k n) F.SCHED_THR_A_tenant

/-- A waiting thread whose wait mask meets a pending event becomes READY, or, when it holds no bank and has no debug hold,
READY-OUT (R164, R536). -/
def State.wakeThread (s : State) (k n : Nat) : State :=
  if thrPend s k n &&& thrMask s k n = 0 then s
  else if thrState s k n = 1 then (if (s.cluster k).held.contains n then s else s.setThrState k n 2)
  else if thrState s k n = 3 then
    (s.updBank (thrCore s k n) (s.f (R.SCHED_THR_B k n) F.SCHED_THR_B_bank)
      (fun b => if b.st = .wait then { b with st := .ready } else b)).setThrState k n 4
  else s

/-- An event bit of a thread is set, whatever the thread's state (R162, R166). -/
def State.raiseEvent (s : State) (k n i : Nat) : State :=
  (s.setF (R.SCHED_THR_B k n) F.SCHED_THR_B_pend (thrPend s k n ||| 2 ^ i)).wakeThread k n

/-- Event bit 15 of the supervisor of a thread (R182, R188, R225). -/
def State.contextFault (s : State) (k n : Nat) : State :=
  s.raiseEvent k (s.f (R.SCHED_THR_B k n) F.SCHED_THR_B_sup) 15

/-! ## Degradation and pairs as a scheduler sees them (R477, R478, R480, R490) -/

/-- Whether a tenant is class S for the anchor of a half: tenant 0 always, another by SAFE_TCLS once it is locked. -/
def classS (s : State) (half t : Nat) : Bool :=
  t = 0 || (s.on (R.SAFE_CTL half) F.SAFE_CTL_lock && s.on (R.SAFE_TCLS half t) F.SAFE_TCLS_cls)

/-- The half of a tenant: 0 West, 1 East, 2 both. -/
def tenantHalf (s : State) (half t : Nat) : Nat :=
  if t = 0 || !s.on (R.SAFE_CTL half) F.SAFE_CTL_lock then 2 else min 2 (s.f (R.SAFE_TCLS half t) F.SAFE_TCLS_half)

def safeLevel (s : State) (half : Nat) : Nat := s.f (R.SAFE_STAT half) F.SAFE_STAT_level

/-- Whether a tenant runs in a half: it is neither suspended, nor faulted, nor stopped (R477, R478). -/
def tenantRuns (s : State) (half t : Nat) : Bool :=
  let l := safeLevel s half
  l ≠ 3 && (t = 0 || (!s.faulted.contains (half, t) && (l ≠ 2 || classS s half t)))

/-- The SAFE_PAIR register of a core's cluster, in the block of its half. -/
def pairReg (c : Nat) : Nat := R.SAFE_PAIR (clusterHalf (clusterOf c)) (clusterOf c)

/-- Whether a core takes no part in issue because of its pair: the checker of a formed pair, or a core of a faulted one
(R490, R491). -/
def pairBlocked (s : State) (c : Nat) : Bool :=
  let k := c % 8 / 2
  (s.f (pairReg c) F.SAFE_PAIR_faulted).testBit k || ((s.f (pairReg c) F.SAFE_PAIR_formed).testBit k && c % 2 = 1)

/-! ## Debug authorisations (R463) -/

/-- The authorisations in force, bit 0 Open non-invasive, 1 Open invasive, 2 Closed non-invasive, 3 Closed invasive:
lifecycle 0 BLANK grants all, 2 DECOMMISSIONED the Open ones, any other by the policy and the certificate (R463). -/
def authorised (s : State) (i : Nat) : Bool :=
  let one := fun i => s.sec.dbgpol / 4 ^ i % 4 = 1 || (s.sec.dbgpol / 4 ^ i % 4 = 0 && s.sec.certGrants.testBit i)
  if s.sec.life = 0 then true
  else if s.sec.life = 2 then decide (i < 2)
  else one i || (i % 2 = 0 && one (i + 1))

/-- The authorisations in force as the four bits that registers and reports show. -/
def grantBits (s : State) : Nat := ((List.range 4).map (fun i => if authorised s i then 2 ^ i else 0)).sum

end Sys2Proof.Machine
end

