-- ==== Sys2Proof/Machine/Count.lean ====
section
/-! DEFINITION. The performance counters of every island, the slots of a core's edges, the occupancy events and the
sampling comparators (R540 to R549, R554, R555, R557). -/

namespace Sys2Proof.Machine

/-! ## Counters (R540, R542, R550) -/

/-- An island's counter by its code; a pipeline has no counter here (its ports' counters are registers, R412). -/
def ctrKey (island code : Nat) : Nat := island * 64 + code

/-- Between a freeze and an unfreeze no event counts (R550). -/
def pmuFrozen (s : State) : Bool := s.on R.PMU_SNAP F.PMU_SNAP_frozen

/-- A counter gains `n`; it wraps at 2^48 (R540). -/
def Pmu.add (p : Pmu) (k n : Nat) : Pmu :=
  let v := mget 0 p.cnt k + n
  { p with cnt := mset p.cnt k (v % 2 ^ 48), wraps := if 2 ^ 48 ≤ v then k :: p.wraps.filter (· ≠ k) else p.wraps }

/-- An event of an island counts `n`. -/
def State.pmuAdd (s : State) (island code n : Nat) : State :=
  if n = 0 || pmuFrozen s then s else { s with pmu := s.pmu.add (ctrKey island code) n }

/-- A unit's counter that stands in a register gains `n`; it wraps at 2^48, and a freeze stops it (R540, R550). -/
def State.unitCount (s : State) (a : Nat) (x : Fld) (n : Nat) : State :=
  if n = 0 || pmuFrozen s then s
  else
    let s1 := if 2 ^ 48 ≤ s.f a x + n then { s with pmu := { s.pmu with wraps := a :: s.pmu.wraps.filter (· ≠ a) } } else s
    s1.incWrap a x n

/-- Events of world 1 do not count unless Closed non-invasive debug is authorised (R542). -/
def pmuHidden (s : State) (closed : Bool) : Bool := closed && !authorised s 2

/-- The setting of a PMU_ register that is in force in its island (R558). -/
def pmuSet (s : State) (a : Nat) (x : Fld) : Nat := fld (mget (regReset a) s.pmu.force a) x.lo x.w

/-! ## Sampling (R549, R554, R555) -/

/-- The context word of a bank (R521). -/
def ctxWord (s : State) (c bi : Nat) : Nat :=
  let b := s.bank c bi
  (b.ctxid c).toNat % 2 ^ 29 + b.psw.pl.toNat * 2 ^ 29 + (if b.psw.world then 2 ^ 31 else 0)

/-- Whether a core event is masked in SERVICE mode (R545, R549). -/
def maskedEvent (code : Nat) : Bool := decide (9 ≤ code) && decide (code ≤ 13)

/-- Whether the device is in SERVICE mode (R548). -/
def serviceMode (s : State) : Bool := s.f R.PMU_MODE F.PMU_MODE_mode = 1

/-- The bank whose bundles a core issues: the fast bank while it is active, else the RUN bank. -/
def issuer (k : Core) : Option Nat :=
  if k.fastRun then some 7 else (k.banks.find? (fun p => p.2.st = .run && !p.2.psw.fast)).map (·.1)

/-- A comparator sees `n` events of its kind; reaching a multiple of its period it holds a sample for the bank and issue
edge given (R554). -/
def Smp.see (x : Smp) (n : Nat) (h : Hit) : Smp :=
  let period := fld x.set 8 40
  let m := x.n + n
  { x with n := m, hits := if period ≠ 0 && decide (x.n / period < m / period) then x.hits ++ [h] else x.hits }

/-- An edge on which the issuing bank is at world 1 and hidden: it counts in CYCLES and CLOSED alone (R542). -/
def hiddenEdge (s : State) (c : Nat) : Bool :=
  match issuer (s.core c) with
  | some bi => pmuHidden s (s.bank c bi).psw.world
  | none => false

/-- The comparator of a core sees an event. -/
def State.sample (s : State) (c code n : Nat) (bank : Option Nat) (t : Nat) : State :=
  let x := mget {} s.pmu.smp c
  if n ≠ 0 && bit x.set 6 && fld x.set 0 6 = code && !pmuFrozen s && !(serviceMode s && maskedEvent code) then
    let h : Hit := { bank := bank, at_ := t, cyc := t % 2 ^ 32, ctx := match bank with
      | some b => ctxWord s c b
      | none => 0 }
    { s with pmu := { s.pmu with smp := mset s.pmu.smp c (x.see n h) } }
  else s

/-- A core event tied to a bundle or an access of a bank, on its issue edge (R541, R542). -/
def State.ev (s : State) (c bi code n : Nat) : State :=
  if n = 0 || pmuHidden s (s.bank c bi).psw.world then s
  else (s.pmuAdd c code n).sample c code n (some bi) (s.core c).cyc

/-- A core event that is not tied to a bundle: t = e - 2 (R555); on a hidden edge only CYCLES counts (R542). -/
def State.evc (s : State) (c code n : Nat) : State :=
  if code ≠ 0 && hiddenEdge s c then s else (s.pmuAdd c code n).sample c code n (issuer (s.core c)) ((s.core c).cyc - 2)

/-! ## Slots and occupancy (R543, R544) -/

/-- Whether the issuing bank's stage IS holds no bundle: a fetch or its translation is awaited, an entry or a wait is under
way. -/
def fetchEmpty (b : Bank) : Bool :=
  b.fwait.isSome || b.missing || b.entry.isSome || b.isync.isSome || b.waitev.isSome

/-- The hold that keeps a bank's bundle at IS: a STCOND, a barrier, load data, a long operation (R545). -/
def holdCode (b : Bank) : Nat :=
  if b.stc.isSome then 0x26 else if b.bars ≠ [] then 0x25 else if b.loads ≠ [] then 0x23
  else if b.fly.any (fun f => f.kind = .load) then 0x23 else 0x24

/-- How many of a core's units are in use: L1D miss registers, walks, write-buffer entries, READY banks. -/
def occMshr (k : Core) : Nat := (k.mshr.filter (fun m => m.lvl = 1)).length
def occWalk (k : Core) : Nat := (if k.walkI.any (·.l2) then 1 else 0) + (if k.walkD.any (·.l2) then 1 else 0)
def occWb (k : Core) : Nat :=
  min 2 (k.wb.filter (fun e => e.kind = .stack)).length + min 16 (k.wb.filter (fun e => e.kind = .normal || e.kind = .nc || e.kind = .dev)).length
def occReady (k : Core) : Nat := (k.banks.filter (fun p => p.2.st = .ready)).length

/-- The occupancy events of `d` edges of a core (R544). -/
def State.occupancy (s : State) (c d : Nat) : State :=
  let k := s.core c
  let a := R.PMU_CTHR c
  let one := fun (s : State) (code occ n : Nat) => if n < occ then s.evc c code d else s
  one (one (one (one s 0x14 (occMshr k) (pmuSet s a F.PMU_CTHR_n14)) 0x19 (occWalk k) (pmuSet s a F.PMU_CTHR_n19))
    0x1E (occWb k) (pmuSet s a F.PMU_CTHR_n1e)) 0x3D (occReady k) (pmuSet s a F.PMU_CTHR_n3d)

/-- The code a wasted slot counts in (R549). -/
def wastedCode (s : State) : Nat := if serviceMode s then 0x04 else 0x03

/-- `d` clocked edges of a core pass, each in one class; the last in the class `last` where it is given (R543). -/
def State.slots (s : State) (c d : Nat) (last : Option Nat) : State :=
  if d = 0 then s
  else
    let k := s.core c
    let s1 := (s.evc c 0 d).occupancy c d
    match issuer k with
    | none => s1.evc c 1 d
    | some bi =>
      let b := k.bank bi
      if pmuHidden s b.psw.world then (s1.pmuAdd c 6 d).updCore c (fun k => k.setBank bi { b with waste := 0 })
      else
        let r := if last.isSome then d - 1 else d
        let front := if fetchEmpty b then r else min r (b.ready - (k.cyc + 1))
        let w := min b.waste front
        let back := r - front
        let s2 := (((s1.evc c (wastedCode s) w).evc c 4 (front - w)).evc c 5 back).evc c (holdCode b) back
        let s3 := match last with
          | some code => s2.evc c code 1
          | none => s2
        let s4 := if b.depth ≠ 0 then s3.evc c 0x3F d else s3
        if b.waste = 0 then s4 else s4.updCore c (fun k => k.setBank bi { b with waste := 0 })

/-! ## Bandwidth monitors (R557) -/

/-- Whether a monitor's setting in force watches a point: 1 a router's output and network, 2 a DRAM channel, 3 a port; `dir` 0 read or
receive, 1 write or transmit. -/
def BwMon.watches (m : BwMon) (kind unit out net dir : Nat) : Bool :=
  let d := fld m.set 13 2
  m.on_ && fld m.set 0 2 = kind && fld m.set 2 6 = unit && (kind ≠ 1 || (fld m.set 8 3 = out && fld m.set 11 2 = net)) &&
    (kind = 1 || d = dir || decide (2 ≤ d))

/-- Bytes pass a point. -/
def State.passed (s : State) (kind unit out net dir n : Nat) : State :=
  { s with pmu := { s.pmu with bw := s.pmu.bw.map (fun q => (q.1, if q.2.watches kind unit out net dir then { q.2 with bytes := q.2.bytes + n } else q.2)) } }

end Sys2Proof.Machine
end

