-- ==== Sys2Proof/Machine/Frames.lean ====
section
/-! DEFINITION. Bytes of frames: addresses, tags, the CRC-32C, checksums, timestamps. -/

namespace Sys2Proof.Machine

/-- The number whose bytes are `bs`, most significant first. -/
def beNat (bs : List Byte) : Nat := bytesNat bs.reverse

/-- The low `n` bytes of `v`, most significant first. -/
def beBytes (n v : Nat) : List Byte := (wordBytes n v).reverse

/-- `n` elements of a list from place `o`; missing ones are left out. -/
def sub {α : Type} (bs : List α) (o n : Nat) : List α := (bs.drop o).take n

/-- The number in `n` bytes from place `o`, most significant first. -/
def beAt (bs : List Byte) (o n : Nat) : Nat := beNat (sub bs o n)

/-- Bytes from place `o` replaced by `v`, most significant first, where they all exist (R410). -/
def bePut (bs : List Byte) (o n v : Nat) : List Byte :=
  if o + n ≤ bs.length then bs.take o ++ beBytes n v ++ bs.drop (o + n) else bs

/-- `n` zero bytes. -/
def zeros (n : Nat) : List Byte := List.replicate n 0

/-- One bit of the reflected CRC-32C. -/
def crcBit (c : BitVec 32) : BitVec 32 := if c.getLsbD 0 then (c >>> 1) ^^^ 0x82F63B78#32 else c >>> 1

/-- `n` bits of the CRC. -/
def crcBits (c : BitVec 32) : Nat → BitVec 32
  | 0 => c
  | n + 1 => crcBits (crcBit c) n

/-- The CRC register after a list of bytes. -/
def crcBytes (c : BitVec 32) : List Byte → BitVec 32
  | [] => c
  | b :: bs => crcBytes (crcBits (c ^^^ b.setWidth 32) 8) bs

/-- The CRC-32C: polynomial 0x1EDC_6F41 reflected, initial value and final exclusive-or 0xFFFF_FFFF (R369). -/
def crc32c (bs : List Byte) : Nat := (crcBytes 0xFFFFFFFF#32 bs ^^^ 0xFFFFFFFF#32).toNat

/-- The sum of the 16-bit words of some bytes, most significant byte first, the last one padded with zero. -/
def sum16 : List Byte → Nat
  | [] => 0
  | [a] => a.toNat * 256
  | a :: b :: bs => a.toNat * 256 + b.toNat + sum16 bs

/-- A sum folded to 16 bits with end-around carry. -/
def fold16 (n : Nat) : Nat :=
  let a := n % 65536 + n / 65536
  let b := a % 65536 + a / 65536
  b % 65536 + b / 65536

/-- The Internet checksum of a sum. -/
def inetSum (n : Nat) : Nat := 0xFFFF - fold16 n

/-! ## Ethernet frames -/

/-- The EtherType of a frame's body. -/
def EFrame.etype (f : EFrame) : Nat := beAt f.body 0 2

/-- A frame from its bytes, destination address first and FCS left out; the C-tag's VID and priority stand as sent. -/
def parseFrame (bs : List Byte) : EFrame :=
  let tag := beAt bs 12 2 = 0x8100
  let t := beAt bs 14 2
  if tag then
    { dst := beAt bs 0 6, src := beAt bs 6 6, tagged := true, pcp := t / 8192, dei := (t / 4096) % 2 = 1, vid := t % 4096, tci := t,
      body := bs.drop 16 }
  else { dst := beAt bs 0 6, src := beAt bs 6 6, body := bs.drop 12 }

/-- The bytes of a frame with or without its C-tag (TPID 0x8100, R388). -/
def EFrame.bytes (f : EFrame) (tag : Bool) : List Byte :=
  beBytes 6 f.dst ++ beBytes 6 f.src
    ++ (if tag then beBytes 2 0x8100 ++ beBytes 2 (f.pcp * 8192 + (if f.dei then 4096 else 0) + f.vid) else []) ++ f.body

/-- The length of a frame's bytes with its tag as it stands. -/
def EFrame.size (f : EFrame) : Nat := 12 + (if f.tagged then 4 else 0) + f.body.length

/-- Whether a frame carries an R-TAG (R405). -/
def EFrame.rtag (f : EFrame) : Bool := f.etype = 0xF1C1

/-- Whether a frame is an IEEE 1722 frame of the NTSCF subtype, 0x82 (R431). PRESUMED: the subtype's number is IEEE
1722's (log 32). -/
def EFrame.ntscf (f : EFrame) : Bool := f.etype = 0x22F0 && beAt f.body 2 1 = 0x82

/-! ## Headers that classification parses (R378, R411): the kind, its key, and where the payload starts in the body -/

/-- The IPv4 header of a body: its length, when the frame is IPv4 over UDP and no fragment. -/
def ipv4Udp (f : EFrame) : Option Nat :=
  let h := beAt f.body 2 1
  if f.etype = 0x0800 && h / 16 = 4 && beAt f.body 11 1 = 17 && beAt f.body 8 2 % 0x4000 = 0
      && decide (5 ≤ h % 16) then some (4 * (h % 16)) else none

/-- Whether the frame is IPv6 with UDP next. -/
def ipv6Udp (f : EFrame) : Bool := f.etype = 0x86DD && beAt f.body 2 1 / 16 = 6 && beAt f.body 8 1 = 17

/-- The place in the body of the UDP header, and whether it is over IPv6. -/
def udpAt (f : EFrame) : Option (Nat × Bool) :=
  match ipv4Udp f with
  | some n => some (2 + n, false)
  | none => if ipv6Udp f then some (42, true) else none

/-- Whether a match entry of a kind matches a frame: the value under the mask (R378). -/
def kindKey (f : EFrame) (kind : Nat) : Option Nat :=
  match kind with
  | 1 => some (f.etype + f.vid * 65536 + (if f.tagged then 2 ^ 28 else 0))
  | 2 => (udpAt f).map (fun u => beAt f.body (u.1 + 2) 2 + (if u.2 then 65536 else 0))
  | 3 => if f.etype = 0x22F0 then some (beAt f.body 6 8) else none
  | _ => none

/-- Where the header that a match kind names ends in the body: after the EtherType, the UDP header or the AVTP header of
12 bytes for NTSCF and 24 otherwise (R410, R411). -/
def kindEnd (f : EFrame) (kind : Nat) : Nat :=
  match kind with
  | 2 => (udpAt f).elim 2 (fun u => u.1 + 8)
  | 3 => 2 + (if f.ntscf then 12 else 24)
  | _ => 2

/-- Whether the checksums of a frame are bad (R411): an IPv4 header sum, a non-zero UDP sum over IPv4, or a UDP sum over
IPv6 that is zero or bad. -/
def badChecksum (f : EFrame) : Bool :=
  let p := f.body.drop 2
  let ihl := 4 * (beAt p 0 1 % 16)
  let bad4 := f.etype = 0x0800 && inetSum (sum16 (p.take ihl)) ≠ 0
  let udp := match udpAt f with
    | none => false
    | some (o, six) =>
      let u := sub f.body o (beAt f.body (o + 4) 2)
      let ps := if six then sum16 (sub p 8 32) else sum16 (sub p 12 8)
      let ck := beAt f.body (o + 6) 2
      let sum := inetSum (ps + 17 + beAt f.body (o + 4) 2 + sum16 u)
      if six then ck = 0 || sum ≠ 0 else ck ≠ 0 && sum ≠ 0
  bad4 || udp

/-! ## gPTP time of a pipeline (R392, R393), in 1/2^32 ns -/

/-- The block that holds a half's bridge and time registers. -/
def brBlock (half : Nat) : Nat := 20 * half

def State.bridge (s : State) (h : Nat) : Bridge := mget {} s.bridges h
def State.setBridge (s : State) (h : Nat) (x : Bridge) : State := { s with bridges := mset s.bridges h x }
def State.updBridge (s : State) (h : Nat) (f : Bridge → Bridge) : State := s.setBridge h (f (s.bridge h))

/-- The gPTP time of a half. -/
def gptp (s : State) (half : Nat) : Nat := s.f (R.TSN_TNS (brBlock half)) F.TSN_TNS_ns * 2 ^ 32 + (s.bridge half).frac

/-- The gPTP time of a half in ns. -/
def gptpNs (s : State) (half : Nat) : Nat := s.f (R.TSN_TNS (brBlock half)) F.TSN_TNS_ns

/-- The gPTP time of a half becomes `t`. -/
def State.setGptp (s : State) (half t : Nat) : State :=
  (s.setF (R.TSN_TNS (brBlock half)) F.TSN_TNS_ns (t / 2 ^ 32)).updBridge half (fun b => { b with frac := t % 2 ^ 32 })

/-- A timestamp in ns from a time, a signed wait in 1/16 of a period of `per` hundredths of a ns, and a signed correction
in 1/2^16 ns (R393). -/
def stamp (t : Nat) (wait per corr : Int) : Nat := (((t : Int) + corr * 65536 + wait * per * 2 ^ 32 / 1600) / 2 ^ 32).toNat

def State.port (s : State) (p : Nat) : EthPort := mget {} s.ports p
def State.setPort (s : State) (p : Nat) (x : EthPort) : State := { s with ports := mset s.ports p x }
def State.updPort (s : State) (p : Nat) (f : EthPort → EthPort) : State := s.setPort p (f (s.port p))
def State.qp (s : State) (t q : Nat) : Qp := mget {} s.qps (8 * t + q)
def State.setQp (s : State) (t q : Nat) (x : Qp) : State := { s with qps := mset s.qps (8 * t + q) x }
def State.updQp (s : State) (t q : Nat) (f : Qp → Qp) : State := s.setQp t q (f (s.qp t q))
def State.gw (s : State) (h : Nat) : Gateway := mget {} s.gws h
def State.setGw (s : State) (h : Nat) (x : Gateway) : State := { s with gws := mset s.gws h x }
def State.updGw (s : State) (h : Nat) (f : Gateway → Gateway) : State := s.setGw h (f (s.gw h))

/-- A port counter gains `n`, wrapping at 2^48 (R412). -/
def State.ethCount (s : State) (p i n : Nat) : State := s.unitCount (R.ETH_CNT p i) F.ETH_CNT_count n

end Sys2Proof.Machine
end

