-- ==== Sys2Proof/Machine/Crypto.lean ====
section
/-! DEFINITION. The cryptography that the spec names by its standards: SM3, the key derivation and SM2 of GB/T 32905 and GB/T
32918, SM4 of GB/T 32907, AES, and GCM (R381, R448, R449, R451, R455). PRESUMED: the algorithms are the standards' (log 34). -/

namespace Sys2Proof.Machine

/-! ## SM3 -/

def sm3P0 (x : BitVec 32) : BitVec 32 := x ^^^ x.rotateLeft 9 ^^^ x.rotateLeft 17
def sm3P1 (x : BitVec 32) : BitVec 32 := x ^^^ x.rotateLeft 15 ^^^ x.rotateLeft 23

/-- The message words, newest first: the next is made of the last sixteen. -/
def sm3Expand (l : List (BitVec 32)) : Nat → List (BitVec 32)
  | 0 => l
  | n + 1 =>
    let w := sm3Expand l n
    let g (i : Nat) : BitVec 32 := w.getD (i - 1) 0
    (sm3P1 (g 16 ^^^ g 9 ^^^ (g 3).rotateLeft 15) ^^^ (g 13).rotateLeft 7 ^^^ g 6) :: w

/-- One round on the registers A to H. -/
def sm3Round (w : List (BitVec 32)) (v : List (BitVec 32)) (j : Nat) : List (BitVec 32) :=
  match v with
  | [a, b, c, d, e, f, g, h] =>
    let t : BitVec 32 := if j < 16 then 0x79CC4519 else 0x7A879D8A
    let a12 := a.rotateLeft 12
    let ss1 := (a12 + e + t.rotateLeft (j % 32)).rotateLeft 7
    let ff := if j < 16 then a ^^^ b ^^^ c else (a &&& b) ||| (a &&& c) ||| (b &&& c)
    let gg := if j < 16 then e ^^^ f ^^^ g else (e &&& f) ||| (~~~ e &&& g)
    let tt1 := ff + d + (ss1 ^^^ a12) + (w.getD j 0 ^^^ w.getD (j + 4) 0)
    let tt2 := gg + h + ss1 + w.getD j 0
    [tt1, a, b.rotateLeft 9, c, sm3P0 tt2, e, f.rotateLeft 19, g]
  | _ => v

/-- One block of 64 bytes. -/
def sm3Block (v : List (BitVec 32)) (b : List Byte) : List (BitVec 32) :=
  let w0 := ((List.range 16).map (fun i => BitVec.ofNat 32 (beAt b (4 * i) 4))).reverse
  let w := (sm3Expand w0 52).reverse
  List.zipWith (· ^^^ ·) v ((List.range 64).foldl (sm3Round w) v)

/-- The blocks in turn. -/
def sm3Blocks (v : List (BitVec 32)) (b : List Byte) : Nat → List (BitVec 32)
  | 0 => v
  | n + 1 => sm3Blocks (sm3Block v (b.take 64)) (b.drop 64) n

def sm3Iv : List (BitVec 32) :=
  [0x7380166F, 0x4914B2B9, 0x172442D7, 0xDA8A0600, 0xA96F30BC, 0x163138AA, 0xE38DEE4D, 0xB0FB0E4E]

/-- The SM3 hash of some bytes, 32 bytes. -/
def sm3 (m : List Byte) : List Byte :=
  let p := m ++ [0x80#8] ++ zeros ((119 - m.length % 64) % 64) ++ beBytes 8 (8 * m.length)
  (sm3Blocks sm3Iv p (p.length / 64)).flatMap (fun x => beBytes 4 x.toNat)

/-- The key derivation of GB/T 32918 with 256 bits of output (R451). -/
def kdf (z : List Byte) : List Byte := sm3 (z ++ beBytes 4 1)

/-! ## SM2, over the recommended 256-bit curve (R448) -/

def sm2P : Nat := 0xFFFFFFFEFFFFFFFFFFFFFFFFFFFFFFFFFFFFFFFF00000000FFFFFFFFFFFFFFFF
def sm2A : Nat := 0xFFFFFFFEFFFFFFFFFFFFFFFFFFFFFFFFFFFFFFFF00000000FFFFFFFFFFFFFFFC
def sm2B : Nat := 0x28E9FA9E9D9F5E344D5A9E4BCF6509A7F39789F515AB8F92DDBCBD414D940E93
def sm2N : Nat := 0xFFFFFFFEFFFFFFFFFFFFFFFFFFFFFFFF7203DF6B21C6052B53BBF40939D54123
def sm2G : Nat × Nat :=
  (0x32C4AE2C1F1981195F9904466A39C9948FE30BBFF2660BE1715A4589334C74C7,
   0xBC3736A2F4F6779C59BDCEE36B692153D0A9877CC62A474002DF32E52139F0A0)

/-- `b ^ e` modulo `m`, over the low `n` bits of `e`. -/
def powMod (b e m : Nat) : Nat → Nat
  | 0 => 1 % m
  | n + 1 =>
    let r := powMod b (e / 2) m n
    if e % 2 = 1 then r * r % m * b % m else r * r % m

/-- The inverse modulo a 256-bit prime. -/
def invMod (x m : Nat) : Nat := powMod x (m - 2) m 256

/-- Points of the curve, none the point at infinity. -/
abbrev Point := Option (Nat × Nat)

def sm2Add (a b : Point) : Point :=
  match a, b with
  | none, q => q
  | p, none => p
  | some (x1, y1), some (x2, y2) =>
    let p := sm2P
    if x1 = x2 ∧ (y1 + y2) % p = 0 then none
    else
      let l := if x1 = x2 then (3 * x1 * x1 + sm2A) * invMod (2 * y1 % p) p % p
        else (y2 + p - y1) * invMod ((x2 + p - x1) % p) p % p
      let x3 := (l * l + 2 * p - x1 - x2) % p
      some (x3, (l * (x1 + p - x3) + p - y1) % p)

/-- A multiple of a point, over the low `n` bits of the factor. -/
def sm2Mul (k : Nat) (q : Point) : Nat → Point
  | 0 => none
  | n + 1 =>
    let r := sm2Mul (k / 2) q n
    let d := sm2Add r r
    if k % 2 = 1 then sm2Add d q else d

/-- A public key, x then y. -/
def sm2Pub (d : Nat) : List Byte :=
  match sm2Mul d (some sm2G) 256 with
  | some (x, y) => beBytes 32 x ++ beBytes 32 y
  | none => zeros 64

/-- The digest that a signature covers: e = SM3(Z ‖ M) (R448). -/
def sm2Digest (pub m : List Byte) : Nat :=
  let id : List Byte := [0x31, 0x32, 0x33, 0x34, 0x35, 0x36, 0x37, 0x38, 0x31, 0x32, 0x33, 0x34, 0x35, 0x36, 0x37, 0x38]
  let z := sm3 (beBytes 2 0x80 ++ id ++ beBytes 32 sm2A ++ beBytes 32 sm2B ++ beBytes 32 sm2G.1 ++ beBytes 32 sm2G.2 ++ pub)
  beNat (sm3 (z ++ m))

/-- Whether r, s sign a message under a public key of 64 bytes; r or s outside 1 to n − 1 fails, and so does a key that is
no point of the curve (R448). -/
def sm2Verify (pub m sig : List Byte) : Bool :=
  let x := beAt pub 0 32
  let y := beAt pub 32 32
  let r := beAt sig 0 32
  let s := beAt sig 32 32
  let t := (r + s) % sm2N
  decide (1 ≤ r) && decide (r < sm2N) && decide (1 ≤ s) && decide (s < sm2N) && decide (x < sm2P) && decide (y < sm2P)
    && decide (y * y % sm2P = (x * x % sm2P * x + sm2A * x + sm2B) % sm2P) && t ≠ 0
    && (match sm2Add (sm2Mul s (some sm2G) 256) (sm2Mul t (some (x, y)) 256) with
        | some (x1, _) => decide ((sm2Digest pub m + x1) % sm2N = r)
        | none => false)

/-- A signature by a private key with the secret number `k`. -/
def sm2Sign (d k : Nat) (pub m : List Byte) : List Byte :=
  let x1 := match sm2Mul k (some sm2G) 256 with
    | some (x, _) => x
    | none => 0
  let r := (sm2Digest pub m + x1) % sm2N
  let s := invMod (1 + d) sm2N * ((k + (sm2N - r) * d) % sm2N) % sm2N
  beBytes 32 r ++ beBytes 32 s

/-! ## SM4 and AES -/

/-- A table of 256 bytes as one number, entry 0 least significant. -/
def sbox (t : Nat) (b : Byte) : Byte := BitVec.ofNat 8 (t >>> (8 * b.toNat))

def sm4Table : Nat := 0x4839cbd73e5fee79204ddc3aec7df01884c66ec509f1b9657e77960c4a976989b0b4e5b812d0742dbd7bcda58831c10ad85a101f415cd9117fbcddbb92af1b8d515b6c6d726aff032f8efdde4537dbd56f4e530dab2329c060ca66822ee2f61de3b18cf5303293ad551a349ba45daee0a11561f9cef2f7a3b538c740d28abfea9ec8c4a0e702364c5227d39f574600d4877821013b7c2225a2d158635e0e241e359d56704b0febf88bda6471b2816b68a84f85e6193c5983ba1773f3fca70747a63f8f75fa94df8095e808c9a91cb3e462accfed430b54337a98ef91f450429c99068649261344aac304be2a769a672b052cfb28c214b616b73de1ccfee990d6

def aesTable : Nat := 0x16bb54b00f2d99416842e6bf0d89a18cdf2855cee9871e9b948ed9691198f8e19e1dc186b95735610ef6034866b53e708a8bbd4b1f74dde8c6b4a61c2e2578ba08ae7a65eaf4566ca94ed58d6d37c8e779e4959162acd3c25c2406490a3a32e0db0b5ede14b8ee4688902a22dc4f816073195d643d7ea7c41744975fec130ccdd2f3ff1021dab6bcf5389d928f40a351a89f3c507f02f94585334d43fbaaefd0cf584c4a39becb6a5bb1fc20ed00d153842fe329b3d63b52a05a6e1b1a2c830975b227ebe28012079a059618c323c7041531d871f1e5a534ccf73f362693fdb7c072a49cafa2d4adf04759fa7dc982ca76abd7fe2b670130c56f6bf27b777c63

/-- A substitution of each byte of a word. -/
def subWord (t : Nat) (x : BitVec 32) : BitVec 32 :=
  BitVec.ofNat 32 (bytesNat ((wordBytes 4 x.toNat).map (sbox t)))

/-- The last four words, newest first, of a chain of 32 rounds. -/
def sm4Keys (k : List (BitVec 32)) : Nat → List (BitVec 32)
  | 0 => k
  | n + 1 =>
    let l := sm4Keys k n
    let g (i : Nat) : BitVec 32 := l.getD i 0
    let ck : BitVec 32 := BitVec.ofNat 32 (beNat ((List.range 4).map (fun j => BitVec.ofNat 8 ((4 * n + j) * 7))))
    let b := subWord sm4Table (g 2 ^^^ g 1 ^^^ g 0 ^^^ ck)
    (g 3 ^^^ b ^^^ b.rotateLeft 13 ^^^ b.rotateLeft 23) :: l

def sm4Rounds (rk : List (BitVec 32)) (x : List (BitVec 32)) : List (BitVec 32) :=
  rk.foldl (fun l k =>
    let g (i : Nat) : BitVec 32 := l.getD i 0
    let b := subWord sm4Table (g 2 ^^^ g 1 ^^^ g 0 ^^^ k)
    (g 3 ^^^ b ^^^ b.rotateLeft 2 ^^^ b.rotateLeft 10 ^^^ b.rotateLeft 18 ^^^ b.rotateLeft 24) :: l.take 3) x

/-- SM4 of a block under a 128-bit key, both as numbers with the first byte most significant. -/
def sm4Enc (key x : Nat) : Nat :=
  let w (v i : Nat) : BitVec 32 := BitVec.ofNat 32 (v >>> (32 * (3 - i)))
  let fk : List (BitVec 32) := [0xA3B1BAC6, 0x56AA3350, 0x677D9197, 0xB27022DC]
  let mk := (List.range 4).map (fun i => w key i ^^^ fk.getD i 0)
  let rk := ((sm4Keys mk.reverse 32).take 32).reverse
  let out := sm4Rounds rk ((List.range 4).map (w x)).reverse
  beNat (out.flatMap (fun y => beBytes 4 y.toNat))

/-- Doubling in the field of AES. -/
def xtime (b : Byte) : Byte := if b.getLsbD 7 then (b <<< 1) ^^^ 0x1B else b <<< 1

/-- The words of the expanded AES key, newest first; `nk`: words of the key. -/
def aesExpand (k : List (BitVec 32)) (nk : Nat) : Nat → List (BitVec 32)
  | 0 => k
  | n + 1 =>
    let l := aesExpand k nk n
    let i := nk + n
    let p := l.getD 0 0
    let rcon := (List.range (i / nk - 1)).foldl (fun b _ => xtime b) 1#8
    let t := if i % nk = 0 then subWord aesTable (p.rotateLeft 8) ^^^ (rcon.setWidth 32 <<< 24)
      else if 6 < nk ∧ i % nk = 4 then subWord aesTable p else p
    (l.getD (nk - 1) 0 ^^^ t) :: l

/-- The mixing of one column of four bytes. -/
def mixColumn (c : List Byte) : List Byte :=
  let g (i : Nat) : Byte := c.getD (i % 4) 0
  (List.range 4).map (fun i => xtime (g i) ^^^ xtime (g (i + 1)) ^^^ g (i + 1) ^^^ g (i + 2) ^^^ g (i + 3))

/-- SubBytes and ShiftRows of a state of 16 bytes. -/
def aesShift (b : List Byte) : List Byte := (List.range 16).map (fun i => sbox aesTable (b.getD ((i + 4 * (i % 4)) % 16) 0))

/-- AES of a block under a key of `nk` words. -/
def aesEnc (nk key x : Nat) : Nat :=
  let nr := nk + 6
  let ws := (aesExpand ((List.range nk).map (fun i => BitVec.ofNat 32 (key >>> (32 * i)))) nk (4 * (nr + 1) - nk)).reverse
  let rk (r : Nat) : List Byte := (sub ws (4 * r) 4).flatMap (fun w => beBytes 4 w.toNat)
  let s0 := List.zipWith (· ^^^ ·) (beBytes 16 x) (rk 0)
  let mid := (List.range (nr - 1)).foldl (fun s r =>
    let t := aesShift s
    List.zipWith (· ^^^ ·) ((List.range 4).flatMap (fun c => mixColumn (sub t (4 * c) 4))) (rk (r + 1))) s0
  beNat (List.zipWith (· ^^^ ·) (aesShift mid) (rk nr))

/-! ## GCM -/

/-- A block cipher by its number: 0 AES-128, 1 AES-256, 2 SM4 (R381, R413). -/
def blockEnc (cipher key x : Nat) : Nat :=
  match cipher with
  | 1 => aesEnc 8 (key % 2 ^ 256) x
  | 2 => sm4Enc (key % 2 ^ 128) x
  | _ => aesEnc 4 (key % 2 ^ 128) x

/-- Multiplication in the field of GCM, from bit 127 - `i` of `x` down. -/
def gcmMul (x : Nat) : Nat → Nat → Nat → Nat
  | 0, _, _ => 0
  | n + 1, v, i =>
    let rest := gcmMul x n (if v % 2 = 1 then (v / 2) ^^^ (0xE1 * 2 ^ 120) else v / 2) (i + 1)
    if x.testBit (127 - i) then v ^^^ rest else rest

/-- The hash of blocks of 16 bytes. -/
def ghash (h : Nat) (bs : List Byte) : Nat → Nat → Nat
  | 0, y => y
  | n + 1, y => ghash h (bs.drop 16) n (gcmMul (y ^^^ beAt bs 0 16) 128 h 0)

/-- Bytes padded with zeros to whole blocks. -/
def pad16 (bs : List Byte) : List Byte := bs ++ zeros ((16 - bs.length % 16) % 16)

/-- The key stream applied to some bytes from a counter block. -/
def gcmCtr (cipher key j : Nat) (bs : List Byte) : List Byte :=
  (List.range ((bs.length + 15) / 16)).flatMap (fun i =>
    let c := j / 2 ^ 32 * 2 ^ 32 + (j % 2 ^ 32 + i + 1) % 2 ^ 32
    List.zipWith (· ^^^ ·) (sub bs (16 * i) 16) (beBytes 16 (blockEnc cipher key c)))

/-- The tag of additional data and cipher text under a 96-bit initial vector. -/
def gcmTag (cipher key iv : Nat) (aad ct : List Byte) : List Byte :=
  let j := iv * 2 ^ 32 + 1
  let m := pad16 aad ++ pad16 ct ++ beBytes 8 (8 * aad.length) ++ beBytes 8 (8 * ct.length)
  beBytes 16 (ghash (blockEnc cipher key 0) m (m.length / 16) 0 ^^^ blockEnc cipher key j)

/-- The cipher text of some bytes, with its tag. -/
def gcmSeal (cipher key iv : Nat) (aad plain : List Byte) : List Byte :=
  let ct := gcmCtr cipher key (iv % 2 ^ 96 * 2 ^ 32 + 1) plain
  ct ++ gcmTag cipher key (iv % 2 ^ 96) aad ct

/-- The plain text of some bytes that end in their tag; none: the tag does not match. -/
def gcmOpen (cipher key iv : Nat) (aad bs : List Byte) : Option (List Byte) :=
  let ct := bs.take (bs.length - 16)
  if bs.length < 16 ∨ gcmTag cipher key (iv % 2 ^ 96) aad ct ≠ bs.drop (bs.length - 16) then none
  else some (gcmCtr cipher key (iv % 2 ^ 96 * 2 ^ 32 + 1) ct)

end Sys2Proof.Machine
end

