-- ==== Sys2Proof/Decode.lean ====
section
/-! DEFINITION. The table gives no row any bits, so no word spells a command; and the decoder and encoder of the
Olidric syllables and bundles that BUNDLE_ISSUE carries (R48 to R60). -/

namespace Sys2Proof

open Machine

/-- The command that a word spells by the table's bits: the table gives no row bits, so none. -/
def decodeTableWord (_nbits _w : Nat) : Option Instr := none

/-- The syllable formats (R56). -/
inductive Fmt where
  | r | r1 | i | u | m | s | sc | p | q | x | b | bb | j | z
deriving DecidableEq, Repr

/-- The opcode maps (R60): each instruction with its unit field, its opcode and its format. The integer map serves I0
and I1; its unit is written 0. -/
def opTable : List (Op × Nat × Nat × Fmt) := [
  (.nop, 0, 0, .z),
  (.add, 0, 1, .r),
  (.sub, 0, 2, .r),
  (.addc, 0, 3, .r),
  (.subc, 0, 4, .r),
  (.and, 0, 5, .r),
  (.or, 0, 6, .r),
  (.xor, 0, 7, .r),
  (.andn, 0, 8, .r),
  (.orn, 0, 9, .r),
  (.shl, 0, 10, .r),
  (.shr, 0, 11, .r),
  (.sar, 0, 12, .r),
  (.rol, 0, 13, .r),
  (.cmpeq, 0, 14, .r),
  (.cmpne, 0, 15, .r),
  (.cmplt, 0, 16, .r),
  (.cmpltu, 0, 17, .r),
  (.cmple, 0, 18, .r),
  (.cmpleu, 0, 19, .r),
  (.min, 0, 20, .r),
  (.max, 0, 21, .r),
  (.minu, 0, 22, .r),
  (.maxu, 0, 23, .r),
  (.clz, 0, 24, .r1),
  (.ctz, 0, 25, .r1),
  (.popc, 0, 26, .r1),
  (.bswap, 0, 27, .r1),
  (.sext, 0, 28, .r1),
  (.zext, 0, 29, .r1),
  (.addi, 0, 32, .i),
  (.andi, 0, 33, .i),
  (.ori, 0, 34, .i),
  (.xori, 0, 35, .i),
  (.shli, 0, 36, .i),
  (.shri, 0, 37, .i),
  (.sari, 0, 38, .i),
  (.roli, 0, 39, .i),
  (.cmpeqi, 0, 40, .i),
  (.cmpnei, 0, 41, .i),
  (.cmplti, 0, 42, .i),
  (.cmpltui, 0, 43, .i),
  (.movi, 0, 44, .u),
  (.movhi, 0, 45, .u),
  (.addpc, 0, 46, .u),
  (.mfsr, 0, 48, .x),
  (.mtsr, 0, 49, .x),
  (.mul, 2, 0, .p),
  (.mac, 2, 1, .p),
  (.mulw, 2, 2, .p),
  (.mulwu, 2, 3, .p),
  (.div, 2, 8, .q),
  (.divu, 2, 9, .q),
  (.decadd, 2, 16, .r),
  (.decsub, 2, 17, .r),
  (.movm, 2, 24, .x),
  (.movtm, 2, 25, .x),
  (.fadd, 3, 0, .r),
  (.fsub, 3, 1, .r),
  (.fmul, 3, 2, .r),
  (.fdiv, 3, 3, .r),
  (.fsqrt, 3, 4, .r1),
  (.fma, 3, 5, .r),
  (.fms, 3, 6, .r),
  (.fnma, 3, 7, .r),
  (.fmin, 3, 8, .r),
  (.fmax, 3, 9, .r),
  (.fabs, 3, 10, .r1),
  (.fneg, 3, 11, .r1),
  (.fsgnj, 3, 12, .r),
  (.fclass, 3, 13, .r1),
  (.fcmpeq, 3, 16, .r),
  (.fcmplt, 3, 17, .r),
  (.fcmple, 3, 18, .r),
  (.fcmpun, 3, 19, .r),
  (.fcvt, 3, 24, .r1),
  (.fcvti, 3, 25, .r1),
  (.fcvtiu, 3, 26, .r1),
  (.fcvtf, 3, 27, .r1),
  (.fcvtfu, 3, 28, .r1),
  (.ldb, 4, 0, .m),
  (.ldbu, 4, 1, .m),
  (.ldh, 4, 2, .m),
  (.ldhu, 4, 3, .m),
  (.ldw, 4, 4, .m),
  (.ldwu, 4, 5, .m),
  (.ldd, 4, 6, .m),
  (.ldres, 4, 8, .m),
  (.ldm, 4, 9, .m),
  (.restl, 4, 10, .m),
  (.resth, 4, 11, .m),
  (.pref, 4, 12, .m),
  (.wfill, 4, 13, .m),
  (.rsfill, 4, 14, .m),
  (.ldx, 4, 16, .r),
  (.stb, 5, 0, .s),
  (.sth, 5, 1, .s),
  (.stw, 5, 2, .s),
  (.std, 5, 3, .s),
  (.stx, 5, 4, .r),
  (.stcond, 5, 8, .sc),
  (.stm, 5, 9, .s),
  (.savel, 5, 10, .s),
  (.saveh, 5, 11, .s),
  (.wspill, 5, 12, .s),
  (.rsspill, 5, 13, .s),
  (.barl, 5, 16, .z),
  (.bars, 5, 17, .z),
  (.bara, 5, 18, .z),
  (.barx, 5, 19, .z),
  (.dclean, 5, 24, .s),
  (.dinval, 5, 25, .s),
  (.iclean, 5, 26, .s),
  (.br, 6, 0, .j),
  (.call, 6, 1, .j),
  (.callw, 6, 2, .j),
  (.jmp, 6, 4, .r1),
  (.callr, 6, 5, .r1),
  (.callwr, 6, 6, .r1),
  (.beqz, 6, 8, .b),
  (.bnez, 6, 9, .b),
  (.bltz, 6, 10, .b),
  (.bgez, 6, 11, .b),
  (.bgtz, 6, 12, .b),
  (.blez, 6, 13, .b),
  (.bbs, 6, 14, .bb),
  (.bbc, 6, 15, .bb),
  (.ret, 6, 16, .z),
  (.retw, 6, 17, .z),
  (.rett, 6, 18, .z),
  (.rspush, 6, 20, .r1),
  (.rspop, 6, 21, .r1),
  (.trap, 6, 24, .z),
  (.hcall, 6, 25, .z),
  (.mcall, 6, 26, .z),
  (.waitev, 6, 28, .z),
  (.isync, 6, 29, .z),
  (.pflush, 6, 30, .z),
  (.pbar, 6, 31, .z)]

/-- Unit field, opcode and format of an instruction (R60). -/
def opInfo : Op → Nat × Nat × Fmt
  | .nop => (0, 0, .z)
  | .add => (0, 1, .r)
  | .sub => (0, 2, .r)
  | .addc => (0, 3, .r)
  | .subc => (0, 4, .r)
  | .and => (0, 5, .r)
  | .or => (0, 6, .r)
  | .xor => (0, 7, .r)
  | .andn => (0, 8, .r)
  | .orn => (0, 9, .r)
  | .shl => (0, 10, .r)
  | .shr => (0, 11, .r)
  | .sar => (0, 12, .r)
  | .rol => (0, 13, .r)
  | .cmpeq => (0, 14, .r)
  | .cmpne => (0, 15, .r)
  | .cmplt => (0, 16, .r)
  | .cmpltu => (0, 17, .r)
  | .cmple => (0, 18, .r)
  | .cmpleu => (0, 19, .r)
  | .min => (0, 20, .r)
  | .max => (0, 21, .r)
  | .minu => (0, 22, .r)
  | .maxu => (0, 23, .r)
  | .clz => (0, 24, .r1)
  | .ctz => (0, 25, .r1)
  | .popc => (0, 26, .r1)
  | .bswap => (0, 27, .r1)
  | .sext => (0, 28, .r1)
  | .zext => (0, 29, .r1)
  | .addi => (0, 32, .i)
  | .andi => (0, 33, .i)
  | .ori => (0, 34, .i)
  | .xori => (0, 35, .i)
  | .shli => (0, 36, .i)
  | .shri => (0, 37, .i)
  | .sari => (0, 38, .i)
  | .roli => (0, 39, .i)
  | .cmpeqi => (0, 40, .i)
  | .cmpnei => (0, 41, .i)
  | .cmplti => (0, 42, .i)
  | .cmpltui => (0, 43, .i)
  | .movi => (0, 44, .u)
  | .movhi => (0, 45, .u)
  | .addpc => (0, 46, .u)
  | .mfsr => (0, 48, .x)
  | .mtsr => (0, 49, .x)
  | .mul => (2, 0, .p)
  | .mac => (2, 1, .p)
  | .mulw => (2, 2, .p)
  | .mulwu => (2, 3, .p)
  | .div => (2, 8, .q)
  | .divu => (2, 9, .q)
  | .decadd => (2, 16, .r)
  | .decsub => (2, 17, .r)
  | .movm => (2, 24, .x)
  | .movtm => (2, 25, .x)
  | .fadd => (3, 0, .r)
  | .fsub => (3, 1, .r)
  | .fmul => (3, 2, .r)
  | .fdiv => (3, 3, .r)
  | .fsqrt => (3, 4, .r1)
  | .fma => (3, 5, .r)
  | .fms => (3, 6, .r)
  | .fnma => (3, 7, .r)
  | .fmin => (3, 8, .r)
  | .fmax => (3, 9, .r)
  | .fabs => (3, 10, .r1)
  | .fneg => (3, 11, .r1)
  | .fsgnj => (3, 12, .r)
  | .fclass => (3, 13, .r1)
  | .fcmpeq => (3, 16, .r)
  | .fcmplt => (3, 17, .r)
  | .fcmple => (3, 18, .r)
  | .fcmpun => (3, 19, .r)
  | .fcvt => (3, 24, .r1)
  | .fcvti => (3, 25, .r1)
  | .fcvtiu => (3, 26, .r1)
  | .fcvtf => (3, 27, .r1)
  | .fcvtfu => (3, 28, .r1)
  | .ldb => (4, 0, .m)
  | .ldbu => (4, 1, .m)
  | .ldh => (4, 2, .m)
  | .ldhu => (4, 3, .m)
  | .ldw => (4, 4, .m)
  | .ldwu => (4, 5, .m)
  | .ldd => (4, 6, .m)
  | .ldres => (4, 8, .m)
  | .ldm => (4, 9, .m)
  | .restl => (4, 10, .m)
  | .resth => (4, 11, .m)
  | .pref => (4, 12, .m)
  | .wfill => (4, 13, .m)
  | .rsfill => (4, 14, .m)
  | .ldx => (4, 16, .r)
  | .stb => (5, 0, .s)
  | .sth => (5, 1, .s)
  | .stw => (5, 2, .s)
  | .std => (5, 3, .s)
  | .stx => (5, 4, .r)
  | .stcond => (5, 8, .sc)
  | .stm => (5, 9, .s)
  | .savel => (5, 10, .s)
  | .saveh => (5, 11, .s)
  | .wspill => (5, 12, .s)
  | .rsspill => (5, 13, .s)
  | .barl => (5, 16, .z)
  | .bars => (5, 17, .z)
  | .bara => (5, 18, .z)
  | .barx => (5, 19, .z)
  | .dclean => (5, 24, .s)
  | .dinval => (5, 25, .s)
  | .iclean => (5, 26, .s)
  | .br => (6, 0, .j)
  | .call => (6, 1, .j)
  | .callw => (6, 2, .j)
  | .jmp => (6, 4, .r1)
  | .callr => (6, 5, .r1)
  | .callwr => (6, 6, .r1)
  | .beqz => (6, 8, .b)
  | .bnez => (6, 9, .b)
  | .bltz => (6, 10, .b)
  | .bgez => (6, 11, .b)
  | .bgtz => (6, 12, .b)
  | .blez => (6, 13, .b)
  | .bbs => (6, 14, .bb)
  | .bbc => (6, 15, .bb)
  | .ret => (6, 16, .z)
  | .retw => (6, 17, .z)
  | .rett => (6, 18, .z)
  | .rspush => (6, 20, .r1)
  | .rspop => (6, 21, .r1)
  | .trap => (6, 24, .z)
  | .hcall => (6, 25, .z)
  | .mcall => (6, 26, .z)
  | .waitev => (6, 28, .z)
  | .isync => (6, 29, .z)
  | .pflush => (6, 30, .z)
  | .pbar => (6, 31, .z)

/-- The instruction of a unit and opcode; none: reserved. MFSR and MTSR are implemented in I0 only (R59, R60). -/
def opOf (unit code : Nat) : Option Op :=
  let u := if unit = 1 then 0 else unit
  match opTable.find? (fun e => e.2.1 = u && e.2.2.1 = code) with
  | none => none
  | some e => if unit = 1 && (e.1 = .mfsr || e.1 = .mtsr) then none else some e.1

def isShiftImm (o : Op) : Bool := o = .shli || o = .shri || o = .sari || o = .roli

/-- Whether the format that the opcode map gives accepts an extension (R56). -/
def extendable (o : Op) : Bool :=
  match (opInfo o).2.2 with
  | .i => !isShiftImm o
  | .u => true
  | .m => true
  | .s => true
  | .b => true
  | .j => true
  | _ => false

/-- Instructions whose immediate is zero-extended (R57): ANDI, ORI, XORI, MOVHI and the imm16 of format Z. -/
def zeroImm (o : Op) : Bool :=
  o = .andi || o = .ori || o = .xori || o = .movhi || o = .trap || o = .hcall || o = .mcall || o = .waitev

def z16 (o : Op) : Bool := o = .trap || o = .hcall || o = .mcall || o = .waitev

/-- Width of the immediate field of a format (R56). -/
def immWidth : Fmt → Nat
  | .i => 10
  | .u => 16
  | .m => 10
  | .s => 10
  | .b => 16
  | .bb => 10
  | .j => 22
  | .z => 16
  | _ => 0

/-- The immediate of a syllable word (R57, R58), extended to 64 bits. -/
def immOf (o : Op) (w : BitVec 32) (e : Option (BitVec 32)) : Word :=
  let f := (opInfo o).2.2
  let raw := w.toNat % 2 ^ immWidth f
  if isShiftImm o then BitVec.ofNat 64 (raw % 64)
  else if f = .z && !z16 o then 0
  else
    match e with
    | some x =>
      let c := (x.toNat % 2 ^ 28) * 16 + raw % 16
      if zeroImm o then BitVec.ofNat 64 c else (BitVec.ofNat 32 c).signExtend 64
    | none =>
      if zeroImm o then BitVec.ofNat 64 raw
      else
        match f with
        | .i => (BitVec.ofNat 10 raw).signExtend 64
        | .m => (BitVec.ofNat 10 raw).signExtend 64
        | .s => (BitVec.ofNat 10 raw).signExtend 64
        | .bb => (BitVec.ofNat 10 raw).signExtend 64
        | .u => (BitVec.ofNat 16 raw).signExtend 64
        | .b => (BitVec.ofNat 16 raw).signExtend 64
        | .j => (BitVec.ofNat 22 raw).signExtend 64
        | _ => 0

/-- The fields of a word that its format or the opcode map requires to be zero are zero (R56, R57, R60). -/
def zerosOk (o : Op) (w : BitVec 32) (e : Option (BitVec 32)) : Bool :=
  let n := w.toNat
  let f := (opInfo o).2.2
  (match f with
   | .r1 => (n / 16) % 64 = 0
   | .sc => n % 16 = 0
   | .p => (n / 2 ^ 18) % 16 = 0 && n % 16 = 0
   | .q => (n / 2 ^ 16) % 64 = 0 && n % 16 = 0
   | .x => n % 1024 = 0
   | .z => if z16 o then (n / 2 ^ 16) % 64 = 0 else n % 2 ^ 22 = 0
   | .i => !isShiftImm o || (n / 64) % 16 = 0
   | _ => true)
  && (e.isNone || n % 2 ^ immWidth f < 16)

/-- Whether the operand fields of an instruction hold no reserved value (R56, R59, R60, R70, R75). DESIGN CHOICE (log 92): fn is ignored in
a format R instruction for which the opcode map names no use of it; R56 wants it zero in format R1 only. -/
def fieldsOk (o : Op) (d a : BitVec 6) (fn : BitVec 4) : Bool :=
  let f := fn.toNat
  match o with
  | .sext => decide (f ≤ 2)
  | .zext => decide (f ≤ 2)
  | .clz => f = 0
  | .ctz => f = 0
  | .popc => f = 0
  | .bswap => f = 0
  | .mulw => d.toNat % 2 = 0
  | .mulwu => d.toNat % 2 = 0
  | .mfsr => decide (a.toNat < 10)
  | .mtsr => decide (a.toNat < 10) && a.toNat ≠ 4
  | .movm => decide (a.toNat < 7)
  | .movtm => decide (a.toNat < 7)
  | .restl => d = 0
  | .resth => d = 0
  | .wfill => d = 0
  | .rsfill => d = 0
  | .pref => decide (d.toNat < 4)
  | .ldx => !(f % 4 = 3 && (f / 4) % 2 = 1)
  | .stx => (f / 4) % 2 = 0
  | .savel => d = 0
  | .saveh => d = 0
  | .wspill => d = 0
  | .rsspill => d = 0
  | .dclean => d = 0
  | .dinval => d = 0
  | .iclean => d = 0
  | .jmp => d = 0 && f = 0
  | .callr => d = 0 && f = 0
  | .callwr => d = 0 && f = 0
  | .rspush => d = 0 && f = 0
  | .rspop => a = 0 && f = 0
  | .fadd => decide (f / 4 < 3)
  | .fsub => decide (f / 4 < 3)
  | .fmul => decide (f / 4 < 3)
  | .fma => decide (f / 4 < 3)
  | .fms => decide (f / 4 < 3)
  | .fnma => decide (f / 4 < 3)
  | .fdiv => decide (f / 4 < 3) && f % 4 ≠ 3
  | .fsqrt => decide (f / 4 < 3) && f % 4 ≠ 3
  | .fmin => f / 4 = 0
  | .fmax => f / 4 = 0
  | .fabs => f / 4 = 0
  | .fneg => f / 4 = 0
  | .fsgnj => f / 4 = 0
  | .fclass => f / 4 = 0 && f % 4 ≠ 3
  | .fcmpeq => f / 4 = 0 && f % 4 ≠ 3
  | .fcmplt => f / 4 = 0 && f % 4 ≠ 3
  | .fcmple => f / 4 = 0 && f % 4 ≠ 3
  | .fcmpun => f / 4 = 0 && f % 4 ≠ 3
  | .fcvt => decide (f / 4 < 3) && f % 4 ≠ 3
  | .fcvti => decide (f / 4 < 3) && f % 4 ≠ 3
  | .fcvtiu => decide (f / 4 < 3) && f % 4 ≠ 3
  | .fcvtf => decide (f / 4 < 3) && f % 4 ≠ 3
  | .fcvtfu => decide (f / 4 < 3) && f % 4 ≠ 3
  | _ => true

/-- The operands of a syllable word of instruction `o` at core `c`, bank `b` (R56 to R58). -/
def operandsOf (c b : Nat) (o : Op) (w : BitVec 32) (e : Option (BitVec 32)) : Syl :=
  let f := (opInfo o).2.2
  let z : BitVec 6 := 0
  let isZ := f = .z
  let isJ := f = .j
  let hasA := match f with
    | .u => false
    | .b => false
    | .j => false
    | .z => false
    | _ => true
  let hasB := match f with
    | .r => true
    | .sc => true
    | .p => true
    | .q => true
    | _ => false
  let hasFn := match f with
    | .r => true
    | .r1 => true
    | _ => false
  { core := c, bank := b, i1 := w.extractLsb' 28 3 = 1#3,
    d := if isZ || isJ then z else w.extractLsb' 16 6,
    a := if hasA then w.extractLsb' 10 6 else z,
    b := if hasB then w.extractLsb' 4 6 else z,
    fn := if hasFn then w.extractLsb' 0 4 else 0,
    ext := e.isSome, imm := immOf o w e }

/-- One syllable, with the extension that follows it: none where it is illegal (R59). -/
def decodeSyl (c b : Nat) (w : BitVec 32) (e : Option (BitVec 32)) : Option (Op × Syl) :=
  match opOf (w.extractLsb' 28 3).toNat (w.extractLsb' 22 6).toNat with
  | none => none
  | some o =>
    let x := operandsOf c b o w e
    if zerosOk o w e && fieldsOk o x.d x.a x.fn then some (o, x) else none

/-- The words of a syllable: its parent word with stop bit `stop`, and its extension where it has one (R56, R58). -/
def encodeSyl (o : Op) (x : Syl) (stop : Bool) : List (BitVec 32) :=
  let (u, code, f) := opInfo o
  let unit : BitVec 3 := if u = 0 && x.i1 then 1#3 else BitVec.ofNat 3 u
  let head (s : Bool) : BitVec 10 := b1 s ++ unit ++ BitVec.ofNat 6 code
  let c : BitVec 32 := x.imm.extractLsb' 0 32
  let short (n : Nat) : BitVec n := if x.ext then (c.extractLsb' 0 4).setWidth n else c.extractLsb' 0 n
  let body : BitVec 22 :=
    match f with
    | .r => x.d ++ x.a ++ x.b ++ x.fn
    | .r1 => x.d ++ x.a ++ 0#6 ++ x.fn
    | .i => x.d ++ x.a ++ short 10
    | .u => x.d ++ short 16
    | .m => x.d ++ x.a ++ short 10
    | .s => x.d ++ x.a ++ short 10
    | .sc => x.d ++ x.a ++ x.b ++ 0#4
    | .p => x.d ++ x.a ++ x.b ++ 0#4
    | .q => 0#6 ++ x.a ++ x.b ++ 0#4
    | .x => x.d ++ x.a ++ 0#10
    | .b => x.d ++ short 16
    | .bb => x.d ++ x.a ++ short 10
    | .j => short 22
    | .z => if z16 o then 0#6 ++ short 16 else 0#22
  if x.ext then [head false ++ body, b1 stop ++ 7#3 ++ c.extractLsb' 4 28] else [head stop ++ body]

/-- The operands that an encoding of instruction `o` admits (R56 to R60): fields the format has not are 0, the
immediate is one its field or its extension can spell, an extension stands only after an extendable format, and no
field holds a reserved value. -/
def encodable (o : Op) (x : Syl) : Bool :=
  let f := (opInfo o).2.2
  let sx (n : Nat) : Bool := (x.imm.extractLsb' 0 n).signExtend 64 = x.imm
  let zx (n : Nat) : Bool := (x.imm.extractLsb' 0 n).setWidth 64 = x.imm
  let immOk (n : Nat) : Bool :=
    if isShiftImm o then zx 6
    else if x.ext then (if zeroImm o then zx 32 else sx 32)
    else if zeroImm o then zx n else sx n
  let noImm := x.imm = 0
  fieldsOk o x.d x.a x.fn && (!x.ext || extendable o) && (!x.i1 || (opInfo o).1 = 0 && o ≠ .mfsr && o ≠ .mtsr) &&
  (match f with
   | .r => noImm
   | .r1 => x.b = 0 && noImm
   | .i => x.b = 0 && x.fn = 0 && immOk 10
   | .u => x.a = 0 && x.b = 0 && x.fn = 0 && immOk 16
   | .m => x.b = 0 && x.fn = 0 && immOk 10
   | .s => x.b = 0 && x.fn = 0 && immOk 10
   | .sc => x.fn = 0 && noImm
   | .p => decide (x.d.toNat < 4) && x.fn = 0 && noImm
   | .q => x.d = 0 && x.fn = 0 && noImm
   | .x => x.b = 0 && x.fn = 0 && noImm
   | .b => x.a = 0 && x.b = 0 && x.fn = 0 && immOk 16
   | .bb => x.b = 0 && x.fn = 0 && immOk 10
   | .j => x.d = 0 && x.a = 0 && x.b = 0 && x.fn = 0 && immOk 22
   | .z => x.d = 0 && x.a = 0 && x.b = 0 && x.fn = 0 && (if z16 o then immOk 16 else noImm))

/-- The general registers an instruction names as destinations (R52): LDM reads its rd field as a mask, and PREF and the block loads write
no rd. -/
def destOf (o : Op) (x : Syl) : BitVec 6 :=
  let (u, _, f) := opInfo o
  match f with
  | .r => if u = 5 then 0 else x.d
  | .r1 => if u = 6 && o ≠ .rspop then 0 else x.d
  | .i => x.d
  | .u => x.d
  | .m => if o = .ldm || o = .pref || o = .restl || o = .resth || o = .wfill || o = .rsfill then 0 else x.d
  | .sc => x.b
  | .x => if o = .mfsr || o = .movm then x.d else 0
  | _ => 0

/-- A bundle as the decoder reads it: a format fault, an illegal instruction, or its syllables and how many words they
take (R52, R584: the format fault comes first). -/
inductive Decoded where
  | format
  | illegal
  | ok (syls : List (Op × Syl)) (words : Nat)
deriving DecidableEq, Repr

/-- The words of a fetch block up to and including the first with its stop bit set (R48). -/
def toStop : List (BitVec 32) → Option (List (BitVec 32))
  | [] => none
  | w :: ws => if w.getLsbD 31 then some [w] else (toStop ws).map (w :: ·)

def isExt (w : BitVec 32) : Bool := w.extractLsb' 28 3 = 7#3

/-- Whether an extension may follow a word: a reserved opcode has no format, and breaks no condition (R52). -/
def takesExt (w : BitVec 32) : Bool :=
  !isExt w &&
  (match opOf (w.extractLsb' 28 3).toNat (w.extractLsb' 22 6).toNat with
   | none => true
   | some o => extendable o)

/-- The order of units and the places of extensions (R50, R52); `prev` is the unit of the previous syllable plus 1. -/
def orderOk : Option (BitVec 32) → Nat → List (BitVec 32) → Bool
  | _, _, [] => true
  | last, prev, w :: ws =>
    if isExt w then
      (match last with
       | none => false
       | some p => takesExt p) && orderOk (some w) prev ws
    else
      let u := (w.extractLsb' 28 3).toNat
      decide (prev < u + 1) && orderOk (some w) (u + 1) ws

/-- Words paired with the extension that follows each. -/
def pairExt : List (BitVec 32) → List (BitVec 32 × Option (BitVec 32))
  | [] => []
  | [w] => [(w, none)]
  | w :: e :: ws => if isExt e then (w, some e) :: pairExt ws else (w, none) :: pairExt (e :: ws)

/-- No general register other than g0 is named twice as a destination (R52). -/
def destsOk : List (BitVec 6) → Bool
  | [] => true
  | d :: ds => (d = 0 || !(ds.contains d)) && destsOk ds

/-- The destination a word names, whether or not the rest of it is legal. -/
def destOfWord (w : BitVec 32) (e : Option (BitVec 32)) : BitVec 6 :=
  match opOf (w.extractLsb' 28 3).toNat (w.extractLsb' 22 6).toNat with
  | none => 0
  | some o => destOf o (operandsOf 0 0 o w e)

/-- The bundle that starts at word `at_` of its 32-byte fetch block (R48 to R52, R59). `words` are the words from its
address on. -/
def decodeBundle (c b : Nat) (at_ : Nat) (words : List (BitVec 32)) : Decoded :=
  match toStop (words.take (8 - at_)) with
  | none => .format
  | some ws =>
    let ps := pairExt ws
    if !(orderOk none 0 ws) || !(destsOk (ps.map (fun p => destOfWord p.1 p.2))) then .format
    else
      match ps.mapM (fun p => decodeSyl c b p.1 p.2) with
      | none => .illegal
      | some xs => .ok xs ws.length

end Sys2Proof
end

