-- ==== Sys2Proof/Machine/Float.lean ====
section
/-! DEFINITION. The arithmetic of the F unit: IEEE 754-2019 binary16, binary32 and binary64, computed exactly and
rounded once (R114 to R131). -/

namespace Sys2Proof.Machine

/-- A binary format: its exponent bits and its stored fraction bits. -/
structure FFmt where
  eb : Nat
  mb : Nat
deriving DecidableEq, Repr

/-- The formats fn[1:0] selects (R60); the packed format computes each lane as binary32. -/
def ffmt : Nat → FFmt
  | 0 => ⟨5, 10⟩
  | 2 => ⟨11, 52⟩
  | _ => ⟨8, 23⟩

def FFmt.bias (f : FFmt) : Nat := 2 ^ (f.eb - 1) - 1
def FFmt.width (f : FFmt) : Nat := 1 + f.eb + f.mb

/-- The exponent of the least place of a subnormal number. -/
def FFmt.qmin (f : FFmt) : Int := 1 - (f.bias : Int) - f.mb

/-- The rounding attributes of FPC.rm (R72, R121). -/
inductive Rnd where
  | ne | tz | dn | up | na
deriving DecidableEq, Repr

def Rnd.ofRm : Nat → Rnd
  | 1 => .tz
  | 2 => .dn
  | 3 => .up
  | 4 => .na
  | _ => .ne

/-- A datum: a NaN with its sign, its quiet bit and its payload below that bit, an infinity, or a finite number
(-1)^s × m × 2^e, where m = 0 is a zero. -/
inductive FVal where
  | nan (s quiet : Bool) (payload : Nat)
  | inf (s : Bool)
  | fin (s : Bool) (m : Nat) (e : Int)
deriving DecidableEq, Repr

/-- The flags nv, dz, of, uf, nx as bits 0 to 4, in the order of FPC[7:3] (R72). -/
abbrev fNV : Nat := 1
abbrev fDZ : Nat := 2
abbrev fOF : Nat := 4
abbrev fUF : Nat := 8
abbrev fNX : Nat := 16

/-- The datum that the low bits of a register hold (R69, R114). -/
def funpack (f : FFmt) (x : Nat) : FVal :=
  let fr := x % 2 ^ f.mb
  let ex := (x >>> f.mb) % 2 ^ f.eb
  let s := (x >>> (f.mb + f.eb)) % 2 = 1
  if ex = 2 ^ f.eb - 1 then
    if fr = 0 then .inf s else .nan s (fr ≥ 2 ^ (f.mb - 1)) (fr % 2 ^ (f.mb - 1))
  else if ex = 0 then .fin s fr f.qmin
  else .fin s (fr + 2 ^ f.mb) (f.qmin + (ex : Int) - 1)

/-- A word from its sign, biased exponent and fraction. -/
def fbits (f : FFmt) (s : Bool) (ex fr : Nat) : Nat := (if s then 2 ^ (f.mb + f.eb) else 0) + ex * 2 ^ f.mb + fr

def finf (f : FFmt) (s : Bool) : Nat := fbits f s (2 ^ f.eb - 1) 0
def fzero (f : FFmt) (s : Bool) : Nat := fbits f s 0 0
/-- The largest finite magnitude (R122). -/
def fmaxv (f : FFmt) (s : Bool) : Nat := fbits f s (2 ^ f.eb - 2) (2 ^ f.mb - 1)
/-- A NaN made quiet (R127). -/
def fnan (f : FFmt) (s : Bool) (payload : Nat) : Nat := fbits f s (2 ^ f.eb - 1) (2 ^ (f.mb - 1) + payload)
/-- The default NaN (R126). -/
def fdefault (f : FFmt) : Nat := fnan f false 0

/-- Whether rounding goes away from zero, for the kept bits, the dropped `k` bits `rem` and what lies below them. -/
def rndUp (r : Rnd) (s : Bool) (keep rem k : Nat) (sticky : Bool) : Bool :=
  let half := 2 ^ k / 2
  let inex := rem ≠ 0 || sticky
  match r with
  | .ne => decide (half < rem) || (rem = half && k ≠ 0 && (sticky || keep % 2 = 1))
  | .na => k ≠ 0 && decide (half ≤ rem)
  | .tz => false
  | .dn => s && inex
  | .up => !s && inex

/-- m × 2^e (and a little more, where `sticky`) rounded to a multiple of 2^q: the multiple, and whether it is inexact. -/
def rndAt (r : Rnd) (s : Bool) (m : Nat) (e : Int) (sticky : Bool) (q : Int) : Nat × Bool :=
  if q ≤ e then (m <<< (e - q).toNat, sticky)
  else
    let k := (q - e).toNat
    let keep := m >>> k
    let rem := m % 2 ^ k
    (keep + (if rndUp r s keep rem k sticky then 1 else 0), rem ≠ 0 || sticky)

/-- What an overflow delivers (R122). -/
def foverflow (f : FFmt) (r : Rnd) (s : Bool) : Nat :=
  match r with
  | .ne => finf f s
  | .na => finf f s
  | .tz => fmaxv f s
  | .dn => if s then finf f s else fmaxv f s
  | .up => if s then fmaxv f s else finf f s

/-- A non-zero value rounded once to a format, with its flags: tininess is detected after rounding, uf needs
inexactness, nx comes with of (R115, R122, R124). -/
def fround (f : FFmt) (r : Rnd) (s : Bool) (m : Nat) (e : Int) (sticky : Bool) : Nat × Nat :=
  let top : Int := Nat.log2 m + e
  let qn := top - f.mb
  let q := max qn f.qmin
  let (v, inex) := rndAt r s m e sticky q
  let (v, q) := if v = 2 ^ (f.mb + 1) then (2 ^ f.mb, q + 1) else (v, q)
  let u := rndAt r s m e sticky qn
  let tiny := qn < f.qmin && !(u.1 = 2 ^ (f.mb + 1) && qn + 1 = f.qmin)
  let nx := if inex then fNX else 0
  if v < 2 ^ f.mb then (fbits f s 0 v, nx + (if inex && tiny then fUF else 0))
  else
    let ex := (q - f.qmin + 1).toNat
    if 2 ^ f.eb - 1 ≤ ex then (foverflow f r s, fOF + fNX)
    else (fbits f s ex (v - 2 ^ f.mb), nx + (if inex && tiny then fUF else 0))

/-- A signed exact value rounded; an exact zero takes the sign of R123. -/
def froundInt (f : FFmt) (r : Rnd) (x : Int) (e : Int) (zs : Bool) : Nat × Nat :=
  if x = 0 then (fzero f zs, 0) else fround f r (decide (x < 0)) x.natAbs e false

/-- Whether any operand is a signalling NaN. -/
def anySnan : List FVal → Bool
  | [] => false
  | .nan _ q _ :: xs => !q || anySnan xs
  | _ :: xs => anySnan xs

/-- The first NaN of the operands, made quiet (R127). -/
def firstNan (f : FFmt) : List FVal → Option Nat
  | [] => none
  | .nan s _ p :: _ => some (fnan f s p)
  | _ :: xs => firstNan f xs

/-- The NaN rules of R126 and R127 around an operation on numbers. -/
def withNans (f : FFmt) (xs : List FVal) (inv : Bool) (go : Nat × Nat) : Nat × Nat :=
  let nv := if anySnan xs || inv then fNV else 0
  match firstNan f xs with
  | some n => (n, nv)
  | none => if inv then (fdefault f, fNV) else go

/-- A value with its sign inverted. -/
def FVal.neg : FVal → FVal
  | .nan s q p => .nan s q p
  | .inf s => .inf (!s)
  | .fin s m e => .fin (!s) m e

/-- (-1)^s × m as an integer. -/
def sint (s : Bool) (m : Nat) : Int := if s then -(m : Int) else m

/-- The sum of two finite numbers as an integer and an exponent. -/
def finSum (s1 : Bool) (m1 : Nat) (e1 : Int) (s2 : Bool) (m2 : Nat) (e2 : Int) : Int × Int :=
  let e := min e1 e2
  (sint s1 (m1 <<< (e1 - e).toNat) + sint s2 (m2 <<< (e2 - e).toNat), e)

/-- The sign of an exact zero sum (R123). -/
def zeroSign (r : Rnd) (s1 s2 : Bool) : Bool := if s1 = s2 then s1 else decide (r = .dn)

/-- x + y, numbers only. -/
def addVals (f : FFmt) (r : Rnd) : FVal → FVal → Nat × Nat
  | .inf s, _ => (finf f s, 0)
  | _, .inf s => (finf f s, 0)
  | .fin s1 m1 e1, .fin s2 m2 e2 =>
    let (x, e) := finSum s1 m1 e1 s2 m2 e2
    froundInt f r x e (zeroSign r s1 s2)
  | _, _ => (fdefault f, 0)

/-- ∞ − ∞ (R126). -/
def infMinusInf : FVal → FVal → Bool
  | .inf a, .inf b => a ≠ b
  | _, _ => false

/-- ra + rb (R115). -/
def fadd (f : FFmt) (r : Rnd) (a b : FVal) : Nat × Nat := withNans f [a, b] (infMinusInf a b) (addVals f r a b)

/-- ra − rb (R115); the negation is not applied to a NaN. -/
def fsub (f : FFmt) (r : Rnd) (a b : FVal) : Nat × Nat := fadd f r a b.neg

/-- 0 × ∞ (R126). -/
def zeroTimesInf : FVal → FVal → Bool
  | .inf _, .fin _ m _ => m = 0
  | .fin _ m _, .inf _ => m = 0
  | _, _ => false

/-- The exact product of two numbers. -/
def mulVals : FVal → FVal → FVal
  | .inf s, .inf t => .inf (s ^^ t)
  | .inf s, .fin t _ _ => .inf (s ^^ t)
  | .fin s _ _, .inf t => .inf (s ^^ t)
  | .fin s m e, .fin t n g => .fin (s ^^ t) (m * n) (e + g)
  | x, _ => x

/-- A number rounded to the format; a zero keeps its sign. -/
def froundVal (f : FFmt) (r : Rnd) : FVal → Nat × Nat
  | .inf s => (finf f s, 0)
  | .fin s m e => if m = 0 then (fzero f s, 0) else fround f r s m e false
  | .nan s _ p => (fnan f s p, 0)

/-- ra × rb (R115). -/
def fmul (f : FFmt) (r : Rnd) (a b : FVal) : Nat × Nat :=
  withNans f [a, b] (zeroTimesInf a b) (froundVal f r (mulVals a b))

/-- ra × rb + c with one rounding; `np` and `nc` negate the product and the addend, not a NaN (R115, R127). -/
def ffma (f : FFmt) (r : Rnd) (np nc : Bool) (a b c : FVal) : Nat × Nat :=
  let p := mulVals a b
  let p := if np then p.neg else p
  let c' := if nc then c.neg else c
  let inv := zeroTimesInf a b
  withNans f [a, b, c] (inv || (!(anyNan [a, b]) && infMinusInf p c')) (addVals f r p c')
where
  /-- Whether any operand is a NaN. -/
  anyNan : List FVal → Bool
    | [] => false
    | .nan _ _ _ :: _ => true
    | _ :: xs => anyNan xs

/-- ra ÷ rb (R115, R124, R126). -/
def fdiv (f : FFmt) (r : Rnd) (a b : FVal) : Nat × Nat :=
  match a, b with
  | .fin s m e, .fin t n g =>
    if n = 0 then
      if m = 0 then (fdefault f, fNV) else (finf f (s ^^ t), fDZ)
    else if m = 0 then (fzero f (s ^^ t), 0)
    else
      let k := 130
      let q := (m <<< k) / n
      fround f r (s ^^ t) q (e - g - k) ((m <<< k) % n ≠ 0)
  | .inf s, .fin t _ _ => (finf f (s ^^ t), 0)
  | .fin s _ _, .inf t => (fzero f (s ^^ t), 0)
  | .inf _, .inf _ => (fdefault f, fNV)
  | _, _ => withNans f [a, b] false (fdefault f, 0)

/-- The greatest root r with r² ≤ n, found bit by bit from `r` downward from bit `k`. -/
def isqrtFrom (n : Nat) : Nat → Nat → Nat
  | r, 0 => r
  | r, k + 1 => if (r + 2 ^ k) * (r + 2 ^ k) ≤ n then isqrtFrom n (r + 2 ^ k) k else isqrtFrom n r k

/-- √ra (R115, R123, R126). -/
def fsqrt (f : FFmt) (r : Rnd) (a : FVal) : Nat × Nat :=
  match a with
  | .fin s m e =>
    if m = 0 then (fzero f s, 0)
    else if s then (fdefault f, fNV)
    else
      let k := if (e - 130) % 2 = 0 then 130 else 131
      let n := m <<< k
      let q := isqrtFrom n 0 96
      fround f r false q ((e - k) / 2) (q * q ≠ n)
  | .inf false => (finf f false, 0)
  | .inf true => (fdefault f, fNV)
  | .nan _ _ _ => withNans f [a] false (fdefault f, 0)

/-- The order of two numbers as an integer sign: negative when a < b (−0 and +0 equal). -/
def fcmp : FVal → FVal → Int
  | .inf s, .inf t => if s = t then 0 else if s then -1 else 1
  | .inf s, _ => if s then -1 else 1
  | _, .inf t => if t then 1 else -1
  | .fin s m e, .fin t n g => (finSum s m e (!t) n g).1
  | _, _ => 0

def FVal.isNan : FVal → Bool
  | .nan _ _ _ => true
  | _ => false

/-- minimumNumber and maximumNumber, with −0 below +0 (R115, R117). -/
def fminmax (f : FFmt) (mx : Bool) (a b : FVal) (xa xb : Nat) : Nat × Nat :=
  let nv := if anySnan [a, b] then fNV else 0
  let bits (x : Nat) := x % 2 ^ f.width
  match a.isNan, b.isNan with
  | true, true => withNans f [a, b] false (fdefault f, 0)
  | true, false => (bits xb, nv)
  | false, true => (bits xa, nv)
  | false, false =>
    let c := fcmp a b
    let less := decide (c < 0) || (c = 0 && isNegZeroBelow a b)
    (bits (if less = mx then xb else xa), nv)
where
  /-- −0 against +0. -/
  isNegZeroBelow : FVal → FVal → Bool
    | .fin s _ _, .fin t _ _ => s && !t
    | _, _ => false

/-- The comparisons: 1 or 0, and the flags (R117). -/
def fcompare (rel : Int → Bool) (signalling : Bool) (a b : FVal) : Nat × Nat :=
  if a.isNan || b.isNan then (0, if signalling || anySnan [a, b] then fNV else 0)
  else (if rel (fcmp a b) then 1 else 0, 0)

/-- The class mask (R116). -/
def fclass (f : FFmt) : FVal → Nat
  | .nan _ q _ => if q then 2 ^ 9 else 2 ^ 8
  | .inf s => if s then 1 else 2 ^ 7
  | .fin s m _ =>
    if m = 0 then (if s then 2 ^ 3 else 2 ^ 4)
    else if m < 2 ^ f.mb then (if s then 2 ^ 2 else 2 ^ 5)
    else if s then 2 else 2 ^ 6

/-- Conversion between formats; a NaN keeps its most significant payload bits and is quiet (R115, R127, R128). -/
def fcvt (f g : FFmt) (r : Rnd) (a : FVal) : Nat × Nat :=
  match a with
  | .nan s q p =>
    let p' := if f.mb ≤ g.mb then p <<< (g.mb - f.mb) else p >>> (f.mb - g.mb)
    (fnan g s p', if q then 0 else fNV)
  | x => froundVal g r x

/-- Conversion to a 64-bit integer (R129). -/
def fcvti (r : Rnd) (signed : Bool) (a : FVal) : Word × Nat :=
  let lo : Int := if signed then -(2 ^ 63) else 0
  let hi : Int := if signed then 2 ^ 63 - 1 else 2 ^ 64 - 1
  match a with
  | .nan _ _ _ => (BitVec.ofInt 64 hi, fNV)
  | .inf s => (BitVec.ofInt 64 (if s then lo else hi), fNV)
  | .fin s m e =>
    let (v, inex) := rndAt r s m e false 0
    let x := sint s v
    if x < lo then (BitVec.ofInt 64 lo, fNV)
    else if hi < x then (BitVec.ofInt 64 hi, fNV)
    else (BitVec.ofInt 64 x, if inex then fNX else 0)

/-- Conversion from a 64-bit integer (R129). -/
def fcvtf (f : FFmt) (r : Rnd) (x : Int) : Nat × Nat := froundInt f r x 0 false

/-- An operation on the packed format: each lane as binary32, the flags united (R114, R124). -/
def lanes (fn : Nat) (go : FFmt → (Nat → Nat) → Nat × Nat) : Word × Nat :=
  if fn % 4 = 3 then
    let (a, x) := go (ffmt 1) (fun v => v % 2 ^ 32)
    let (b, y) := go (ffmt 1) (fun v => v >>> 32)
    (BitVec.ofNat 64 (a + b * 2 ^ 32), x ||| y)
  else
    let (a, x) := go (ffmt (fn % 4)) (fun v => v)
    (BitVec.ofNat 64 a, x)

/-- The rounding attribute fn[3:2] selects (R60, R121). -/
def rndOf (fn : Nat) (fpc : Word) : Rnd :=
  match fn / 4 with
  | 1 => .ne
  | 2 => .tz
  | _ => Rnd.ofRm (fld fpc 0 3)

end Sys2Proof.Machine
end

