-- ==== Sys2Proof/Machine/Flags.lean ====
section
/-! DEFINITION. The carry and overflow flags of the integer units (R84). -/

namespace Sys2Proof.Machine

/-- The carry of an addition, in unbounded precision (R84). -/
def addCarry (a b : Word) (c : Bool) : Bool := decide (2 ^ 64 ≤ a.toNat + b.toNat + (if c then 1 else 0))

/-- The borrow of a subtraction (R84). -/
def subBorrow (a b : Word) (c : Bool) : Bool := decide (a.toNat < b.toNat + (if c then 1 else 0))

/-- Whether a result lies outside the signed range (R84). -/
def outOfRange (x : Int) : Bool := decide (x < -(2 ^ 63)) || decide ((2 ^ 63 : Int) ≤ x)

/-- The overflow of an addition (R84). -/
def addOver (a b : Word) (c : Bool) : Bool := outOfRange (a.toInt + b.toInt + (if c then 1 else 0))

/-- The overflow of a subtraction (R84). -/
def subOver (a b : Word) (c : Bool) : Bool := outOfRange (a.toInt - b.toInt - (if c then 1 else 0))

/-- The carry flag of a unit: cf0 of I0, cf1 of I1 (R84). -/
def Psw.cf (p : Psw) (i1 : Bool) : Bool := if i1 then p.cf1 else p.cf0

/-- The carry and overflow flags of a unit written (R84). -/
def Psw.setCv (p : Psw) (i1 c v : Bool) : Psw :=
  if i1 then { p with cf1 := c, vf1 := v } else { p with cf0 := c, vf0 := v }

end Sys2Proof.Machine
end

