-- ==== Sys2Proof/Machine/Mmu.lean ====
section
/-! DEFINITION. The address map, the translation tables and the walk (R41 to R45, R190 to R210). -/

namespace Sys2Proof.Machine

/-! ## The physical address map (R41, R43) -/

/-- What a physical address decodes to. -/
inductive AddrClass where
  | dram | pcie (j : Nat) | xspi | doorbell | ringState | config | closed | rom | reserved
deriving DecidableEq, Repr

/-- The range of R41 that holds an address. -/
def addrClass (pa : Nat) : AddrClass :=
  if pa < 0x80000000000 then .dram
  else if pa < 0xC0000000000 then .reserved
  else if pa < 0xC8000000000 then .pcie 0
  else if pa < 0xD0000000000 then .pcie 1
  else if pa < 0xD0010000000 then .xspi
  else if pa < 0xE0000000000 then .reserved
  else if pa < 0xE0000200000 then .doorbell
  else if pa < 0xE1000000000 then .reserved
  else if pa < 0xE1000200000 then .ringState
  else if pa < 0xF0000000000 then .reserved
  else if pa < 0xF0040000000 then (if (findBlock (pa - 0xF0000000000)).isSome then .config else .reserved)
  else if pa < 0xF8000000000 then .reserved
  else if pa < 0xFFFFFF00000 then .closed
  else if pa < 0x100000000000 then .rom
  else .reserved

/-- Whether an address lies in a locked carve-out (R437). -/
def DecodeMap.inCarve (m : DecodeMap) (pa : Nat) : Bool :=
  m.carve.any (fun r => decide (r.1 ≤ pa) && decide (pa < r.1 + r.2))

/-- Whether an address lies in the golden store (R436). -/
def DecodeMap.inGolden (m : DecodeMap) (pa : Nat) : Bool :=
  match m.golden with
  | none => false
  | some r => decide (r.1 ≤ pa) && decide (pa < r.1 + r.2)

/-- Whether an access is answered with a decode error (R43). -/
def decodeFails (m : DecodeMap) (closed write : Bool) (pa : Nat) : Bool :=
  match addrClass pa with
  | .dram => decide (m.populated ≤ pa) || (m.inCarve pa && !closed) || (write && m.inGolden pa)
  | .pcie _ => false
  | .xspi => write
  | .doorbell => false
  | .ringState => write
  | .config => false
  | .closed => !closed
  | .rom => write || !closed
  | .reserved => true

/-- Type forced by the map at and above 0xE00_0000_0000 (R42). -/
def forcedDevice (pa : Nat) : Bool := decide (0xE0000000000 ≤ pa)

/-- The stricter of two types (R202). -/
def MType.strict (a b : MType) : MType :=
  match a, b with
  | .device, _ => .device
  | _, .device => .device
  | .nc, _ => .nc
  | _, .nc => .nc
  | .wb, .wb => .wb

/-- The type an mtype code names; 3 names none (R202). -/
def mtypeOf : Nat → Option MType
  | 0 => some .device
  | 1 => some .nc
  | 2 => some .wb
  | _ => none

def MType.code : MType → Nat
  | .device => 0
  | .nc => 1
  | .wb => 2

/-! ## Packets (R273 to R283) -/

/-- The tenant group of a request that enters at a router (R282). -/
def groupOf (s : State) (r tenant : Nat) (closed : Bool) : Nat :=
  if closed then s.f (R.NOC_CTL r) F.NOC_CTL_cw_grp else s.f (R.NOC_TGRP r tenant) F.NOC_TGRP_grp

/-- Whether a group sends class D at a router (R282). -/
def groupIsD (s : State) (r g : Nat) : Bool := (s.f (R.NOC_GCLS r) F.NOC_GCLS_dmask).testBit g

/-- The buffer of a router: network, input (0 N, 1 E, 2 S, 3 W, 4 to 6 local) and virtual channel (R280). -/
def bufIx (net input vc : Nat) : Nat := net * 32 + input * 4 + vc

def Router.buf (r : Router) (net input vc : Nat) : List Pkt := mget [] r.bufs (bufIx net input vc)
def Router.setBuf (r : Router) (net input vc : Nat) (l : List Pkt) : Router :=
  { r with bufs := mset r.bufs (bufIx net input vc) l }

/-- The next tag of a unit: in turn, those of its open transactions left out (R275; log 75). -/
def State.nextTag (s : State) (u : Nat) : Nat :=
  let n := mget 0 s.tags u
  (((List.range 256).map (fun i => (n + i) % 256)).find? (fun t => !s.openTags.contains (u, t))).getD (n % 256)

/-- A unit opens a transaction under its next tag (R275). -/
def State.openTag (s : State) (u : Nat) : State :=
  let t := s.nextTag u
  { s with tags := mset s.tags u (t + 1), openTags := s.openTags ++ [(u, t)] }

/-- A transaction of a unit is closed by its answer (R275). -/
def State.closeTag (s : State) (u t : Nat) : State := { s with openTags := dropFirst (fun x => x = (u, t)) s.openTags }

/-- A packet that answers a request, a snoop answer apart (R279). -/
def isAnswer (p : Pkt) : Bool := (p.net = 1 && decide (p.typ < 8 ∨ p.typ = 0xA)) || (p.net = 3 && (p.typ = 0 || p.typ = 2))

/-- A transaction of a unit has ended without its answer, which is discarded: the one that stands in the unit now, else when it
comes (R223, R291). -/
def State.loseTag (s : State) (u t : Nat) : State :=
  match s.inbox.find? (fun p => isAnswer p && p.dst = u && p.tag = t) with
  | some p => { s.closeTag u t with inbox := dropFirst (fun q => q = p) s.inbox }
  | none => if s.openTags.contains (u, t) && !s.deadTags.contains (u, t) then { s with deadTags := s.deadTags ++ [(u, t)] } else s

/-- Every transaction of a unit has ended without its answer: the unit is reset. -/
def State.loseUnit (s : State) (u : Nat) : State := (s.openTags.filter (fun x => x.1 = u)).foldl (fun s x => s.loseTag u x.2) s

/-- A whole packet stands in its unit: it waits there, but for a late answer, which is discarded (R223, R291). -/
def State.arriveWhole (s : State) (p : Pkt) : State :=
  if isAnswer p && s.deadTags.contains (p.dst, p.tag) then
    { s.closeTag p.dst p.tag with deadTags := dropFirst (fun x => x = (p.dst, p.tag)) s.deadTags }
  else { s with inbox := s.inbox ++ [p] }

/-- Whether a request's line data follows on the data network (R273, R279); that of an Evict, victim offer or Clean request where its
mask says so (log 22). -/
def dataFollows (p : Pkt) : Bool := p.net = 0 && (p.typ = 9 || p.typ = 0xD || ((p.typ = 3 || p.typ = 5 || p.typ = 6) && p.mask ≠ 0))

/-- Whether a packet is the line data that an answer or snoop answer announces on the response network (R273, R279). -/
def announced (p : Pkt) : Bool := p.net = 3 && (p.typ = 0 || p.typ = 3)

/-- The head of a packet whose line data is a packet of its own, and that data (R277 to R279). -/
def headOf (p : Pkt) : Pkt := if p.net = 0 then { p with data := 0, poison := false } else { p with net := 1, typ := if p.typ = 0 then 2 else 9, data := 0, mask := 0, poison := false }
def lineOf (p : Pkt) : Pkt := if p.net = 0 then { p with net := 3, typ := 1, size := 6, mask := 0, more := false } else p

/-- Whether a packet is one of two that make a whole. -/
def inHalves (p : Pkt) : Bool := dataFollows p || (p.net = 1 && (p.typ = 2 || p.typ = 9)) || (p.net = 3 && p.typ ≠ 2)

/-- Whether two packets are the head and the line data of one whole. -/
def makeWhole (h d : Pkt) : Bool :=
  d.net = 3 && h.net ≠ 3 && h.src = d.src && h.dst = d.dst && h.tag = d.tag && h.pa / 64 = d.pa / 64 &&
  (if h.net = 0 then d.typ = 1 else if h.typ = 2 then d.typ = 0 else d.typ = 3)

/-- The whole of a head and its line data. -/
def wholeOf (h d : Pkt) : Pkt := if h.net = 0 then { h with data := d.data, poison := h.poison || d.poison } else { d with poison := h.poison || d.poison }

/-- A packet reaches its unit; line data and the head that announces it make a whole once both are there (R273, R279). -/
def State.deliver (s : State) (p : Pkt) : State :=
  if !inHalves p then s.arriveWhole p
  else
    match s.halves.find? (fun q => makeWhole q p || makeWhole p q) with
    | none => { s with halves := s.halves ++ [p] }
    | some q => { s with halves := dropFirst (fun x => x = q) s.halves }.arriveWhole (if p.net = 3 then wholeOf q p else wholeOf p q)

/-- Whether a packet is a completion notice of a pipeline: a request head of type device write that opens no transaction (R355). -/
def isNotice (p : Pkt) : Bool := p.net = 0 && p.typ = 0xB && p.pa = 0 && p.size = 0 && (p.src = pipeUnit 0 || p.src = pipeUnit 1)

/-- The flits of a packet on its network. -/
def flits (p : Pkt) : Nat :=
  if isNotice p then 1
  else if (p.net = 0 && (p.typ = 8 || p.typ = 0xB)) || (p.net = 1 && p.typ = 3 && p.size = 3) || (p.net = 2 && p.typ = 4) then 2 else 1

/-- A packet enters a channel of a local input, or waits in its unit while the channel's 4 flits are taken (R37, R280). -/
def Router.enter (x : Router) (inp vc : Nat) (p : Pkt) : Router :=
  let i := bufIx p.net inp vc
  if (mget [] x.backlog i) = [] ∧ ((x.buf p.net inp vc).map flits).sum + flits p ≤ 4 then x.setBuf p.net inp vc (x.buf p.net inp vc ++ [p])
  else { x with backlog := mset x.backlog i (mget [] x.backlog i ++ [p]) }

/-- A packet enters its source's router: a class D request that opens a transaction waits for its slot, any other
packet goes to its channel of the local input (R280, R282). -/
def State.injectOne (s : State) (p : Pkt) : State :=
  let r := p.src / 4
  let inp := 4 + p.src % 4
  if p.net = 0 && !p.clsA && decide (p.typ < 0xC) && !isNotice p then
    s.updRouter r (fun x => { x with waiting := mset x.waiting (p.src % 4) (mget [] x.waiting (p.src % 4) ++ [p]) })
  else
    s.updRouter r (fun x =>
      let vc := if p.clsA then (if (x.buf p.net inp 1).length ≤ (x.buf p.net inp 2).length then 1 else 2) else 0
      x.enter inp vc p)

/-- A packet leaves its unit: line data goes as a packet of its own, with the head that announces it (R273, R279). -/
def State.inject (s : State) (p : Pkt) : State :=
  if dataFollows p || announced p then (s.injectOne (headOf p)).injectOne (lineOf p) else s.injectOne p

/-- A request opens a transaction: it takes the source's next tag and the class of its tenant's group at the source's
router (R275, R282). -/
def State.request (s : State) (p : Pkt) : State :=
  let r := p.src / 4
  let a := !groupIsD s r (groupOf s r p.tenant p.closed)
  let t := s.nextTag p.src
  (s.openTag p.src).inject { p with net := 0, clsA := a, tag := t }

/-- A packet that a request causes: it takes the request's class (R282). -/
def State.reply (s : State) (q : Pkt) (p : Pkt) : State :=
  s.inject { p with clsA := q.clsA, tag := q.tag, closed := q.closed, tenant := q.tenant }

/-- A packet leaves the inbox of its destination, if it stands there; an answer closes its transaction (R275). -/
def State.take (s : State) (p : Pkt) : State :=
  let s1 := { s with inbox := dropFirst (fun q => q = p) s.inbox }
  if isAnswer p then s1.closeTag p.dst p.tag else s1

/-- The pipeline that holds a tenant (R337). -/
def pipeOf (tenant : Nat) : Nat := if tenant < 256 then 0 else 1

/-- The unit that serves a register block (R45, R582); an NOC_ block is its router, port 0. -/
def blockUnit (k : BlockKind) (j : Nat) : Nat :=
  match k with
  | .sched => clusterUnit j
  | .icu => icuUnit j
  | .mmu => clusterUnit (j / 8)
  | .cache => if j < 16 then clusterUnit j else sliceUnit (j - 16)
  | .noc => 4 * j
  | .dmc => dramUnit j
  | .meqt => pipeUnit (pipeOf j)
  | .meqp => pipeUnit j
  | .eth => pipeUnit (j / 20)
  | .tsn => pipeUnit (j / 20)
  | .can => pipeUnit (j / 12)
  | .lin => pipeUnit (j / 8)
  | .pcie => pcieUnit j
  | .pwr => hubUnit
  | .clk => hubUnit
  | .rst => hubUnit
  | .pmu => hubUnit
  | .sec => secUnit
  | .seccw => secUnit
  | .safe => anchorUnit j
  | .trc => ledgerUnit

/-- The unit an access is sent to (R41, R45, R246, R337, R438). -/
def targetUnit (m : DecodeMap) (pa : Nat) : Nat :=
  match addrClass pa with
  | .dram => sliceUnit (homeSlice m (pa / 64))
  | .pcie j => pcieUnit j
  | .xspi => xspiUnit
  | .doorbell => pipeUnit (pipeOf ((pa - 0xE0000000000) / 0x1000))
  | .ringState => pipeUnit (pipeOf ((pa - 0xE1000000000) / 0x1000))
  | .config =>
    match findBlock (pa - 0xF0000000000) with
    | none => hubUnit
    | some b => blockUnit b.kind ((pa - 0xF0000000000 - b.base) / 0x10000)
  | _ => secUnit

/-- The size field of a request (R275). -/
def sizeLog (n : Nat) : Nat := Nat.log2 n

/-! ## Syndromes (R204) -/

/-- A translation fault: level, stage 2, kind, walk, intermediate address. -/
structure TFault where
  level : Nat
  s2 : Bool
  kind : Nat
  walk : Bool := false
  ipa : Nat := 0
deriving DecidableEq, Repr

/-- The syndrome word of R204. -/
def syndrome (level : Nat) (s2 : Bool) (kind : Nat) (write walk upper : Bool) : Word :=
  BitVec.ofNat 64 (level % 8 + (if s2 then 8 else 0) + (kind % 16) * 16 + (if write then 256 else 0)
    + (if walk then 512 else 0) + (if upper then 1024 else 0))

/-! ## Descriptors (R197, R198) -/

/-- A stage's leaf: output address, level, size exponent, type and the attribute bits a0 to a3 and g. -/
structure Leaf where
  out : Nat
  level : Nat
  lg : Nat
  mt : MType
  a0 : Bool
  a1 : Bool
  a2 : Bool
  a3 : Bool
  g : Bool
deriving DecidableEq, Repr

inductive Desc where
  | fault (kind : Nat)
  | table (pa : Nat)
  | leaf (l : Leaf)
deriving DecidableEq, Repr

/-- Size exponent of a leaf level, without the 64 KiB group. -/
def lvlLg : Nat → Nat
  | 1 => 30
  | 2 => 21
  | _ => 12

/-- A descriptor read at a level of stage 1 or stage 2; `tenantS1` is the tenant regime's stage 1, the only one with a
global bit (R198). -/
def descOf (w : Word) (level : Nat) (s2 tenantS1 : Bool) : Desc :=
  if !bit w 0 then .fault 1
  else if bit w 1 then
    if level = 0 then .fault 3
    else
      let bad := fld w 10 2 ≠ 0 || (s2 && (bit w 7 || bit w 8)) || (!tenantS1 && bit w 8) || (level ≠ 3 && bit w 9)
        || fld w 12 32 % 2 ^ (lvlLg level - 12) ≠ 0
      match bad, mtypeOf (fld w 2 2) with
      | false, some mt =>
        .leaf ⟨fld w 12 32 * 4096, level, if bit w 9 then 16 else lvlLg level, mt, bit w 4, bit w 5, bit w 6, bit w 7,
          bit w 8⟩
      | _, _ => .fault 3
  else if level = 3 then .fault 3
  else if fld w 2 10 ≠ 0 then .fault 3
  else .table (fld w 12 32 * 4096)

/-! ## The walk -/

/-- What a walk knows: the answers to its reads so far, by address, the map and world that decode them, the walk
caches it probes, and the entries of the TLBs. -/
structure WalkEnv where
  ans : List (Nat × WalkAns)
  map : DecodeMap
  closed : Bool
  wc1 : List Wc1Ent := []
  wcr : List RootEnt := []
  wc2 : List Wc2Ent := []
  tlb : List TlbEnt := []
deriving DecidableEq, Repr

/-- The result of a step of a walk: a read it still needs, a fault, or a value. -/
inductive WRes (α : Type) where
  | need (pa : Nat)
  | fault (f : TFault)
  | ok (x : α)
deriving DecidableEq, Repr

def WRes.bind {α β : Type} : WRes α → (α → WRes β) → WRes β
  | .need pa, _ => .need pa
  | .fault f, _ => .fault f
  | .ok x, k => k x

/-- One walk read: `none` where it is answered with a decode error or goes to a device type (kind 0x5). -/
def wread (e : WalkEnv) (pa : Nat) : WRes (Option Word) :=
  if decodeFails e.map e.closed false pa || forcedDevice pa then .ok none
  else
    match e.ans.find? (fun a => a.1 = pa) with
    | none => .need pa
    | some (_, .data v) => .ok (some v)
    | some (_, .bad) => .ok none

/-- A walk read whose failure is a fault of kind 0x5 at the given level and stage. -/
def wreadOr (e : WalkEnv) (pa level : Nat) (s2 : Bool) (ipa : Nat) (wk : Bool) : WRes Word :=
  (wread e pa).bind (fun r =>
    match r with
    | none => .fault ⟨level, s2, 5, wk, ipa⟩
    | some v => .ok v)

/-- The index of a table level: VA bits above `12 + 9 * (3 - level)` (R197). -/
def lvlShift (level : Nat) : Nat := 12 + 9 * (3 - level)

/-- The stage-2 levels from `level` down, `fuel` of them left: the leaf of an intermediate address (R197, R198). -/
def s2levels (e : WalkEnv) (ipa : Nat) (wk : Bool) : Nat → Nat → Nat → WRes Leaf
  | 0, level, _ => .fault ⟨level, true, 3, wk, ipa⟩
  | fuel + 1, level, table =>
    let idx := (ipa >>> lvlShift level) % (if level = 0 then 32 else 512)
    (wreadOr e (table + 8 * idx) level true ipa wk).bind (fun w =>
      match descOf w level true false with
      | .fault k => .fault ⟨level, true, k, wk, ipa⟩
      | .table t => s2levels e ipa wk fuel (level + 1) t
      | .leaf l => .ok l)

/-- The page of a leaf that holds an input address, 4 KiB resolved (R200). -/
def Leaf.page (l : Leaf) (ia : Nat) : Nat :=
  if l.lg = 16 then l.out else l.out + (ia % 2 ^ l.lg) / 4096 * 4096

/-- A stage-2 result: physical address, permissions r, w, x, type, leaf level and size exponent. -/
structure S2Out where
  pa : Nat
  r : Bool
  w : Bool
  x : Bool
  mt : MType
  level : Nat
  lg : Nat
deriving DecidableEq, Repr

/-- Stage 2 of an intermediate address, through the stage-2 walk cache (R194, R197, R208). -/
def stage2 (e : WalkEnv) (tenant s2root ipa : Nat) (wk : Bool) : WRes S2Out :=
  match e.wc2.find? (fun c => c.tenant = tenant && c.page = ipa / 4096) with
  | some c => .ok ⟨c.out * 4096 + ipa % 4096, c.r, c.w, c.x, c.mt, c.level, 12⟩
  | none =>
    (s2levels e ipa wk 4 0 s2root).bind (fun l =>
      .ok ⟨l.page ipa + ipa % 4096, l.a0, l.a1, l.a2, l.mt, l.level, l.lg⟩)

/-- A stage-1 walk read at an intermediate address: stage 2 with read permission, then the read (R199, R201). -/
def s1read (e : WalkEnv) (tenant s2root ipa level : Nat) : WRes Word :=
  (stage2 e tenant s2root ipa true).bind (fun o =>
    if !o.r then .fault ⟨o.level, true, 2, true, ipa⟩
    else if o.mt = .device then .fault ⟨o.level, true, 5, true, ipa⟩
    else wreadOr e o.pa level false 0 true)

/-- The root of a tenant's address space: tenant entry and ASID root entry (R194, R195). DESIGN CHOICE (log 74): a fault of the tenant
entry brings no intermediate address (g4 is 0), and a failed read of either of its doublewords is one of stage 2, level 4, kind 5. -/
def rootOf (e : WalkEnv) (tent tenant asid : Nat) : WRes RootEnt :=
  match e.wcr.find? (fun r => r.tenant = tenant && (r.s1off || r.asid = asid)) with
  | some r => .ok r
  | none =>
    (wreadOr e (tent + 16 * tenant) 4 true 0 false).bind (fun w0 =>
      if !bit w0 0 then .fault ⟨4, true, 1, false, 0⟩
      else if fld w0 2 6 ≠ 0 || fld w0 44 20 ≠ 0 then .fault ⟨4, true, 3, false, 0⟩
      else
        let s2root := fld w0 8 36 * 256
        if bit w0 1 then .ok ⟨tenant, asid, true, s2root, 0⟩
        else
          (wreadOr e (tent + 16 * tenant + 8) 4 true 0 false).bind (fun w1 =>
            if fld w1 0 13 ≠ 0 || fld w1 44 20 ≠ 0 then .fault ⟨5, false, 3, false, 0⟩
            else
              (s1read e tenant s2root (fld w1 13 31 * 8192 + 8 * asid) 5).bind (fun w2 =>
                if !bit w2 0 then .fault ⟨5, false, 1, false, 0⟩
                else if fld w2 1 11 ≠ 0 || fld w2 44 20 ≠ 0 then .fault ⟨5, false, 3, false, 0⟩
                else .ok ⟨tenant, asid, false, s2root, fld w2 12 32 * 4096⟩)))

/-- The stage-1 levels from `level` down, with the non-leaf descriptors passed (R197, R198, R208). -/
def s1levels (e : WalkEnv) (regime : BitVec 2) (tenant asid s2root : Nat) (va : Nat) :
    Nat → Nat → Nat → List Wc1Ent → WRes (Leaf × List Wc1Ent)
  | 0, level, _, _ => .fault ⟨level, false, 3, false, 0⟩
  | fuel + 1, level, table, acc =>
    let at_ := table + 8 * ((va >>> lvlShift level) % 512)
    (if regime = 2 then s1read e tenant s2root at_ level else wreadOr e at_ level false 0 false).bind (fun w =>
      match descOf w level false (regime = 2) with
      | .fault k => .fault ⟨level, false, k, false, 0⟩
      | .table t =>
        s1levels e regime tenant asid s2root va fuel (level + 1) t
          (⟨regime, tenant, asid, level, va >>> lvlShift level, t, s2root⟩ :: acc)
      | .leaf l => .ok (l, acc))

/-- The deepest cached stage-1 descriptor for an address (R210). -/
def probe (l : List Wc1Ent) (regime : BitVec 2) (tenant asid va : Nat) : Option Wc1Ent :=
  argMax (fun c => c.level)
    (l.filter (fun c => c.regime = regime && c.tenant = tenant && c.asid = asid && c.vtop = va >>> lvlShift c.level))

/-- Everything a finished walk brings: the combined entry and what the walk caches gain. -/
structure WalkOut where
  ent : TlbEnt
  c1 : List Wc1Ent := []
  cr : List RootEnt := []
  c2 : List Wc2Ent := []
deriving DecidableEq, Repr

/-- The base of a block of 2^lg bytes, from the address that one of its bytes translates to, modulo 2^44 (R200). -/
def baseOf (pa va lg : Nat) : Nat := (pa + 2 ^ 44 - va % 2 ^ lg) % 2 ^ 44

/-- The type of an output: that of the tables, device where the map forces it (R42, R202). -/
def finalType (mt : MType) (pa : Nat) : MType := if forcedDevice pa then .device else mt

/-- The combined entry of a stage-1 leaf and its stage-2 output. -/
def combine (m : DecodeMap) (closed : Bool) (regime : BitVec 2) (tenant asid va : Nat) (l : Leaf) (o : Option S2Out) :
    TlbEnt :=
  let ipa := l.page va + va % 4096
  match o with
  | none =>
    let lg := l.lg
    { regime := regime, tenant := tenant, asid := asid, glob := l.g, lg := lg, vpage := va >>> lg,
      out := baseOf ipa va lg, ipa := baseOf ipa va lg, mt := finalType l.mt ipa, u := l.a0, w := l.a1, ux := l.a2, sx := l.a3,
      r2 := true, w2 := true, x2 := true, lvl1 := l.level, lvl2 := 7, dec := decodeFails m closed false ipa, mt1 := l.mt }
  | some o =>
    let grp := l.lg = 16 && decide (o.lg < 16)
    let lg := min l.lg o.lg
    { regime := regime, tenant := tenant, asid := asid, glob := l.g, lg := lg, vpage := va >>> lg,
      out := baseOf o.pa va lg, ipa := baseOf ipa va lg, mt := finalType (l.mt.strict o.mt) o.pa, u := l.a0, w := l.a1,
      ux := l.a2, sx := l.a3, r2 := o.r, w2 := o.w, x2 := o.x, lvl1 := l.level, lvl2 := o.level,
      dec := decodeFails m closed false o.pa, mt1 := l.mt, grp := grp }

/-- The stage-2 walk-cache entry of an output page. -/
def wc2Of (tenant ipa : Nat) (o : S2Out) : Wc2Ent := ⟨tenant, ipa / 4096, o.pa / 4096, o.r, o.w, o.x, o.mt, o.level⟩

/-- The stage-2 walk-cache entries of the pages that a walk has read from, the address of the last read first (R208). -/
def readPages (e : WalkEnv) (tenant s2root : Nat) (l : List Nat) : List Wc2Ent :=
  l.filterMap (fun a =>
    match stage2 e tenant s2root a true with
    | .ok o => some (wc2Of tenant a o)
    | _ => none)

/-- The intermediate address of a tenant's ASID root entry, where the walk has read it. -/
def asidRead (e : WalkEnv) (tent tenant asid : Nat) : List Nat :=
  match e.ans.find? (fun a => a.1 = tent + 16 * tenant + 8) with
  | some (_, .data w) => [fld w 13 31 * 8192 + 8 * asid]
  | _ => []

/-- The stage-1 leaf that a held entry of a 64 KiB group gives the other pages of the group (R200). -/
def groupLeaf (e : WalkEnv) (tenant asid va : Nat) : Option Leaf :=
  (e.tlb.find? (fun t => t.grp && t.regime = 2 && t.tenant = tenant && (t.glob || t.asid = asid) && t.vpage / 16 = va / 2 ^ 16)).map
    (fun t => ⟨(t.ipa + 2 ^ 44 + va / 4096 * 4096 - t.vpage * 4096) % 2 ^ 44, t.lvl1, 16, t.mt1, t.u, t.w, t.ux, t.sx, t.glob⟩)

/-- The stage-1 leaf of an identity stage 1: it grants everything (R192). -/
def identityLeaf (va : Nat) (mt : MType) : Leaf := ⟨va / 4096 * 4096, 7, 12, mt, true, true, true, true, false⟩

/-- The end of a tenant-regime walk: stage 2 of the output of a stage-1 leaf; `reads` are the addresses it has read. -/
def walkLeaf (e : WalkEnv) (tenant asid va : Nat) (l : Leaf) (r : RootEnt) (c1 : List Wc1Ent) (reads : List Nat) : WRes WalkOut :=
  let ipa := l.page va + va % 4096
  (stage2 e tenant r.s2root ipa false).bind (fun o =>
    .ok { ent := combine e.map e.closed 2 tenant asid va l (some o), c1 := c1, cr := [r], c2 := wc2Of tenant ipa o :: readPages e tenant r.s2root reads })

/-- The whole walk of an address in a regime (R191, R194 to R200, R210): regime 0 M, 1 P, 2 tenant. `root` is the level-0
table of the M or P regime, `tent` the tenant table. -/
def walk (e : WalkEnv) (regime : BitVec 2) (tenant asid root tent va : Nat) : WRes WalkOut :=
  if regime = 2 then
    match groupLeaf e tenant asid va with
    | some l => (rootOf e tent tenant asid).bind (fun r => walkLeaf e tenant asid va l r [] [])
    | none =>
      match probe e.wc1 2 tenant asid va with
      | some c =>
        (s1levels e 2 tenant asid c.s2root va (3 - c.level) (c.level + 1) c.next []).bind (fun l =>
          walkLeaf e tenant asid va l.1 ⟨tenant, asid, false, c.s2root, 0⟩ (l.2 ++ [c]) ((l.2.map (fun x => x.next)) ++ [c.next]) |>.bind (fun o => .ok { o with cr := [] }))
      | none =>
        (rootOf e tent tenant asid).bind (fun r =>
          if r.s1off then
            if va / 2 ^ 44 ≠ 0 then .fault ⟨7, false, 4, false, 0⟩
            else
              (stage2 e tenant r.s2root va false).bind (fun o =>
                .ok { ent := { combine e.map e.closed 2 tenant asid va (identityLeaf va .wb) (some o) with glob := true },
                      cr := [r], c2 := [wc2Of tenant va o] })
          else
            (s1levels e 2 tenant asid r.s2root va 4 0 r.root []).bind (fun l =>
              walkLeaf e tenant asid va l.1 r l.2 ((l.2.map (fun x => x.next)) ++ r.root :: asidRead e tent tenant asid)))
  else
    (match probe e.wc1 regime 0 0 va with
     | some c => (s1levels e regime 0 0 0 va (3 - c.level) (c.level + 1) c.next []).bind (fun r => .ok (r.1, r.2 ++ [c]))
     | none => s1levels e regime 0 0 0 va 4 0 root []).bind (fun r =>
      .ok { ent := combine e.map e.closed regime 0 0 va r.1 none, c1 := r.2 })

/-! ## Regimes and permissions (R191, R199) -/

/-- The regime of a level and world: 0 M, 1 P, 2 tenant (R191). -/
def regimeOf (pl : BitVec 2) (closed : Bool) : BitVec 2 := if pl = 3 || closed then 0 else if pl = 2 then 1 else 2

/-- Whether the regime of a core has an identity stage 1 with no table: M with m_en 0, P with p_en 0 (R191). -/
def regimeFlat (s : State) (c : Nat) (rg : BitVec 2) : Bool :=
  if rg = 0 then !s.on (R.MMU_CTL c) F.MMU_CTL_m_en
  else if rg = 1 then !s.on (R.MMU_CTL c) F.MMU_CTL_p_en else false

/-- The level-0 table of the M or P regime (R228). -/
def regimeRoot (s : State) (c : Nat) (rg : BitVec 2) : Nat :=
  if rg = 0 then s.f (R.MMU_MROOT c) F.MMU_MROOT_root * 4096 else s.f (R.MMU_PROOT c) F.MMU_PROOT_root * 4096

def tentBase (s : State) (c : Nat) : Nat := s.f (R.MMU_TENT c) F.MMU_TENT_base * 8192

/-- Whether an entry serves an access of a regime, tenant and ASID to an address (R208). -/
def TlbEnt.serves (t : TlbEnt) (rg : BitVec 2) (tenant asid va : Nat) : Bool :=
  t.regime = rg && (rg ≠ 2 || (t.tenant = tenant && (t.glob || t.asid = asid))) && t.vpage = va >>> t.lg

/-- The permission checks of R199: stage 1 before stage 2; none: all pass. -/
def permFault (t : TlbEnt) (k : AccKind) (u : Bool) (va : Nat) : Option TFault :=
  let s1 := match k with
    | .read => !u || t.u
    | .write => t.w && (!u || t.u)
    | .fetch => if u then t.u && t.ux else t.sx
    | .exec => if u then t.u && t.ux else t.sx
  let s2 := match k with
    | .read => t.r2
    | .write => t.r2 && t.w2
    | .fetch => t.x2
    | .exec => t.x2
  if !s1 then some ⟨t.lvl1, false, 2, false, 0⟩
  else if !s2 then some ⟨t.lvl2, true, 2, false, (t.ipa + va % 2 ^ t.lg) % 2 ^ 44⟩
  else none

/-- The address an entry gives. -/
def TlbEnt.pa (t : TlbEnt) (va : Nat) : Nat := (t.out + va % 2 ^ t.lg) % 2 ^ 44

/-- An entry moves to the front: it is the most recently used. -/
def touchTlb (l : List TlbEnt) (t : TlbEnt) : List TlbEnt := t :: l.filter (· ≠ t)

/-- What the translation of one page answers at issue. -/
inductive TrRes where
  | ok (pa : Nat) (mt : MType) (dec : Bool) (ent : Option TlbEnt)
  | fault (f : TFault)
  | miss
deriving DecidableEq, Repr

/-- The translation of an address by a core's DTLB or ITLB, in a regime (R191 to R193, R199, R207). -/
def translate (s : State) (c : Nat) (rg : BitVec 2) (closed : Bool) (u : Bool) (tenant asid : Nat) (va : Word)
    (k : AccKind) : TrRes :=
  let v := va.toNat
  if v / 2 ^ 48 ≠ 0 then .fault ⟨0, false, 4, false, 0⟩
  else if regimeFlat s c rg then
    if v / 2 ^ 44 ≠ 0 then .fault ⟨7, false, 4, false, 0⟩
    else .ok v (if forcedDevice v then .device else .nc) (decodeFails (s.core c).map closed false v) none
  else
    match (if k = .fetch then (s.core c).itlb else (s.core c).dtlb).find? (fun t => t.serves rg tenant asid v) with
    | none => .miss
    | some t =>
      match permFault t k u v with
      | some f => .fault f
      | none => .ok (t.pa v) t.mt t.dec (some t)

/-- Translation of a context's own access (R191, R196). -/
def translateFor (s : State) (c : Nat) (b : Bank) (va : Word) (k : AccKind) : TrRes :=
  translate s c (regimeOf b.psw.pl b.psw.world) b.psw.world (b.psw.pl = 0) b.tenant b.asid va k

/-- A whole walk over coherent memory, at once: up to `n` reads (the folio accesses of the scheduler, the entry
stacking). -/
def walkNow (s : State) (e : WalkEnv) (go : WalkEnv → WRes α) : Nat → WRes α
  | 0 => .fault ⟨7, false, 5, true, 0⟩
  | n + 1 =>
    match go e with
    | .need pa => walkNow s { e with ans := (pa, .data (BitVec.ofNat 64 (cohRead s pa 8))) :: e.ans } go n
    | r => r

/-- The physical place of a folio address: an intermediate address translated by the tenant's stage 2 (R170), for
writing or reading; none: a translation fault, a type that is not write-back, or a decode error. DESIGN CHOICE (log 73): a
non-cacheable folio line fails as a device-type one does; R170 wants write-back and R188 names only the device type. -/
def folioPa (s : State) (c tenant ipa : Nat) (write : Bool) : Option Nat :=
  let m := (s.core c).map
  let e : WalkEnv := { ans := [], map := m, closed := false }
  let r := walkNow s e (fun e =>
    (wreadOr e (tentBase s c + 16 * tenant) 4 true 0 false).bind (fun w0 =>
      if !bit w0 0 || fld w0 2 6 ≠ 0 || fld w0 44 20 ≠ 0 then .fault ⟨4, true, 1, false, 0⟩
      else stage2 e tenant (fld w0 8 36 * 256) ipa false)) 8
  match r with
  | .ok o =>
    if o.r && (!write || o.w) && o.mt = .wb && !forcedDevice o.pa && !decodeFails m false write o.pa then some o.pa else none
  | _ => none

end Sys2Proof.Machine
end

