-- ==== Sys2Proof/Machine/Issue.lean ====
section
/-! DEFINITION. The issue of bundles: results in flight, holds, exceptions, entries and the commit of a bundle
(R53, R54, R76, R87, R98 to R102, R119, R135, R142 to R155, R584). -/

namespace Sys2Proof.Machine

/-! ## Results in flight -/

/-- The general register that a result writes. -/
def Bank.landReg (b : Bank) (f : Flight) : Bank :=
  match f.pw with
  | some (p, v) => b.wphys p v
  | none => b

/-- The floating-point flags that a result raises (R119, R125). -/
def Bank.landFlags (b : Bank) (f : Flight) : Bank := if f.fl = 0 then b else { b with fpc := b.fpc ||| BitVec.ofNat 64 (f.fl * 8) }

/-- A divide or decimal operation ends DVS.busy and writes its flags (R94, R96). -/
def Bank.landDvs (b : Bank) (f : Flight) : Bank :=
  if f.kind = .div || f.kind = .dec then { b with dvs := (setBit b.dvs 0 false) ||| BitVec.ofNat 64 f.dvs } else b

/-- The decimal carry that a result writes (R96). -/
def Bank.landDcy (b : Bank) (f : Flight) : Bank :=
  match f.dcy with
  | some y => { b with dvs := setBit b.dvs 4 y }
  | none => b

/-- The fault of a long operation is recorded in LOF (R100). DESIGN CHOICE (log 93): an MTSR to LOF that takes effect on the same edge
overwrites the record, and the exception stays pending. -/
def Bank.landFault (b : Bank) (f : Flight) : Bank :=
  match f.fault with
  | none => b
  | some cause =>
    if bit b.lof 63 then { b with lof := setBit b.lof 62 true }
    else { b with lof := setBit (setFld (setFld b.lof 0 48 f.addr.toNat) 48 4 cause) 63 true, lofPend := true }

/-- A result lands: it writes its registers and flags; a divide or decimal operation ends DVS.busy; a fault is recorded
in LOF (R76, R94, R96, R100, R119, R125). -/
def landFlight (b : Bank) (f : Flight) : Bank :=
  ((((((f.mw.foldl (fun b p => b.setM p.1 p.2) b).landReg f).landFlags f).landDvs f).landDcy f).landFault f)

/-- A result joins those in flight; they stand in the order of their edges, and of issue among equals (R76, R119). -/
def addFlight (l : List Flight) (f : Flight) : List Flight :=
  match l with
  | [] => [f]
  | g :: gs => if g.due ≤ f.due then g :: addFlight gs f else f :: g :: gs

def Bank.fly1 (b : Bank) (f : Flight) : Bank := { b with fly := addFlight b.fly f }

/-- Every result of a bank whose latency ends by edge `e` lands. -/
def landBank (e : Nat) (b : Bank) : Bank :=
  (b.fly.filter (fun f => f.due ≤ e)).foldl landFlight { b with fly := b.fly.filter (fun f => !decide (f.due ≤ e)) }

/-- Every result of a core whose latency ends by edge `e` lands, in whichever bank (R102, R119, R156). -/
def Core.land (k : Core) (e : Nat) : Core := { k with banks := k.banks.map (fun p => (p.1, landBank e p.2)) }

/-- The core's edge count moves on to `e`, its last busy edge (R506), and what is due lands; the edges passed count, the last
in the class given (R543). -/
def State.landIn (s : State) (c e : Nat) (last : Option Nat) : State :=
  let d := e - (s.core c).cyc
  (s.slots c d last).updCore c (fun k => { k.land e with cyc := k.cyc + d, idle := max k.idle e, ahead := k.ahead + d })

def State.landAt (s : State) (c e : Nat) : State := s.landIn c e none

/-- Whether every byte of a load is known. -/
def LoadEnt.complete (l : LoadEnt) : Bool := (List.range l.size).all (fun i => l.fwd.any (fun p => p.1 = i))

/-! ## Exceptions -/

/-- A precise exception of a syllable: an entry with its cause, the level of the cause and g2 to g4 (R142, R143, R204),
or a double window fault, which freezes the bank (R65). -/
inductive Exc where
  | entry (cause : Nat) (level : BitVec 2) (g2 g3 g4 : Word)
  | freeze
deriving DecidableEq, Repr

/-- The edges from a bundle's issue to the accept of its exception: 2 for a data-access fault (R207). -/
def Exc.delay : Exc → Nat
  | .freeze => 0
  | .entry c _ _ _ _ => if 5 ≤ c ∧ c ≤ 8 then 2 else 0

/-- The order of R584 among the precise exceptions of one bundle. -/
def Exc.rank : Exc → Nat
  | .freeze => 7
  | .entry c _ _ _ _ =>
    if c = 4 then 1 else if c = 0 then 2 else if c = 1 then 3 else if c = 2 then 4 else if c = 3 then 5
    else if c = 11 || c = 12 then 6 else if c = 13 || c = 14 then 7
    else if c = 15 || c = 16 || c = 17 then 8 else if c = 19 then 10 else 9

/-- An exception that goes to S and brings only g2. -/
def excS (cause : Nat) (g2 : Word := 0) : Exc := .entry cause 1 g2 0 0

/-- A data-access exception with its syndrome (R204). -/
def excData (cause kind : Nat) (va : Word) (write : Bool) : Exc :=
  .entry cause 1 va (syndrome 7 false kind write false false) 0

/-- A translation fault of a data access or a fetch (R204): cause 5 or 4, level P for stage 2. -/
def excTr (cause : Nat) (f : TFault) (va : Word) (write upper : Bool) : Exc :=
  .entry cause (if f.s2 then 2 else 1) va (syndrome f.level f.s2 f.kind write f.walk upper)
    (if f.s2 then BitVec.ofNat 64 f.ipa else 0)

/-- A progress word (R180). -/
def progWord (pc : Word) (done : Nat) (ldm : Bool) : Word :=
  BitVec.ofNat 64 (pc.toNat % 2 ^ 48 + (done % 64) * 2 ^ 50 + (if ldm then 2 ^ 62 else 0) + 2 ^ 63)

/-- The accesses that a bundle's STM or LDM has already completed. -/
def progDone (b : Bank) (ldm : Bool) : Nat :=
  let p := mget 0 b.prog b.depth
  if bit p 63 && fld p 0 48 = b.pc.toNat % 2 ^ 48 && bit p 62 = ldm then fld p 50 6 else 0

/-- A held bundle is given up: what its LDM has loaded lands (R180). -/
def Bank.dropHeld (b : Bank) : Bank :=
  match b.held with
  | some h => h.got.foldl Bank.fly1 { b with held := none, loads := b.loads.filter (fun l => decide (l.mt ≠ MType.device) && l.blk = 0) }
  | none => b

/-- An STM or LDM under way stops: its progress is written, and its bundle is given up (R180). -/
def Bank.stopMulti (b : Bank) : Bank :=
  match b.held with
  | some h => (if h.multi then { b with prog := mset b.prog b.depth (progWord b.pc (if h.last then h.ldm else h.stm) h.last) } else b).dropHeld
  | none => b

/-- A trigger of a Closed-world restart has effect while cw_state is SERVING (R458, R459). -/
def State.cwTrigger (s : State) : State :=
  if s.f R.SEC_STAT F.SEC_STAT_cw_state = 1 then s.setF R.SEC_STAT F.SEC_STAT_cw_state 2 else s

/-- The bank freezes: a double window fault or a stacking fault (R65, R146); at world 1 that triggers a Closed-world
restart (R458). -/
def State.freezeBank (s : State) (c b : Nat) : State :=
  let s1 := s.updBank c b (fun x => { x.dropHeld with st := .frozen, entry := none, missing := false, fwait := none, fsent := none, stc := none, isync := none,
                                                      dbgPend := false, cons := none })
  if (s.bank c b).psw.world then s1.cwTrigger else s1

/-- The cause-9 entry of a recorded lost store (R204, R224). -/
def lostExc (l : LostStore) : Exc := .entry 9 1 (BitVec.ofNat 64 l.pa) (syndrome 7 false l.kind true false false) 0

/-- The accept of an entry in place of the bundle at the bank's PC, on edge `t` (R142, R144, R147, R148): an STM or LDM stops, the entry
sequence starts and the reservation goes (R105). At entry depth 2 it is a double window fault. A recorded lost store is
reported first, a long-operation exception apart (R150, R224). -/
def State.accept (s : State) (c b t : Nat) (e : Exc) : State :=
  match e with
  | .freeze => s.freezeBank c b
  | .entry cause level g2 g3 g4 =>
    let x := s.bank c b
    let y := { x.stopMulti with resv := none, cons := none, missing := false, fwait := none, fsent := none, fbuf := [], ready := t }
    if 2 ≤ x.depth then s.freezeBank c b
    else
      match x.lost with
      | none => s.setBank c b { y with entry := some ⟨t, cause, level, g2, g3, g4, x.pc⟩ }
      | some l =>
        if cause = 10 then s.setBank c b { y with entry := some ⟨t, cause, level, g2, g3, g4, x.pc⟩ }
        else
          match lostExc l with
          | .entry n v a g h => s.setBank c b { y with lost := none, devLost := false, entry := some ⟨t, n, v, a, g, h, x.pc⟩ }
          | .freeze => s

/-! ## What a syllable does -/

/-- What a syllable answers at issue: an effect; an exception, with the progress that LDM and STM keep (R54, R180); a
wait, after which the bundle issues again (a TLB miss); or an access that it makes while its bundle is held (R153, R177, R179,
R218). -/
inductive SylRes where
  | ok (f : State → State)
  | exc (e : Exc) (f : State → State)
  | wait (f : State → State)
  | hold (f : State → State)

/-- The meaning of an instruction: the state as the bundle found it, its issue edge and its operands give what it
does. -/
abbrev Sem := State → Nat → Syl → SylRes

/-- The effect on the issuing bank only. -/
def onBank (x : Syl) (f : Bank → Bank) : SylRes := .ok (fun s => s.updBank x.core x.bank f)

/-- The effect that writes one general register, named in the window in force at issue (R53). -/
def writeD (s : State) (x : Syl) (n : BitVec 6) (v : Word) : SylRes :=
  let p := (s.bank x.core x.bank).nm n
  onBank x (fun b => b.wphys p v)

/-! ## Privilege (R61, R70, R264) -/

/-- The lowest level of an instruction. -/
def opLevel : Op → Nat
  | .rett => 1
  | .hcall => 1
  | .mcall => 1
  | .wspill => 1
  | .wfill => 1
  | .rsspill => 1
  | .rsfill => 1
  | .savel => 1
  | .saveh => 1
  | .restl => 1
  | .resth => 1
  | .dinval => 1
  | _ => 0

/-- The further condition of R61, with those of R67, R144 and R179. -/
def opCond (b : Bank) (o : Op) (x : Syl) : Bool :=
  match o with
  | .wspill => b.psw.tw && b.psw.wres ≠ 1
  | .wfill => b.psw.tw && b.psw.wres ≠ 5
  | .rsspill => decide (8 ≤ b.psw.rsd)
  | .rsfill => decide (b.psw.rsd ≤ 8)
  | .rett => b.psw.fast || b.depth ≠ 0
  | .ldm => !((b.g x.d).getLsbD x.a.toNat) && !((b.g x.d).getLsbD x.d.toNat)
  | _ => true

/-- The level of an MFSR or MTSR (R70). -/
def srLevel (o : Op) (i : Nat) : Nat :=
  match o with
  | .mfsr => (srRead i).getD 0
  | .mtsr => (srWrite i).getD 0
  | _ => 0

/-- The illegal-instruction and privilege exceptions of a decoded syllable (R59, R61, R70, R584). -/
def checkSyl (b : Bank) (o : Op) (x : Syl) : Option Exc :=
  if !fieldsOk o x.d x.a x.fn then some (excS 1)
  else if b.psw.pl.toNat < max (opLevel o) (srLevel o x.a.toNat) then some (excS 2)
  else if !opCond b o x then some (excS 1)
  else none

/-! ## Holds (R87, R98, R99, R101, R106, R109, R112, R120, R135) -/

/-- The general registers an instruction reads. -/
def readsOf (b : Bank) (o : Op) (x : Syl) : List (BitVec 6) :=
  match (opInfo o).2.2 with
  | .r => if o = .fma || o = .fms || o = .fnma || o = .stx then [x.d, x.a, x.b] else [x.a, x.b]
  | .r1 => [x.a]
  | .i => [x.a]
  | .u => if o = .movhi then [x.d] else []
  | .m => if o = .ldm then [x.d, x.a] else [x.a]
  | .s => if o = .stm then [x.d, x.a] ++ (onesBelow (b.g x.d) 64).map (BitVec.ofNat 6 ·) else [x.d, x.a]
  | .sc => [x.d, x.a]
  | .p => [x.a, x.b]
  | .q => [x.a, x.b]
  | .x => if o = .mtsr || o = .movtm then [x.d] else []
  | .b => [x.d]
  | .bb => [x.d]
  | _ => []

/-- The physical registers a bundle names, as operands or destinations. -/
def namesOf (b : Bank) (xs : List (Op × Syl)) : List Nat :=
  (xs.flatMap (fun p => destOf p.1 p.2 :: readsOf b p.1 p.2)).map (fun n => b.nm n)

/-- The later of two release edges; none: not yet known. -/
def joinHold : Option Nat → Option Nat → Option Nat
  | some a, some b => some (max a b)
  | _, _ => none

/-- The last edge on which results of the given kinds, into the given registers, land. -/
def lastDue (l : List Flight) (p : Flight → Bool) : Nat := (l.filter p).foldl (fun m f => max m f.due) 0

/-- Whether an instruction is an M-unit long operation or writes QT, RM or DVS (R98). -/
def isMLong (o : Op) (x : Syl) : Bool :=
  o = .div || o = .divu || o = .decadd || o = .decsub || (o = .movtm && decide (4 ≤ x.a.toNat))

def isHalf (o : Op) : Bool := o = .savel || o = .saveh || o = .restl || o = .resth

/-- The value of a complete load (R86). -/
def LoadEnt.value (l : LoadEnt) : Word :=
  extendTo l.size l.sext (bytesNat ((List.range l.size).map (fun i => mget 0 l.fwd i)))

/-- Whether a write-buffer entry is of a context: of its bank, or of its thread in the bank it had before (R102, R215, R222). -/
def Bank.owns (b : Bank) (bi : Nat) (e : WbEnt) : Bool := e.bank = bi || (b.thread.isSome && e.thread = b.thread)

/-- The accesses a barrier waits on: loads whose data is not usable, stores and maintenance not performed (R108). -/
def barHold (k : Core) (bi : Nat) (b : Bank) (w : BarWait) : Option Nat :=
  let ld := if b.loads.any (fun l => decide (l.seq < w.seq)) then none else some (lastDue b.fly (fun f => f.kind = .load))
  let st := if k.wb.any (fun e => b.owns bi e && e.kind ≠ .stack && decide (e.seq < w.seq)) then none else some 0
  match w.kind with
  | .barl => ld
  | .bars => st
  | .bara => joinHold ld st

/-- Whether a unit code is LD's or ST's. -/
def isMemUnit (o : Op) : Bool := (opInfo o).1 = 4 || (opInfo o).1 = 5

/-- Whether a result in flight or a load holds a register of a list pending. -/
def Flight.into (f : Flight) (l : List Nat) : Bool :=
  match f.pw with
  | some (p, _) => p ≠ 0 && l.contains p
  | none => f.hold ≠ 0 && l.contains f.hold

/-- The physical registers that a half-context save or restore moves: those of its half of the view, and the M-unit registers with
SAVEH and RESTH (R171, R172, R174). -/
def halfRegs (b : Bank) (upper : Bool) : List Nat := (List.range 32).map (fun i => physOf b.psw.cpos (i + if upper then 32 else 0))

/-- Whether a result in flight is one a half-context save waits for: a long operation, or a write into the registers it moves, the
floating-point flags being part of the lower half (R177). -/
def Flight.holdsHalf (f : Flight) (b : Bank) (upper : Bool) : Bool :=
  f.kind = .div || f.kind = .dec || f.kind = .fpLong || f.into (halfRegs b upper) || (if upper then f.mw ≠ [] || f.dcy.isSome else f.fl ≠ 0)

/-- The edge by which nothing pending holds a half-context save (R177). -/
def halfHold (b : Bank) (upper : Bool) : Option Nat :=
  if b.loads.any (fun l => l.phys ≠ 0 && (halfRegs b upper).contains l.phys) then none else some (lastDue b.fly (fun f => f.holdsHalf b upper))

/-- The edge on which the last hold of a bundle releases it; none: an answer is still to come. -/
def holdEdge (k : Core) (bi : Nat) (xs : List (Op × Syl)) : Option Nat :=
  let b := k.bank bi
  let nm := namesOf b xs
  let ld := if b.loads.any (fun l => l.phys ≠ 0 && nm.contains l.phys) then none else some 0
  let pend := some (lastDue b.fly (fun f => (f.kind = .load || f.kind = .dec || f.kind = .fpLong || f.kind = .slow) && f.into nm))
  let ml := if xs.any (fun p => isMLong p.1 p.2) then some (lastDue b.fly (fun f => f.kind = .div || f.kind = .dec)) else some 0
  let fl := if xs.any (fun p => p.1 = .fdiv || p.1 = .fsqrt) then some (lastDue b.fly (fun f => f.kind = .fpLong)) else some 0
  let bx := if xs.any (fun p => p.1 = .barx) then
      some (lastDue b.fly (fun f => f.kind = .div || f.kind = .dec || f.kind = .fpLong)) else some 0
  let br := if xs.any (fun p => isMemUnit p.1) then b.bars.foldl (fun m w => joinHold m (barHold k bi b w)) (some 0) else some 0
  let hv := xs.foldl (fun m p => if isHalf p.1 then joinHold m (halfHold b (p.1 = .saveh || p.1 = .resth)) else m) (some 0)
  [ld, pend, ml, fl, bx, br, hv].foldl joinHold (some b.ready)

/-! ## Power domains (R494, R496) -/

/-- The power domain of a core is its own number; those of the other units (R494). -/
def clusterDom (k : Nat) : Nat := 128 + k
def sliceDom (k : Nat) : Nat := 144 + k
def dramDom (m : Nat) : Nat := 160 + m
def pipeDom (p : Nat) : Nat := 168 + p
def portDom (p : Nat) : Nat := 170 + p
def pcieDom (j : Nat) : Nat := 210 + j

/-- Whether a domain is ON. -/
def domOn (s : State) (d : Nat) : Bool := s.f (R.PWR_DOM d) F.PWR_DOM_state = 2

/-- Whether a domain has power: ON, or powering down, whose sequence it still runs (R498). -/
def powered (s : State) (d : Nat) : Bool := s.f (R.PWR_DOM d) F.PWR_DOM_state = 2 || s.f (R.PWR_DOM d) F.PWR_DOM_state = 3

/-- Whether an island's generator is locked (R501). -/
def locked (s : State) (i : Nat) : Bool := s.on (R.CLK_ISL i) F.CLK_ISL_locked

/-- Whether a unit with a power domain and an island of its own runs: it has power, its generator is locked, and its
clock is not gated, a gate not counting while it powers down (R497, R498, R501, R505). -/
def unitRuns (s : State) (d i : Nat) : Bool :=
  powered s d && locked s i && (!s.on (R.CLK_ISL i) F.CLK_ISL_gate || s.f (R.PWR_DOM d) F.PWR_DOM_state = 3)

/-- NOC_CTL.rto of a router as it acts (R291, R297). -/
def rtoOf (s : State) (router : Nat) : Nat := max 128 (s.f (R.NOC_CTL router) F.NOC_CTL_rto)

/-- The [ref] edge from which a transaction that a unit of the router sends now is late: the wait is fixed when it is sent (R29,
R291). -/
def rtoLate (s : State) (router : Nat) : Nat := s.ref + rtoOf s router

/-- MMU_DTO.dto as it acts (R223). -/
def dtoOf (s : State) (c : Nat) : Nat := min 25000 (max 25 (s.f (R.MMU_DTO c) F.MMU_DTO_dto))

/-- Whether an answer is a timeout that comes before the transaction is late. -/
def tooEarly (s : State) (late : Nat) (ans : MemAns) : Bool := ans = .timeout && decide (s.ref < late)

/-- Whether a half's clusters are held in reset: its anchor is at SAFE-STATE, and the drain before the reset is over
(R226, R477). -/
def heldInReset (s : State) (half : Nat) : Bool :=
  safeLevel s half = 3 && !s.hub.resets.any (fun r => r.cause = 9 && r.target = half)

/-- Whether a cluster runs: it runs as a unit and its half is not held in reset. -/
def clusterRuns (s : State) (q : Nat) : Bool := unitRuns s (clusterDom q) (128 + q) && !heldInReset s (clusterHalf q)

/-- Whether a core's clock runs: it runs as a unit, its half is not held in reset and it is not asleep (R38, R506). -/
def coreClocked (s : State) (c : Nat) : Bool :=
  unitRuns s c c && !heldInReset s (clusterHalf (clusterOf c)) && !s.on (R.PWR_CORE c) F.PWR_CORE_asleep

/-- A command of one unit out of `n`; while the unit does not run the command waits, and nothing changes (R38, R505;
log 49). -/
def atRunning (n u : Nat) (run : Bool) (s : State) (f : State → State) : Host.Outcome State Fault Refusal :=
  if u < n then .next (if run then f s else s) else .fault .noSuchUnit

/-- A command of a slice, a cluster's L2, a DRAM channel, or a message-engine pipeline with its ports, controllers and
tenants. -/
def atSlice (k : Nat) (s : State) (f : State → State) : Host.Outcome State Fault Refusal := atRunning 16 k (unitRuns s (sliceDom k) (144 + k)) s f
def atL2 (q : Nat) (s : State) (f : State → State) : Host.Outcome State Fault Refusal := atRunning 16 q (clusterRuns s q) s f
def atChan (m : Nat) (s : State) (f : State → State) : Host.Outcome State Fault Refusal := atRunning 8 m (unitRuns s (dramDom m) (190 + m)) s f
def pipeRuns (s : State) (p : Nat) : Bool := unitRuns s (pipeDom p) (198 + p)
def atPipe (half : Nat) (s : State) (f : State → State) : Host.Outcome State Fault Refusal := atRunning 2 half (pipeRuns s half) s f
def atPort (port : Nat) (s : State) (f : State → State) : Host.Outcome State Fault Refusal := atRunning 40 port (pipeRuns s (port / 20)) s f
def atCan (n : Nat) (s : State) (f : State → State) : Host.Outcome State Fault Refusal := atRunning 24 n (pipeRuns s (n / 12)) s f
def atLin (m : Nat) (s : State) (f : State → State) : Host.Outcome State Fault Refusal := atRunning 16 m (pipeRuns s (m / 8)) s f

/-- Whether a router or a PCIe controller, whose logic is in its router's island, runs (R494). -/
def routerRuns (s : State) (r : Nat) : Bool := locked s (160 + r)
def pcieRuns (s : State) (j : Nat) : Bool := powered s (pcieDom j) && routerRuns s (pcieUnit j / 4)
def atRouter (r : Nat) (s : State) (f : State → State) : Host.Outcome State Fault Refusal := atRunning 30 r (routerRuns s r) s f
def atPcie (j : Nat) (s : State) (f : State → State) : Host.Outcome State Fault Refusal := atRunning 2 j (pcieRuns s j) s f

/-- Whether an island that no switched domain powers runs: its generator is locked and its clock not gated (R501, R505). -/
def islandRuns (s : State) (i : Nat) : Bool := locked s i && !s.on (R.CLK_ISL i) F.CLK_ISL_gate

/-- Whether the debug port and the TRC_ block run: with the Ledger's island, and on while its domain is OFF (R32, R534). -/
def debugRuns (s : State) : Bool := !powered s 217 || unitRuns s 217 203

/-- Whether the unit that serves a register runs: an MMU_ block is its core's, a port's and a controller's that of its pipeline, a PCIe
controller's and a distributor's that of its router, whatever the power of the unit itself (R32, R46, R494, R534, R582). -/
def blockRuns (s : State) (k : BlockKind) (j : Nat) : Bool :=
  match k with
  | .sched => clusterRuns s j
  | .mmu => clusterRuns s (j / 8) && coreClocked s j
  | .cache => if j < 16 then clusterRuns s j else unitRuns s (sliceDom (j - 16)) (128 + j)
  | .noc => routerRuns s j
  | .dmc => unitRuns s (dramDom j) (190 + j)
  | .meqt => pipeRuns s (pipeOf j)
  | .meqp => pipeRuns s j
  | .eth => pipeRuns s (j / 20)
  | .tsn => pipeRuns s (j / 20)
  | .can => pipeRuns s (j / 12)
  | .lin => pipeRuns s (j / 8)
  | .pcie => routerRuns s (pcieUnit j / 4)
  | .icu => routerRuns s (icuUnit j / 4)
  | .sec => islandRuns s 202
  | .seccw => islandRuns s 202
  | .safe => locked s (200 + j)
  | .trc => debugRuns s
  | .pwr => locked s 204
  | .clk => locked s 204
  | .rst => locked s 204
  | .pmu => locked s 204

/-- Whether the unit behind an offset of the register space runs. -/
def regRuns (s : State) (a : Nat) : Bool :=
  match findBlock a with
  | none => true
  | some b => blockRuns s b.kind ((a - b.base) / 0x10000)

/-- A command of a CACHE_ block: a cluster's, or a slice's. -/
def atCache (j : Nat) (s : State) (f : State → State) : Host.Outcome State Fault Refusal := if j < 16 then atL2 j s f else if j < 32 then atSlice (j - 16) s f else .fault .noSuchUnit

/-- The bank of a core that is selected for issue, the fast bank apart. -/
def runBank (k : Core) : Option Nat := (k.banks.find? (fun p => p.2.st = .run && !p.2.psw.fast)).map (·.1)

/-- Whether a load that holds its own bundle is outstanding: a device load, or a line of a block operation (R153, R177, R218). -/
def Bank.busyLoad (b : Bank) : Bool := b.loads.any (fun l => l.mt = .device || l.blk ≠ 0)

/-! ## Interrupts that are due (R147, R150 to R152, R325, R326) -/

/-- The distributor that owns a source (R319): 0 W, 1 E. -/
def srcOwner (n : Nat) : Nat :=
  if n < 512 then pipeOf n
  else if n < 552 then (if n < 532 then 0 else 1)
  else if n < 576 then (if n < 564 then 0 else 1)
  else if n < 592 then (if n < 584 then 0 else 1)
  else if n < 624 then 0
  else if n < 656 then 1
  else if n < 664 then (if n < 660 then 0 else 1)
  else if n < 672 then (if n < 668 then 0 else 1)
  else if n < 702 then routerHalf (n - 672)
  else if n < 718 then clusterHalf (n - 702)
  else if n < 734 then clusterHalf (n - 718)
  else if n = 734 then 0
  else if n < 741 then 1
  else if n < 743 then 0
  else if n < 768 then 1
  else if n < 896 then clusterHalf (clusterOf (n - 768))
  else if n < 904 then 0
  else if n < 912 then 1
  else if n < 968 then 0
  else 1

/-- The routing entry of a source. -/
def icuSrc (n : Nat) : Nat := R.ICU_SRC (srcOwner n) n

/-- The level of a routing entry (R336). -/
def icuLevel (s : State) (n : Nat) : BitVec 2 := BitVec.ofNat 2 (s.f (icuSrc n) F.ICU_SRC_lvl)

/-- Whether PSW.fie of the issuing bank admits the fast class; with no bank selected nothing masks it. -/
def fieOf (k : Core) : Bool :=
  match runBank k with
  | some bi => (k.bank bi).psw.fie
  | none => true

/-- The presented fast source that the idle fast bank takes now (R151, R157). -/
def fastDue (s : State) (c : Nat) : Option Nat :=
  let k := s.core c
  let f := k.bank 7
  if k.fastRun || !f.psw.fast || !fieOf k || !coreClocked s c || f.st = .frozen || !s.on (R.SCHED_CORE (clusterOf c) (c % 8)) F.SCHED_CORE_fast_en then none
  else (k.pres.find? (fun p => p.1 = 8)).map (·.2)

/-- Whether a bank is the one its core may issue from: selected, with no entry, WAITEV, folio sequence or load of its own bundle under
way (R152, R153, R164, R184, R218, R226). -/
def selected (s : State) (c bi : Nat) : Bool :=
  let k := s.core c
  let b := k.bank bi
  coreClocked s c && !pairBlocked s c && k.drain.isNone && (if k.fastRun then bi = 7 && b.psw.fast else b.st = .run && k.move.isNone)
    && b.entry.isNone && b.waitev.isNone && !b.busyLoad

/-- Whether a bank admits its presented normal-class source, with no entry of higher priority due (R147, R150, R325, R326). -/
def admits (s : State) (c bi n : Nat) : Bool :=
  let b := s.bank c bi
  selected s c bi && !(s.core c).fastRun && (fastDue s c).isNone && b.psw.ie && decide (b.depth ≤ 1) && b.irq.isNone && !b.lofPend && b.loads.all (fun l => l.mt ≠ .device && l.blk = 0)
    && s.f (icuSrc n) F.ICU_SRC_lvl ≠ 0 && (s.f (icuSrc n) F.ICU_SRC_lvl ≠ 1 || s.f (icuSrc n) F.ICU_SRC_tenant = b.tenant)

/-- The presented normal-class source that a bank takes at this boundary. -/
def normalDue (s : State) (c bi : Nat) : Option Nat :=
  match (s.core c).pres.find? (fun p => p.1 = bi) with
  | some (_, n) => if admits s c bi n then some n else none
  | none => none

/-- Whether a bank may issue its next bundle: its core may issue from it, nothing of R135 whose end is an event of its own holds
it, and no interrupt is due at this boundary (R106, R112, R150, R207). -/
def canIssue (s : State) (c bi : Nat) : Bool :=
  let b := s.bank c bi
  selected s c bi && b.stc.isNone && b.isync.isNone && b.fwait.isNone && !b.missing && (fastDue s c).isNone && (normalDue s c bi).isNone

/-! ## The issue of a bundle -/

/-- The results of a bundle's syllables gathered: the first exception of R584's order, else a wait, else an access made while the
bundle is held, else the effects one after the other. -/
structure Gathered where
  exc : Option (Exc × (State → State)) := none
  wait : Option (State → State) := none
  hold : Option (State → State) := none
  eff : State → State := id

def gather (g : Gathered) (r : SylRes) : Gathered :=
  match r with
  | .ok f => { g with eff := fun s => f (g.eff s) }
  | .wait f => if g.wait.isSome then g else { g with wait := some f }
  | .hold f =>
    match g.hold with
    | some h => { g with hold := some (fun s => f (h s)) }
    | none => { g with hold := some f }
  | .exc e f =>
    match g.exc with
    | some (d, _) => if e.rank < d.rank then { g with exc := some (e, f) } else g
    | none => { g with exc := some (e, f) }

/-- What one syllable answers: its illegal or privilege exception, else its meaning's answer. -/
def sylRes (sem : Op → Sem) (s : State) (t : Nat) (p : Op × Syl) : SylRes :=
  match checkSyl (s.bank p.2.core p.2.bank) p.1 p.2 with
  | some e => .exc e id
  | none => sem p.1 s t p.2

/-- The commit of a bundle of `n` words issued on edge `t`: results due on the next edge land first, so that this
bundle's stand over them (R119); the PC moves past the bundle; the syllables' effects follow (R53). -/
def commit (c bi t n : Nat) (eff : State → State) (s : State) : State :=
  eff ((s.updCore c (fun k => k.land (t + 1))).updBank c bi (fun b =>
    { b with pc := b.pc + BitVec.ofNat 64 (4 * n), ready := t + 1, held := none }))

/-- The long-operation exception that is pending (R100): taken in place of the bundle. -/
def longOpExc (b : Bank) : Exc := .entry 10 1 (BitVec.ofNat 64 (fld b.lof 0 48)) 0 0

/-- Whether the recorded lost store is taken in place of this bundle: it is the first one held by a barrier whose wait ended with that
store (R110, R224). -/
def lostDue (b : Bank) (xs : List (Op × Syl)) : Option Exc :=
  match b.lost with
  | none => none
  | some l => if b.bars.any (fun w => w.kind ≠ .barl && decide (l.seq < w.seq)) && xs.any (fun p => isMemUnit p.1) then some (lostExc l) else none

/-- The cause-10 or cause-9 entry that is due is taken in place of the bundle; its pending mark goes (R100, R224). -/
def State.acceptLongOp (s : State) (c bi t : Nat) : State :=
  let b := s.bank c bi
  (s.setBank c bi { b with lofPend := false }).accept c bi t (longOpExc b)

/-- The imprecise fault of R110 and R224 is taken in place of the bundle. -/
def State.acceptLost (s : State) (c bi t : Nat) (e : Exc) : State :=
  (s.updBank c bi (fun b => { b with lost := none, devLost := false, bars := [] })).accept c bi t e

/-- What surrounds a bundle's commit on an edge: a debug event that replaces it, and what observes it before and after its
effect, the latter seeing the state before it as well. -/
structure Hooks where
  event : Nat → State → Option (State → State) := fun _ _ => none
  before : Nat → State → State := fun _ s => s
  after : Nat → State → State → State := fun _ _ s => s

/-- What a bundle's syllables answer on edge `t` in a state. -/
def runSyls (sem : Op → Sem) (s : State) (t : Nat) (xs : List (Op × Syl)) : Gathered := xs.foldl (fun g p => gather g (sylRes sem s t p)) {}

/-- A bundle that goes on holding keeps what it found (R53). -/
def State.keepHeld (s : State) (c bi t n : Nat) (xs : List (Op × Syl)) (found : State) : State :=
  s.updBank c bi (fun b =>
    match b.held with
    | some _ => b
    | none =>
      let f := found.bank c bi
      { b with held := some { at_ := t, syls := xs, words := n, multi := xs.any (fun p => p.1 = .stm || p.1 = .ldm), stm := progDone f false, ldm := progDone f true,
                              last := xs.all (fun p => p.1 ≠ .stm), phys := f.phys, mreg := f.mreg, dvs := f.dvs, fpc := f.fpc, lof := f.lof,
                              dtlb := (found.core c).dtlb, seq := f.seq } })

/-- A bundle whose syllables have answered takes its exception, waits, goes on holding, takes a debug event, or commits. -/
def finish (c bi t n : Nat) (xs : List (Op × Syl)) (h : Hooks) (s sw : State) (g : Gathered) : State :=
  match g.exc with
  | some (e, f) => ((f sw).updBank c bi (fun b => { b with waste := e.delay / 2 })).accept c bi (t + e.delay) e
  | none =>
    match g.wait with
    | some f =>
      let s1 := f sw
      if (s1.bank c bi).missing then s1.updBank c bi (fun b => { b with waste := 1 }) else f (s.landIn c t (some 5))
    | none =>
      match h.event t sw with
      | some f => f sw
      | none =>
        match g.hold with
        | some f => f ((s.landIn c t (some 5)).keepHeld c bi t n xs sw)
        | none => h.after t sw (commit c bi t n g.eff (h.before t (s.landIn c t (some 2))))

/-- The state in which a held bundle's syllables read their operands: the registers and translations as the bundle found
them. -/
def Held.view (w : Held) (c bi : Nat) (s : State) : State :=
  (s.updCore c (fun k => { k with dtlb := if w.multi then k.dtlb else w.dtlb })).updBank c bi (fun b => { b with phys := w.phys, mreg := w.mreg, dvs := w.dvs, fpc := w.fpc, lof := w.lof })

/-- A held bundle goes on, on edge `t`: it takes the exception of an access, waits, makes its next access, or commits (R153, R177,
R179, R180, R218). -/
def resume (sem : Op → Sem) (c bi t : Nat) (w : Held) (hooks : List (Op × Syl) → Hooks) (s : State) : State :=
  finish c bi t w.words w.syls { hooks w.syls with event := fun _ _ => none } s (s.landIn c t (some (wastedCode s)))
    (runSyls sem (w.view c bi (s.landAt c t)) t w.syls)

/-- A bundle reaches issue: it waits for its holds, and then takes what is due in its place, raises its first exception,
waits for a translation, takes a debug event, is held for accesses of its own, or commits (R54, R135, R150, R535, R543, R584). `pre` is a
format or illegal-instruction fault of its decoding. A bundle of the bank that is held goes on first. -/
def issue (sem : Op → Sem) (c bi n : Nat) (xs : List (Op × Syl)) (pre : Option Exc) (h : List (Op × Syl) → Hooks) (s : State) : State :=
  if !canIssue s c bi then s
  else
    match (s.bank c bi).held with
    | some w => resume sem c bi (max ((s.core c).cyc + 1) (s.bank c bi).ready) w h s
    | none =>
      match holdEdge (s.core c) bi xs with
      | none => s
      | some r =>
        let t := max ((s.core c).cyc + 1) r
        let sw := s.landIn c t (some (wastedCode s))
        let b := sw.bank c bi
        if b.lofPend then sw.acceptLongOp c bi t
        else
          match lostDue b xs with
          | some e => sw.acceptLost c bi t e
          | none =>
            match pre with
            | some e => sw.accept c bi t e
            | none => finish c bi t n xs (h xs) s sw (runSyls sem sw t xs)

/-! ## Reading and writing memory as a context sees it -/

/-- Whether an entry of the write buffer belongs to a bundle that is held: it is no earlier store to that bundle's loads, and is not yet
performed (R53). -/
def Bank.midBundle (b : Bank) (bi : Nat) (e : WbEnt) : Bool :=
  match b.held with
  | some w => e.bank = bi && decide (w.seq ≤ e.seq)
  | none => false

/-- The byte that a bank's own write-buffer entries give at an address: the youngest that holds it (R53, R215). -/
def wbByte (k : Core) (bi pa : Nat) : Option Byte :=
  let b := k.bank bi
  k.wb.foldl (fun r e =>
    if b.owns bi e && !b.midBundle bi e && e.pa / 64 = pa / 64 && e.mask.getLsbD (pa % 64) then
      some (BitVec.ofNat 8 (lineField e.data (pa % 64) 1)) else r) none

/-- `n` bytes as the context sees them: its own buffered stores over the coherent view (R145, R215). -/
def ctxRead (s : State) (c bi pa : Nat) : Nat → Nat
  | 0 => 0
  | n + 1 =>
    (match wbByte (s.core c) bi pa with
     | some v => v.toNat
     | none => cohRead s pa 1) + 256 * ctxRead s c bi (pa + 1) n

/-- A store of `n` low bytes of `v` within one line, put into the write buffer (R215). -/
def State.pushWb (s : State) (c bi : Nat) (kind : WbKind) (pa n v : Nat) (upper : Bool) (ent : Option TlbEnt) : State :=
  let b := s.bank c bi
  let e : WbEnt := { seq := b.seq, bank := bi, tenant := b.tenant, closed := b.psw.world, kind := kind, pa := pa, size := n,
                     data := setLineField 0 (pa % 64) n v, mask := byteMask (pa % 64) n, thread := b.thread, upper := upper, ent := ent }
  (s.updCore c (fun k => { k with wb := k.wb ++ [e] })).updBank c bi (fun b => { b with seq := b.seq + 1 })

/-! ## World switch (R260) -/

/-- A dirty line of an L1 becomes its L2's line (R244, R247, R260). -/
def Cluster.takeBack (k : Cluster) (x : CLine) : Cluster :=
  match findLine k.l2 x.line with
  | some y => { k with l2 := k.l2.map (fun z => if z.line = x.line then { y with data := x.data, dirty := true, st := .m, poison := x.poison } else z) }
  | none => k

/-- Pending predictor updates are dropped; the history of their banks still takes their branches (R136, R138). -/
def Core.dropTrains (k : Core) (p : Train → Bool) : Core :=
  (k.bcq.filter p).foldl (fun k e =>
    if e.kind = 0 then k.setBank e.bank { k.bank e.bank with gh := (k.bank e.bank).gh <<< 1 ||| (if e.taken then 1 else 0) } else k)
    { k with bcq := k.bcq.filter (fun e => !p e) }

/-- The flush of a world switch: every L1I line and predictor entry goes, every dirty L1D line goes to the L2 and the
L1D is emptied (R260). -/
def State.worldFlush (s : State) (c : Nat) : State :=
  let k := s.core c
  let s1 := if l1dOn s c then s.updCluster (clusterOf c) (fun q => (k.l1d.filter (·.dirty)).foldl Cluster.takeBack q) else s
  (s1.setCore c
    { k.dropTrains (fun _ => true) with l1i := [], l1d := [], btb := [], dirT := [], indT := [] }).evc c 0x38 (4 + (k.l1d.filter (·.dirty)).length)

/-- The edges the flush takes (R260). -/
def flushEdges (k : Core) : Nat := 4 + (k.l1d.filter (·.dirty)).length

/-! ## The entry sequence -/

/-- TVBM as it acts: SEC_CW_TVBM once its lock is set (R440). -/
def tvbmOf (s : State) (b : Bank) : Word :=
  if s.on R.SEC_CW_CTL F.SEC_CW_CTL_tvbm_lock then BitVec.ofNat 64 (s.f R.SEC_CW_TVBM F.SEC_CW_TVBM_base * 4096) else b.tvbm

/-- The vector of a cause at a level (R142). -/
def vector (s : State) (b : Bank) (level : BitVec 2) (cause : Nat) : Word :=
  (if level = 3 then tvbmOf s b else if level = 2 then b.tvbp else b.tvbs) + BitVec.ofNat 64 (cause * 0x80)

/-- The fast-vector buffer takes the first fetch block of the fast bank's vector, where the ITLB and the L1I hold it (R151). -/
def State.loadFastBuf (s : State) (c : Nat) : State :=
  let b := s.bank c 7
  let va := vector s b b.psw.pl 31
  let blk := match translateFor s c b va .fetch with
    | .ok pa .wb false _ => if l1iOn s c then (findLine (s.core c).l1i (pa / 64)).map (fun x => (pa / 32, x.data)) else none
    | _ => none
  s.updCore c (fun k => { k with fastBuf := blk })

/-- The physical place of a folio access by level and world: stage 2 in the tenant regime; in the P and M regimes the
folio address is physical (R170, R191; log 12). None: the access faults (R146). -/
def folioAt (s : State) (c : Nat) (b : Bank) (addr : Nat) (write : Bool) : Option Nat :=
  if regimeOf b.psw.pl b.psw.world = 2 then folioPa s c b.tenant addr write
  else if decodeFails (s.core c).map b.psw.world write addr || forcedDevice addr then none else some (addr % 2 ^ 44)

/-- The higher of two levels. -/
def maxLevel (a b : BitVec 2) : BitVec 2 := if a.toNat < b.toNat then b else a

/-- The PSW an entry with stacking leaves (R63, R64, R143). -/
def entryPsw (p : Psw) (level : BitVec 2) : Psw :=
  let l := maxLevel level p.pl
  { p with pl := l, ie := false, world := p.world || l = 3, wcur := if p.tw then p.wcur else nextPos p.wcur, tw := true }

/-- The bank an entry leaves after its capture (R142 to R144, R439). -/
def entryBank (s : State) (b : Bank) (e : EntrySeq) (ready : Nat) : Bank :=
  let p := entryPsw b.psw e.level
  let b' := { b with psw := p, depth := b.depth + 1, entry := none, ready := max b.ready ready, pc := vector s b p.pl e.cause,
                     closedEntry := if p.world && !b.psw.world then some (b.depth, b.folio, b.psw.rsd) else b.closedEntry }
  let w := [(1, BitVec.ofNat 64 e.cause), (2, e.g2), (3, e.g3), (4, e.g4), (5, 0), (6, 0)]
  w.foldl (fun b q => b.wphys q.1 q.2) b'

/-- The bytes of a stacking record: PSW, PC and g1 to g6 (R145). -/
def recordWords (b : Bank) (pc : Word) : List Word :=
  [b.psw.word, pc] ++ ([1, 2, 3, 4, 5, 6].map (fun i => b.rphys i))

/-- Words as the low bytes of a number. -/
def packWords : List Word → Nat
  | [] => 0
  | w :: ws => w.toNat + 2 ^ 64 * packWords ws

/-- A stacking record enters the two write-buffer entries reserved for it, 32 bytes each (R146, R147). -/
def State.stackWords (s : State) (c bi pa : Nat) (ws : List Word) : State :=
  (s.pushWb c bi .stack pa 32 (packWords (ws.take 4)) false none).pushWb c bi .stack (pa + 32) 32 (packWords (ws.drop 4)) false none

/-- The capture of an entry: once writes pending into g1 to g6 have landed, PSW, PC and g1 to g6 are captured and
stacked, and the handler's PSW, PC and g1 to g6 stand (R145 to R149, R260). -/
def State.capture (s : State) (c bi : Nat) : State :=
  let b := s.bank c bi
  match b.entry with
  | none => s
  | some e =>
    if b.loads.any (fun l => decide (1 ≤ l.phys) && decide (l.phys ≤ 6)) then s
    else
      let ce := max (max (e.at_ + 5) b.gLand) (lastDue b.fly (fun f =>
        match f.pw with
        | some (p, _) => decide (1 ≤ p) && decide (p ≤ 6)
        | none => false))
      let s := s.landAt c ce
      let b := s.bank c bi
      let toLong := e.cause = 18 && b.lofPend
      let e := if toLong then { e with cause := 10, level := 1, g2 := BitVec.ofNat 64 (fld b.lof 0 48), g3 := 0, g4 := 0 } else e
      let s := match toLong, b.irq with
        | true, some (_, n) => { s with notices := s.notices ++ [(false, n)] }
        | _, _ => s
      let b := if toLong then { b with lofPend := false, irq := none } else b
      match folioAt s c b (b.folio.toNat + 0x180 + 0x40 * b.depth) true with
      | none => s.freezeBank c bi
      | some pa =>
        let ws := recordWords b e.pc
        let enterM := maxLevel e.level b.psw.pl = 3 && !b.psw.world
        let w := if enterM then flushEdges (s.core c) else 0
        let s1 := (s.setBank c bi b).stackWords c bi pa ws
        let s1 := if e.cause ≤ 17 then s1.ev c bi 0x2F 1 else if e.cause = 18 then s1.ev c bi 0x30 1 else s1
        let s1 := if e.cause = 11 ∨ e.cause = 12 then s1.ev c bi 0x32 1 else if e.cause = 13 ∨ e.cause = 14 then s1.ev c bi 0x33 1 else s1
        let s2 := if enterM then s1.worldFlush c else s1
        s2.updBank c bi (fun x => { entryBank s b e (ce + 6 + w) with seq := x.seq })

/-! ## The return from an entry (R68, R144, R153) -/

/-- The PSW that RETT restores: the named fields from the record, wres, rsd, rsl, bank and fast as they are. -/
def rettPsw (p r : Psw) : Psw :=
  { p with pl := r.pl, world := r.world, ie := r.ie, fie := r.fie, wcur := r.wcur, tw := r.tw, rsm := r.rsm, cf0 := r.cf0,
           cf1 := r.cf1, vf0 := r.vf0, vf1 := r.vf1 }

/-- The words of a record as the context reads them. -/
def readWords (s : State) (c bi pa : Nat) : Nat → List Word
  | 0 => []
  | n + 1 => BitVec.ofNat 64 (ctxRead s c bi pa 8) :: readWords s c bi (pa + 8) n

/-- The bank that RETT leaves, from the eight words of its record. -/
def rettBank (b : Bank) (ws : List Word) (ready : Nat) : Bank :=
  let r := Psw.ofWord (ws.getD 0 0)
  let b' := { b with psw := rettPsw b.psw r, pc := ws.getD 1 0, depth := b.depth - 1, ready := ready,
                     closedEntry := if b.psw.world && !r.world then none else b.closedEntry }
  [1, 2, 3, 4, 5, 6].foldl (fun b i => b.wphys i (ws.getD (i + 1) 0)) b'

end Sys2Proof.Machine
end

