-- ==== Sys2Proof/Machine/Integer.lean ====
section
/-! DEFINITION. The integer units I0 and I1 (R82 to R85) and the special-register moves (R70). -/

namespace Sys2Proof.Machine

/-- The issuing bank as the bundle found it. -/
def preBank (s : State) (x : Syl) : Bank := s.bank x.core x.bank

/-- The operands ra and rb. -/
def opA (s : State) (x : Syl) : Word := (preBank s x).g x.a
def opB (s : State) (x : Syl) : Word := (preBank s x).g x.b
def opD (s : State) (x : Syl) : Word := (preBank s x).g x.d

/-- The effect that writes rd and the unit's carry and overflow flags (R84). -/
def writeDCv (s : State) (x : Syl) (v : Word) (c o : Bool) : SylRes :=
  let p := (preBank s x).nm x.d
  onBank x (fun b => { b.wphys p v with psw := b.psw.setCv x.i1 c o })

/-- An addition of two values and a carry in, with its flags (R83, R84). -/
def addRes (s : State) (x : Syl) (a b : Word) (c : Bool) : SylRes :=
  writeDCv s x (a + b + (if c then 1 else 0)) (addCarry a b c) (addOver a b c)

/-- A subtraction with a borrow in, with its flags (R83, R84). -/
def subRes (s : State) (x : Syl) (a b : Word) (c : Bool) : SylRes :=
  writeDCv s x (a - b - (if c then 1 else 0)) (subBorrow a b c) (subOver a b c)

/-- NOP does nothing. -/
def semNop : Sem := fun _ _ _ => .ok id
def semAdd : Sem := fun s _ x => addRes s x (opA s x) (opB s x) false
def semSub : Sem := fun s _ x => subRes s x (opA s x) (opB s x) false
def semAddc : Sem := fun s _ x => addRes s x (opA s x) (opB s x) ((preBank s x).psw.cf x.i1)
def semSubc : Sem := fun s _ x => subRes s x (opA s x) (opB s x) ((preBank s x).psw.cf x.i1)
def semAddi : Sem := fun s _ x => addRes s x (opA s x) x.imm false

/-- AND (R83). -/
def aluAnd (a b : Word) : Word := a &&& b
/-- OR (R83). -/
def aluOr (a b : Word) : Word := a ||| b
/-- XOR (R83). -/
def aluXor (a b : Word) : Word := a ^^^ b
/-- ANDN (R83). -/
def aluAndn (a b : Word) : Word := a &&& ~~~b
/-- ORN (R83). -/
def aluOrn (a b : Word) : Word := a ||| ~~~b
/-- SHL (R83). -/
def aluShl (a b : Word) : Word := a <<< (b.toNat % 64)
/-- SHR (R83). -/
def aluShr (a b : Word) : Word := a >>> (b.toNat % 64)
/-- SAR (R83). -/
def aluSar (a b : Word) : Word := a.sshiftRight (b.toNat % 64)
/-- ROL (R83). -/
def aluRol (a b : Word) : Word := a.rotateLeft (b.toNat % 64)
/-- CMPEQ (R83). -/
def aluCmpeq (a b : Word) : Word := boolW (a = b)
/-- CMPNE (R83). -/
def aluCmpne (a b : Word) : Word := boolW (a ≠ b)
/-- CMPLT (R83). -/
def aluCmplt (a b : Word) : Word := boolW (a.slt b)
/-- CMPLTU (R83). -/
def aluCmpltu (a b : Word) : Word := boolW (a.ult b)
/-- CMPLE (R83). -/
def aluCmple (a b : Word) : Word := boolW (a.sle b)
/-- CMPLEU (R83). -/
def aluCmpleu (a b : Word) : Word := boolW (a.ule b)
/-- MIN (R83). -/
def aluMin (a b : Word) : Word := if a.slt b then a else b
/-- MAX (R83). -/
def aluMax (a b : Word) : Word := if a.slt b then b else a
/-- MINU (R83). -/
def aluMinu (a b : Word) : Word := if a.ult b then a else b
/-- MAXU (R83). -/
def aluMaxu (a b : Word) : Word := if a.ult b then b else a
/-- CLZ (R83). -/
def aluClz (a : Word) : Word := BitVec.ofNat 64 (clz64 a)
/-- CTZ (R83). -/
def aluCtz (a : Word) : Word := BitVec.ofNat 64 (ctz64 a)
/-- POPC (R83). -/
def aluPopc (a : Word) : Word := BitVec.ofNat 64 (popcount a 64)
/-- BSWAP (R83). -/
def aluBswap (a : Word) : Word := bswap64 a
/-- SEXT (R83). -/
def aluSext (x : Syl) (a : Word) : Word := extendTo (2 ^ x.fn.toNat) true a.toNat
/-- ZEXT (R83). -/
def aluZext (x : Syl) (a : Word) : Word := extendTo (2 ^ x.fn.toNat) false a.toNat

def semAnd : Sem := fun s _ x => writeD s x x.d (aluAnd (opA s x) (opB s x))
def semOr : Sem := fun s _ x => writeD s x x.d (aluOr (opA s x) (opB s x))
def semXor : Sem := fun s _ x => writeD s x x.d (aluXor (opA s x) (opB s x))
def semAndn : Sem := fun s _ x => writeD s x x.d (aluAndn (opA s x) (opB s x))
def semOrn : Sem := fun s _ x => writeD s x x.d (aluOrn (opA s x) (opB s x))
def semShl : Sem := fun s _ x => writeD s x x.d (aluShl (opA s x) (opB s x))
def semShr : Sem := fun s _ x => writeD s x x.d (aluShr (opA s x) (opB s x))
def semSar : Sem := fun s _ x => writeD s x x.d (aluSar (opA s x) (opB s x))
def semRol : Sem := fun s _ x => writeD s x x.d (aluRol (opA s x) (opB s x))
def semCmpeq : Sem := fun s _ x => writeD s x x.d (aluCmpeq (opA s x) (opB s x))
def semCmpne : Sem := fun s _ x => writeD s x x.d (aluCmpne (opA s x) (opB s x))
def semCmplt : Sem := fun s _ x => writeD s x x.d (aluCmplt (opA s x) (opB s x))
def semCmpltu : Sem := fun s _ x => writeD s x x.d (aluCmpltu (opA s x) (opB s x))
def semCmple : Sem := fun s _ x => writeD s x x.d (aluCmple (opA s x) (opB s x))
def semCmpleu : Sem := fun s _ x => writeD s x x.d (aluCmpleu (opA s x) (opB s x))
def semMin : Sem := fun s _ x => writeD s x x.d (aluMin (opA s x) (opB s x))
def semMax : Sem := fun s _ x => writeD s x x.d (aluMax (opA s x) (opB s x))
def semMinu : Sem := fun s _ x => writeD s x x.d (aluMinu (opA s x) (opB s x))
def semMaxu : Sem := fun s _ x => writeD s x x.d (aluMaxu (opA s x) (opB s x))
def semAndi : Sem := fun s _ x => writeD s x x.d (aluAnd (opA s x) x.imm)
def semOri : Sem := fun s _ x => writeD s x x.d (aluOr (opA s x) x.imm)
def semXori : Sem := fun s _ x => writeD s x x.d (aluXor (opA s x) x.imm)
def semShli : Sem := fun s _ x => writeD s x x.d (aluShl (opA s x) x.imm)
def semShri : Sem := fun s _ x => writeD s x x.d (aluShr (opA s x) x.imm)
def semSari : Sem := fun s _ x => writeD s x x.d (aluSar (opA s x) x.imm)
def semRoli : Sem := fun s _ x => writeD s x x.d (aluRol (opA s x) x.imm)
def semCmpeqi : Sem := fun s _ x => writeD s x x.d (aluCmpeq (opA s x) x.imm)
def semCmpnei : Sem := fun s _ x => writeD s x x.d (aluCmpne (opA s x) x.imm)
def semCmplti : Sem := fun s _ x => writeD s x x.d (aluCmplt (opA s x) x.imm)
def semCmpltui : Sem := fun s _ x => writeD s x x.d (aluCmpltu (opA s x) x.imm)
def semClz : Sem := fun s _ x => writeD s x x.d (aluClz (opA s x))
def semCtz : Sem := fun s _ x => writeD s x x.d (aluCtz (opA s x))
def semPopc : Sem := fun s _ x => writeD s x x.d (aluPopc (opA s x))
def semBswap : Sem := fun s _ x => writeD s x x.d (aluBswap (opA s x))
def semSext : Sem := fun s _ x => writeD s x x.d (aluSext x (opA s x))
def semZext : Sem := fun s _ x => writeD s x x.d (aluZext x (opA s x))

/-- MOVI (R83). -/
def semMovi : Sem := fun s _ x => writeD s x x.d x.imm

/-- MOVHI: bits [63:48], or [63:32] with an extension, from the immediate (R57, R58). -/
def semMovhi : Sem := fun s _ x =>
  let old := opD s x
  writeD s x x.d (if x.ext then x.imm.extractLsb' 0 32 ++ old.extractLsb' 0 32 else x.imm.extractLsb' 0 16 ++ old.extractLsb' 0 48)

/-- ADDPC: the bundle address plus the immediate (R60, R83). -/
def semAddpc : Sem := fun s _ x => writeD s x x.d ((preBank s x).pc + x.imm)

/-- MFSR (R70, R440). -/
def semMfsr : Sem := fun s _ x =>
  let b := preBank s x
  writeD s x x.d (if x.a.toNat = 8 then tvbmOf s b else b.sr x.core x.a.toNat)

/-- The flags that land in FPC on the edge an MTSR takes effect (R125). -/
def fpcLanding (b : Bank) (t : Nat) : Nat :=
  b.fly.foldl (fun m f => if f.due = t + 1 then m ||| f.fl else m) 0

/-- MTSR: effective from the next bundle (R70 to R74, R125); TVBM is fixed once its lock is set (R440); a fast bank's
vector buffer is reloaded when its TVB changes (R151). -/
def semMtsr : Sem := fun s t x =>
  let b := preBank s x
  let v := b.g x.d
  let i := x.a.toNat
  let lk := i = 8 && s.on R.SEC_CW_CTL F.SEC_CW_CTL_tvbm_lock
  .ok (fun s =>
    let s1 := s.updBank x.core x.bank (fun b' =>
      if lk then b'
      else if i = 2 then { b' with fpc := fpcWrite b.fpc v ||| BitVec.ofNat 64 (fpcLanding b t * 8) }
      else b'.setSr i v)
    if x.bank = 7 && b.psw.fast && decide (6 ≤ i) && decide (i ≤ 8) then s1.loadFastBuf x.core else s1)

end Sys2Proof.Machine
end

