-- ==== Sys2Proof/Machine/LoadStore.lean ====
section
/-! DEFINITION. The LD and ST units: loads, stores, prefetch, barriers, LDRES and STCOND, STM and LDM, the half-context,
window and return-stack saves, and cache maintenance (R86 to R88, R103 to R111, R174 to R180, R67, R80, R205, R214 to
R224, R264). -/

namespace Sys2Proof.Machine

/-! ## Fault reports (R471) -/

/-- A fault report is launched to the collector of a half. -/
def State.report (s : State) (half code island : Nat) : State := { s with reports := s.reports ++ [⟨half, code, island⟩] }

/-- A bank frozen by a transaction that did not complete is reported as fault 0x0E (R291, R472). -/
def State.freezeByTransaction (s : State) (c b : Nat) : State :=
  (s.freezeBank c b).report (clusterHalf (clusterOf c)) 0x0E (128 + clusterOf c)

/-! ## The parts of an access and their translation (R205, R221) -/

/-- A part of an access: its address, its offset in the access, its length, and whether it is the upper half. -/
structure Part where
  va : Word
  off : Nat
  n : Nat
  upper : Bool
deriving DecidableEq, Repr

/-- An access of `n` bytes split at a line boundary (R221). -/
def partsOf (va : Word) (n : Nat) : List Part :=
  let r := 64 - va.toNat % 64
  if n ≤ r then [⟨va, 0, n, false⟩] else [⟨va, 0, r, false⟩, ⟨va + BitVec.ofNat 64 r, r, n - r, true⟩]

/-- A translated part. -/
structure PartAt where
  va : Word
  off : Nat
  n : Nat
  upper : Bool
  pa : Nat
  mt : MType
  dec : Bool
  ent : Option TlbEnt
deriving DecidableEq, Repr

/-- What the checks of an access answer: an exception, a TLB miss of one of its parts, or the translated parts. -/
inductive Access where
  | exc (e : Exc)
  | miss (va : Word) (upper : Bool)
  | ok (ps : List PartAt)

/-- Normal write-back type outside DRAM space acts as non-cacheable (R245). -/
def effType (mt : MType) (pa : Nat) : MType := if mt = .wb && addrClass pa ≠ .dram then .nc else mt

/-- The translation of the parts, the lower before the upper (R205). -/
def translateParts (s : State) (c : Nat) (b : Bank) (k : AccKind) : List Part → Access
  | [] => .ok []
  | p :: ps =>
    match translateFor s c b p.va k with
    | .fault f => .exc (excTr 5 f p.va (k = .write) p.upper)
    | .miss => .miss p.va p.upper
    | .ok pa mt dec ent =>
      match translateParts s c b k ps with
      | .ok qs => .ok (⟨p.va, p.off, p.n, p.upper, pa, effType mt pa, dec, ent⟩ :: qs)
      | r => r

/-- The memory-type and decode checks of translated parts (R205): `noDev` is the syndrome kind of an instruction that
device type refuses. -/
def typeCheck (va : Word) (n : Nat) (k : AccKind) (noDev : Option Nat) (ps : List PartAt) : Option Exc :=
  let w := decide (k = .write)
  if ps.any (fun p => p.mt = .device) then
    if decide (1 < ps.length) || va.toNat % n ≠ 0 then some (excData 6 9 va w)
    else match noDev with
      | some kd => some (excData 7 kd va w)
      | none => if k = .read && ps.any (·.dec) then some (excData 8 0xC va w) else none
  else if k = .read then
    match ps.find? (·.dec) with
    | some p => some (.entry 8 1 p.va (syndrome 7 false 0xC false false p.upper) 0)
    | none => none
  else none

/-- All checks of a data access, in the order of R205: `align` is the alignment its instruction requires. -/
def accessCheck (s : State) (c : Nat) (b : Bank) (va : Word) (n : Nat) (k : AccKind) (align : Nat) (noDev : Option Nat) :
    Access :=
  if va.toNat % align ≠ 0 then .exc (excData 6 8 va (k = .write))
  else
    match translateParts s c b k (partsOf va n) with
    | .ok ps =>
      match typeCheck va n k noDev ps with
      | some e => .exc e
      | none => .ok ps
    | r => r

/-- A TLB miss: the walk starts when the port is free, and the bank waits for its result (R204, R207, R209). -/
def State.startWalk (s : State) (c bi : Nat) (va : Word) (k : AccKind) (upper : Bool) : State :=
  let b := s.bank c bi
  let w : Walk := { bank := bi, regime := regimeOf b.psw.pl b.psw.world, tenant := b.tenant, asid := b.asid, closed := b.psw.world, va := va, kind := k, pc := b.pc,
                    user := b.psw.pl = 0, upper := upper }
  if k = .fetch then
    if (s.core c).walkI.isSome then s
    else ((s.updCore c (fun q => { q with walkI := some w })).updBank c bi (fun b => { b with missing := true })).ev c bi 0x16 1
  else if (s.core c).walkD.isSome then s
  else ((s.updCore c (fun q => { q with walkD := some w })).updBank c bi (fun b => { b with missing := true })).ev c bi 0x17 1

/-- The DTLB entries an access used become the most recently used (R208). -/
def State.touchParts (s : State) (c : Nat) (ps : List PartAt) : State :=
  s.updCore c (fun k => ps.foldl (fun k p =>
    match p.ent with
    | some e => { k with dtlb := touchTlb k.dtlb e }
    | none => k) k)

/-! ## Miss registers (R251) -/

/-- A line is asked for: it merges with the miss register of the line, up to 8 secondaries, or takes a free one of 16; `full`: a
store of the whole line, which needs none of its data (R175). Whether it could stand in the answer. -/
def State.needLine (s : State) (c line : Nat) (write pref full : Bool) (tenant : Nat) (closed : Bool) : State × Bool :=
  let k := s.core c
  match k.mshr.find? (fun m => m.line = line && m.lvl = 1) with
  | some m =>
    if m.secs < 8 then
      let s1 := s.setCore c { k with mshr := k.mshr.map (fun x => if x.line = line && x.lvl = 1 then { x with secs := x.secs + 1, pref := x.pref && pref, full := x.full && full } else x) }
      (if pmuHidden s closed then s1 else s1.evc c 0x13 1, true)
    else (s, false)
  | none =>
    if (k.mshr.filter (fun m => m.lvl = 1)).length < 16 then
      let s1 := s.setCore c { k with mshr := k.mshr ++ [{ line := line, write := write, pref := pref, full := full, tenant := tenant, closed := closed }] }
      (if pmuHidden s closed then s1 else s1.evc c 0x12 1, true)
    else (s, false)

/-- Free miss registers of a core's L1D. -/
def freeMshr (k : Core) : Nat := 16 - (k.mshr.filter (fun m => m.lvl = 1)).length

/-! ## Loads that wait -/

/-- The address of byte `i` of a load. -/
def LoadEnt.byteAt (l : LoadEnt) (i : Nat) : Nat :=
  match l.hi with
  | none => l.pa + i
  | some h => if i < 64 - l.pa % 64 then l.pa + i else h + (i - (64 - l.pa % 64))

/-- The bytes that `n` bytes of data from address `a` bring to a load. -/
def LoadEnt.bring (l : LoadEnt) (a n v : Nat) : LoadEnt :=
  { l with fwd := l.fwd ++ ((List.range l.size).filterMap (fun i =>
      let x := l.byteAt i
      if l.fwd.any (fun q => q.1 = i) || !(decide (a ≤ x) && decide (x < a + n)) then none
      else some (i, BitVec.ofNat 8 (v / 256 ^ (x - a))))) }

/-- The part of a load whose bytes are first missing: its address and length. -/
def LoadEnt.gap (l : LoadEnt) : Nat × Nat :=
  match l.hi with
  | none => (l.pa, l.size)
  | some h =>
    let n := 64 - l.pa % 64
    if (List.range n).all (fun i => l.fwd.any (fun q => q.1 = i)) then (h, l.size - n) else (l.pa, n)

/-- A bank's load is replaced. -/
def Bank.setLoad (b : Bank) (l : LoadEnt) : Bank := { b with loads := b.loads.map (fun x => if x.seq = l.seq then l else x) }

/-! ## Requests of a core outside its caches (R245, R583, R587) -/

/-- The least exponent of two that holds `n` bytes from an address without crossing its alignment; else the line. -/
def reqSize (pa n : Nat) : Nat :=
  if n = 1 then 0 else if n = 2 && pa % 2 = 0 then 1 else if n = 4 && pa % 4 = 0 then 2
  else if n = 8 && pa % 8 = 0 then 3 else 6

/-- The request packet of a core's access; a read of fewer bytes than its size covers names them by its mask (log 83). -/
def corePkt (s : State) (c typ : Nat) (pa n : Nat) (mt : MType) (tenant : Nat) (closed : Bool) : Pkt :=
  { net := 0, typ := typ, src := clusterUnit (clusterOf c), dst := targetUnit (s.core c).map pa, closed := closed, tenant := tenant,
    size := reqSize pa n, mt := mt.code, pa := pa, mask := if reqSize pa n = 6 && decide (n < 64) then byteMask (pa % 64) n else 0 }

/-- The tag that the next request of a core's cluster takes. -/
def coreTag (s : State) (c : Nat) : Nat := s.nextTag (clusterUnit (clusterOf c))

/-- A non-cacheable or device read is sent. -/
def State.sendRead (s : State) (c : Nat) (pa n : Nat) (mt : MType) (tenant : Nat) (closed : Bool) : State :=
  s.request (corePkt s c (if mt = .device then 0xA else 7) pa n mt tenant closed)

/-- A lost store is recorded in MMU_DWL and marks its bank; when another thread holds the bank, the supervisor of the
issuing thread gets event bit 15 instead (R224, R225). -/
def State.recordLost (s : State) (c : Nat) (e : WbEnt) (kind : Nat) : State :=
  let s := if pmuHidden s e.closed then s else s.evc c 0x22 1
  let s :=
    if s.on (R.MMU_DWL c) F.MMU_DWL_valid then s.setF (R.MMU_DWL c) F.MMU_DWL_over 1
    else ((((s.setF (R.MMU_DWL c) F.MMU_DWL_pa e.pa).setF (R.MMU_DWL c) F.MMU_DWL_tenant e.tenant).setF (R.MMU_DWL c)
      F.MMU_DWL_bank e.bank).setF (R.MMU_DWL c) F.MMU_DWL_dropped 0).setF (R.MMU_DWL c) F.MMU_DWL_valid 1
  let b := s.bank c e.bank
  if b.thread = e.thread then
    s.setBank c e.bank { b with lost := some (b.lost.getD ⟨e.pa, kind, e.seq⟩), devLost := b.devLost || kind = 0xE }
  else
    match e.thread with
    | some n => s.contextFault (clusterOf c) n
    | none => s

/-- A store is dropped unsent and counted (R224). -/
def State.dropStore (s : State) (c : Nat) : State := s.incSat (R.MMU_DWL c) F.MMU_DWL_dropped 1

def sameEnt (e f : WbEnt) : Bool := e.bank = f.bank && e.seq = f.seq

/-- An entry leaves the write buffer. -/
def State.dropWb (s : State) (c : Nat) (e : WbEnt) : State :=
  s.updCore c (fun k => { k with wb := dropFirst (fun f => sameEnt e f) k.wb })

/-- The map by which a core's own router decodes (R43, R581). -/
def routerMap (s : State) (c : Nat) : DecodeMap := (s.router (tileRouter (clusterOf c))).map

/-- The edge from which a store sent now is late (R223, R291). -/
def State.storeLate (s : State) (c : Nat) (e : WbEnt) : Nat := if e.kind = .dev then s.ref + dtoOf s c else rtoLate s (tileRouter (clusterOf c))

/-- A buffered non-cacheable or device store is sent: the router answers a decode error at once, and the store is
dropped and recorded (R43, R583). -/
def State.sendStore (s : State) (c : Nat) (e : WbEnt) : State :=
  if decodeFails (routerMap s c) e.closed true e.pa then (s.recordLost c e 0xC).dropWb c e
  else
    let t := coreTag s c
    let mt := if e.kind = .dev then MType.device else if e.thru then .wb else .nc
    ((s.request { corePkt s c (if e.kind = .dev then 0xB else 8) e.pa e.size mt e.tenant e.closed with data := e.data, mask := e.mask })).updCore c
      (fun k => { k with wb := k.wb.map (fun f => if sameEnt e f then { f with sent := true, late := s.storeLate c e, tag := t } else f) })

/-- Whether an older entry of the same context holds bytes of the same line that this one also names (R216). -/
def olderSame (l : List WbEnt) (e : WbEnt) (wholeLine : Bool) : Bool :=
  l.any (fun f => (f.bank = e.bank || (e.thread.isSome && f.thread = e.thread)) && decide (f.seq < e.seq) && f.pa / 64 = e.pa / 64 && (wholeLine || f.mask &&& e.mask ≠ 0))

/-- Whether an older load of the bank still awaits bytes that a store writes (R216). -/
def loadBlocks (b : Bank) (e : WbEnt) : Bool :=
  b.loads.any (fun l => decide (l.seq < e.seq) && !l.complete && (List.range l.size).any (fun i =>
    l.byteAt i / 64 = e.pa / 64 && e.mask.getLsbD (l.byteAt i % 64)))

/-- Whether an entry stands in the write buffer: one of its 16, or one of the two for stacking; the others wait behind them, and a
maintenance operation takes none (R111, R146, R215). -/
def wbIn (k : Core) (e : WbEnt) : Bool :=
  if e.kind = .clean || e.kind = .inval then true
  else if e.kind = .stack then ((k.wb.filter (fun f => f.kind = .stack)).take 2).any (sameEnt e)
  else ((k.wb.filter (fun f => f.kind = .normal || f.kind = .nc || f.kind = .dev)).take 16).any (sameEnt e)

/-- The lower part of a split store, while it is unperformed, of which an entry is the upper part (R221). -/
def lowerOf (l : List WbEnt) (e : WbEnt) : Option WbEnt := if e.upper then l.find? (fun f => f.bank = e.bank && f.seq + 1 = e.seq) else none

/-- Whether an entry may be performed or sent, as far as the order of the context's accesses goes: it stands in the buffer, its bundle
has committed, no earlier access to one of its bytes is outstanding, and it is no upper part that waits for its lower part (R53,
R216, R221). -/
def mayGo (s : State) (c : Nat) (e : WbEnt) : Bool :=
  let k := s.core c
  wbIn k e && !(k.bank e.bank).midBundle e.bank e && !olderSame k.wb e (e.kind = .clean || e.kind = .inval) && !loadBlocks (k.bank e.bank) e && (lowerOf k.wb e).isNone

/-- Whether stores or maintenance of a bank's context numbered below `n` are unperformed. -/
def storesBelow (k : Core) (bi n : Nat) : Bool := k.wb.any (fun e => (k.bank bi).owns bi e && decide (e.seq < n))

/-- A bank's ISYNC ends once every store and maintenance operation before it is performed: its next bundle issues
8 [core] later (R112, R155). -/
def State.endIsync (s : State) (c : Nat) : State :=
  s.updCore c (fun k => { k with banks := k.banks.map (fun p =>
    match p.2.isync with
    | some (t, n) => if storesBelow k p.1 n then p else (p.1, { p.2 with isync := none, ready := max p.2.ready (max t k.cyc + 8) })
    | none => p) })

/-- A clean or invalidate request goes to the home slice, a clean one with the cluster's dirty data, which stays dirty until
the home has taken it; DINVAL removes the cluster's own copies, from the L1Is as well where the L2 loses the line (R244, R248, R264,
R265; logs 24, 85). Where the router answers a decode error
there is no line, and the operation is performed (R43, R111; log 76). -/
def State.sendMaint (s : State) (c : Nat) (e : WbEnt) : State :=
  if decodeFails (routerMap s c) e.closed (e.kind = .inval) e.pa then (s.dropWb c e).endIsync c
  else
    let k := clusterOf c
    let line := e.pa / 64
    let dirty := match clusterCopy s k line with
      | some x => if x.dirty then some x.data else none
      | none => none
    let t := coreTag s c
    let s2 := if e.kind = .inval then
        let held := l2On s k && (findLine (s.cluster k).l2 line).isSome
        ((clusterCores k).foldl (fun s1 i => s1.updCore i (fun q =>
          { q with l1d := if l1dOn s i then dropLine q.l1d line else q.l1d, l1i := if held && l1iOn s i then dropLine q.l1i line else q.l1i })) s).updCluster k
          (fun q => { q with l2 := if held then dropLine q.l2 line else q.l2 })
      else s
    let p := { corePkt s c (if e.kind = .inval then 4 else 3) (64 * line) 64 .wb e.tenant e.closed with
               data := if e.kind = .inval then 0 else dirty.getD 0, mask := if e.kind = .clean && dirty.isSome then BitVec.allOnes 64 else 0 }
    (s2.request p).updCore c
      (fun q => { q with wb := q.wb.map (fun f => if sameEnt e f then { f with sent := true, late := rtoLate s (tileRouter k), tag := t } else f) })

/-- The partition class of a tenant by a CACHE_ block (R256). -/
def cacheClass (s : State) (j tenant : Nat) : Nat := s.f (R.CACHE_TMAP j tenant) F.CACHE_TMAP_class

/-- The ways of a CACHE_ block open to an allocation (R256). -/
def waysFor (s : State) (j tenant : Nat) (closed : Bool) : List Nat :=
  if closed then [14, 15]
  else onesBelow (BitVec.ofNat 64 (s.f (R.CACHE_PCLASS j (cacheClass s j tenant)) F.CACHE_PCLASS_ways)) 14

/-- Whether the L2 of a cluster holds a line or may allocate it; where it may not, a store passes it (R256, R267; log 66). -/
def l2Keeps (s : State) (q line tenant : Nat) (closed : Bool) : Bool :=
  l2On s q && (waysFor s q tenant closed ≠ [] || (findLine (s.cluster q).l2 line).isSome)

/-- What the core can now ask for on behalf of one entry of its write buffer (R214, R215, R251). -/
def State.pumpEnt (s : State) (c : Nat) (e : WbEnt) : State :=
  if e.sent && ((e.kind ≠ .normal && e.kind ≠ .stack) || (s.core c).mshr.any (fun m => m.line = e.pa / 64 && m.lvl = 1)) then s
  else match e.kind with
    | .dev => s
    | .nc => if mayGo s c e then s.sendStore c e else s
    | .clean => if mayGo s c e then s.sendMaint c e else s
    | .inval => if mayGo s c e then s.sendMaint c e else s
    | _ =>
      let line := e.pa / 64
      if !wbIn (s.core c) e || (s.bank c e.bank).midBundle e.bank e || !l2Keeps s (clusterOf c) line e.tenant e.closed then s
      else if l1dOn s c && (s.core c).l1d.any (fun x => x.line = line && x.st ≠ .s) then s
      else
        let r := s.needLine c line true false (e.mask = BitVec.allOnes 64) e.tenant e.closed
        if r.2 then r.1.updCore c (fun k => { k with wb := k.wb.map (fun f => if sameEnt e f then { f with sent := true } else f) }) else s

/-- What the core can now ask for on behalf of a load that waits for a miss register (R251). -/
def State.pumpLoad (s : State) (c bi : Nat) (l : LoadEnt) : State :=
  let b := s.bank c bi
  let r := l.want.foldl (fun (q : State × List Nat) line =>
    let r := q.1.needLine c line false false false b.tenant b.psw.world
    if r.2 then (r.1, q.2) else (q.1, q.2 ++ [line])) (s, [])
  r.1.updBank c bi (fun b => { b with loads := b.loads.map (fun x => if x.seq = l.seq then { x with want := r.2 } else x) })

/-- A STCOND that awaits ownership of its line asks for it (R106). -/
def State.pumpStc (s : State) (c bi : Nat) : State :=
  let b := s.bank c bi
  match b.stc with
  | none => s
  | some w =>
    if (s.core c).mshr.any (fun m => m.line = w.pa / 64 && m.lvl = 1) then s
    else if w.ack.isSome then s
    else (s.needLine c (w.pa / 64) true false false b.tenant b.psw.world).1

/-- A line that a PREF asks for: it is in the L1D as wanted, joins the miss register of the line, takes a free one, or goes on waiting;
one that wants write permission waits behind a read of the line (R88, R251). -/
def State.pumpPref (s : State) (c : Nat) (p : PrefLine) : State :=
  let k := s.core c
  let out := fun (s : State) => s.updCore c (fun k => { k with pfl := dropFirst (fun q => q = p) k.pfl })
  if l1dOn s c && k.l1d.any (fun x => x.line = p.line && (!p.write || x.st ≠ .s)) then out s
  else
    match k.mshr.find? (fun m => m.line = p.line && m.lvl = 1) with
    | some m => if p.write && !m.write then s else if m.secs < 8 then out (s.needLine c p.line p.write true false p.tenant p.closed).1 else s
    | none =>
      let r := s.needLine c p.line p.write true false p.tenant p.closed
      if r.2 then out r.1 else s

/-- A PREF that waited for the data port has its walk (R88, R209). -/
def State.pumpWalk (s : State) (c : Nat) : State :=
  let k := s.core c
  match k.walkD, k.prefs with
  | none, p :: ps =>
    s.setCore c { k with prefs := ps,
                         walkD := some { bank := p.bank, regime := p.regime, tenant := p.tenant, asid := p.asid, closed := p.closed, va := p.va,
                                         kind := if p.hint = 1 then .write else .read, user := p.user, pref := some p.hint } }
  | _, _ => s

/-- Every waiting access of a core asks for what it can (R215, R251). -/
def State.pump (s : State) (c : Nat) : State :=
  let s1 := (s.core c).wb.foldl (fun s e => s.pumpEnt c e) s
  let s2 := (List.range 8).foldl (fun s bi => ((s.bank c bi).loads.filter (fun l => l.want ≠ [])).foldl (fun s l => s.pumpLoad c bi l) s) s1
  let s3 := (List.range 8).foldl (fun s bi => s.pumpStc c bi) s2
  ((s3.core c).pfl.foldl (fun s p => s.pumpPref c p) s3).pumpWalk c

/-! ## Loads -/

/-- The byte at a physical address as an L1D hit or the bank's own write buffer gives it (R87, R215). -/
def knownByte (s : State) (c bi : Nat) (p : PartAt) (i : Nat) : Option Byte :=
  match wbByte (s.core c) bi (p.pa + i) with
  | some v => some v
  | none =>
    if p.mt = .wb && l1dOn s c then
      match findLine (s.core c).l1d (p.pa / 64) with
      | some x => some (BitVec.ofNat 8 (lineField x.data ((p.pa + i) % 64) 1))
      | none => none
    else none

/-- The bytes of a part that are known at issue, by their place in the access. -/
def knownPart (s : State) (c bi : Nat) (p : PartAt) : List (Nat × Byte) :=
  (List.range p.n).filterMap (fun i => (knownByte s c bi p i).map (fun v => (p.off + i, v)))

/-- The stride detector (R258): the stream of the bank and bundle address trains on a load's address; a trained stream
asks for the line one stride ahead, within the page, while at least 4 miss registers are free. -/
def State.train (s : State) (c bi : Nat) (pc : Word) (va pa : Nat) : State :=
  let b := s.bank c bi
  let k := s.core c
  let cls := s.f (R.CACHE_TMAP (clusterOf c) b.tenant) F.CACHE_TMAP_class
  if !s.on (R.CACHE_CORE (clusterOf c) (c % 8)) F.CACHE_CORE_pf_en || !s.on (R.CACHE_PCLASS (clusterOf c) cls) F.CACHE_PCLASS_l1_pf || !l1dOn s c then s
  else
    match k.strides.find? (fun x => x.bank = bi && x.addr = pc) with
    | none => s.setCore c { k with strides := (⟨bi, pc, va, 0, 0⟩ :: k.strides).take 16 }
    | some x =>
      let d : Int := (va : Int) - x.last
      let conf := if d ≠ 0 ∧ d = x.delta then x.conf + 1 else if d ≠ 0 then 1 else 0
      let y : Stride := { x with last := va, delta := d, conf := conf }
      let s1 := s.setCore c { k with strides := y :: k.strides.filter (fun z => z ≠ x) }
      let t : Int := (pa : Int) + d
      if decide (3 ≤ conf) && decide (0 ≤ t) then
        let line := t.toNat / 64
        if line / 64 = pa / 4096 && decide (4 ≤ freeMshr k) && (findLine k.l1d line).isNone && !k.mshr.any (fun m => m.line = line) then
          ((s1.needLine c line false true false b.tenant b.psw.world).1).ev c bi 0x3A 1
        else s1
      else s1

/-- A loaded value is on its way to its register; one of an LDM under way lands when its bundle commits (R52, R87). -/
def Bank.gotLoad (b : Bank) (f : Flight) : Bank :=
  match b.held with
  | some h => { b with held := some { h with got := h.got ++ [f] } }
  | none => b.fly1 f

/-- The request of a part of a non-cacheable load is sent; the load keeps its tag (R245). -/
def State.sendPart (s : State) (c bi seq pa n : Nat) (upper : Bool) : State :=
  let b := s.bank c bi
  let t := coreTag s c
  let late := rtoLate s (tileRouter (clusterOf c))
  (s.sendRead c pa n .nc b.tenant b.psw.world).updBank c bi (fun b => { b with loads := b.loads.map (fun l =>
    if l.seq ≠ seq then l else if upper && l.hi.isSome then { l with tag2 := t, late := late } else { l with tag := t, late := late }) })

/-- The load of `n` bytes with its parts, by the bundle at `pc`, into a physical register (R53, R86, R87): known bytes are captured, and a load
with all bytes known is usable 3 [core] after issue, 4 when it is split (R221); any other waits for its lines or its
answers. -/
def State.startLoad (s : State) (c bi t : Nat) (pc va : Word) (n : Nat) (sext : Bool) (phys : Nat) (ps : List PartAt) : State :=
  let b := s.bank c bi
  let known := ps.flatMap (knownPart s c bi)
  let miss := ps.filter (fun p => decide ((knownPart s c bi p).length < p.n))
  let pa := match ps with
    | p :: _ => p.pa
    | [] => 0
  let s1 := (s.touchParts c ps).updCore c (fun k => { k with l1d := ps.foldl (fun l p => touchLine l (p.pa / 64)) k.l1d })
  let s2 := if ps.any (fun p => p.mt = .wb) then s1.train c bi pc va.toNat pa else s1
  let l : LoadEnt := {
    seq := b.seq, phys := phys, va := va, pa := pa, size := n, sext := sext,
    mt := if ps.any (fun p => p.mt = .nc) then .nc else .wb, hi := (ps.drop 1).head?.map (fun p => p.pa),
    fwd := known, want := (miss.filter (fun p => p.mt = .wb)).map (fun p => p.pa / 64), pc := pc, ents := ps.filterMap (fun p => p.ent) }
  if miss = [] then
    s2.updBank c bi (fun b => { b.gotLoad { kind := .load, due := t + 2 + ps.length, pw := some (phys, l.value) } with seq := b.seq + 1 })
  else
    let s3 := s2.updBank c bi (fun b => { b with loads := b.loads ++ [l], seq := b.seq + 1 })
    ((miss.filter (fun p => p.mt = .nc)).foldl (fun s p => s.sendPart c bi l.seq p.pa p.n p.upper) s3).pump c

/-- The fault of a load that a decode error answers, or of a device load whose time runs out (R43, R218, R223). -/
def badLoadExc (l : LoadEnt) (timeout : Bool) : Exc := excData 8 (if timeout then 0xD else 0xC) l.va false

/-- A device load: it takes its place behind the context's earlier device accesses and its bundle is held; when its data has come
the bundle commits with it (R217, R218, R224). -/
def devLoad (s : State) (x : Syl) (va : Word) (n : Nat) (sext : Bool) (p : PartAt) : SylRes :=
  match (preBank s x).lost with
  | some l => .exc (lostExc l) (fun s => s.updBank x.core x.bank (fun b => { b with lost := none, devLost := false }))
  | none =>
    .hold (fun s => s.updBank x.core x.bank (fun b =>
      { b with loads := b.loads ++ [{ seq := b.seq, phys := 0, va := va, pa := p.pa, size := n, sext := sext, mt := .device,
                                      sent := false, pc := b.pc, ents := p.ent.toList }],
               seq := b.seq + 1 }))

/-- The device load that a held bundle's data has come for. -/
def devDone (b : Bank) : Option LoadEnt := b.loads.find? (fun l => l.mt = .device && l.complete)

/-- The data of a device load in a register: the load is performed (R218). -/
def State.takeDev (s : State) (x : Syl) (phys : Nat) (l : LoadEnt) : State :=
  (s.updBank x.core x.bank (fun b =>
    { (if b.held.isSome then b.gotLoad { kind := .load, due := 0, pw := some (phys, l.value) } else b.wphys phys l.value) with
      loads := b.loads.filter (fun y => y.seq ≠ l.seq) })).ev x.core x.bank 0x20 1

/-- A load instruction (R86, R87, R205). -/
def loadSem (s : State) (t : Nat) (x : Syl) (va : Word) (n : Nat) (sext : Bool) (align : Nat) (noDev : Option Nat)
    (also : PartAt → State → State) : SylRes :=
  let b := preBank s x
  match devDone b with
  | some l => .ok (fun s => s.takeDev x (b.nm x.d) l)
  | none =>
    match accessCheck s x.core b va n .read align noDev with
    | .exc e => .exc e id
    | .miss v up => .wait (fun s => s.startWalk x.core x.bank v .read up)
    | .ok ps =>
      match ps with
      | [] => .ok id
      | p :: _ => if p.mt = .device then devLoad s x va n sext p else .ok (fun s => also p (s.startLoad x.core x.bank t b.pc va n sext (b.nm x.d) ps))

def noAlso : PartAt → State → State := fun _ s => s

/-- base + displacement. -/
def baseDisp (s : State) (x : Syl) : Word := opA s x + x.imm
/-- ra + rb, rb shifted by log2 of the size when fn[3] is 1 (R86). -/
def indexed (s : State) (x : Syl) : Word :=
  opA s x + (if x.fn.getLsbD 3 then opB s x <<< (x.fn.toNat % 4) else opB s x)

def semLdb : Sem := fun s t x => loadSem s t x (baseDisp s x) 1 true 1 none noAlso
def semLdbu : Sem := fun s t x => loadSem s t x (baseDisp s x) 1 false 1 none noAlso
def semLdh : Sem := fun s t x => loadSem s t x (baseDisp s x) 2 true 1 none noAlso
def semLdhu : Sem := fun s t x => loadSem s t x (baseDisp s x) 2 false 1 none noAlso
def semLdw : Sem := fun s t x => loadSem s t x (baseDisp s x) 4 true 1 none noAlso
def semLdwu : Sem := fun s t x => loadSem s t x (baseDisp s x) 4 false 1 none noAlso
def semLdd : Sem := fun s t x => loadSem s t x (baseDisp s x) 8 false 1 none noAlso
def semLdx : Sem := fun s t x =>
  loadSem s t x (indexed s x) (2 ^ (x.fn.toNat % 4)) (!x.fn.getLsbD 2) 1 none noAlso

/-- LDRES sets the reservation to the granule of its physical address (R103); of normal write-back memory it may begin a constrained
sequence (R107). -/
def semLdres : Sem := fun s t x =>
  loadSem s t x (baseDisp s x) 8 false 8 (some 0xA) (fun p s =>
    s.updBank x.core x.bank (fun b => { b with resv := some (p.pa / 128), resvAt := t, cons := if p.mt = .wb then some 0 else none }))

/-- A PREF asks for its line at the level of its hint; another type than write-back, or a decode class, discards it (R88). -/
def State.prefAt (s : State) (c hint pa : Nat) (mt : MType) (dec : Bool) (tenant : Nat) (closed : Bool) : State :=
  if effType mt pa ≠ .wb || dec then s
  else if hint < 2 then (s.updCore c (fun k => { k with pfl := k.pfl ++ [⟨pa / 64, hint = 1, tenant, closed⟩] })).pump c
  else s.updCore c (fun k => { k with mshr := k.mshr ++ [{ line := pa / 64, write := false, pref := true, tenant := tenant, closed := closed, lvl := hint }] })

/-- PREF (R88): a failed check discards it; one that misses the DTLB waits for its translation while later bundles issue. -/
def semPref : Sem := fun s _ x =>
  let b := preBank s x
  let va := baseDisp s x
  match translateFor s x.core b va (if x.d = 1 then .write else .read) with
  | .ok pa mt dec _ => .ok (fun s => s.prefAt x.core x.d.toNat pa mt dec b.tenant b.psw.world)
  | .fault _ => .ok id
  | .miss => .ok (fun s => (s.updCore x.core (fun k => { k with prefs := k.prefs ++
      [⟨x.bank, regimeOf b.psw.pl b.psw.world, b.tenant, b.asid, b.psw.world, va, x.d.toNat, b.psw.pl = 0⟩] })).pump x.core)

/-! ## Stores -/

/-- The kind of write-buffer entry of a store to a part. -/
def storeKind (p : PartAt) : WbKind := if p.mt = .device then .dev else if p.mt = .nc || p.dec then .nc else .normal

/-- The reservation goes when the context's own store writes into its granule (R105). -/
def Bank.ownStore (b : Bank) (pa : Nat) : Bank := if b.resv = some (pa / 128) then { b with resv := none } else b

/-- One part of a store enters the write buffer; a device store of a bank with a lost device store is dropped and
counted (R215, R224). -/
def State.storePart (s : State) (c bi : Nat) (p : PartAt) (v : Nat) : State :=
  if p.mt = .device && (s.bank c bi).devLost then s.dropStore c
  else
    let s1 := (s.pushWb c bi (storeKind p) p.pa p.n v p.upper p.ent).updBank c bi (fun b => b.ownStore p.pa)
    if p.mt = .device then s1.ev c bi 0x21 1 else s1

/-- The parts of a store, lower first (R221). -/
def State.storeParts (s : State) (c bi : Nat) (ps : List PartAt) (v : Nat) : State :=
  (ps.foldl (fun s p => s.storePart c bi p (v / 256 ^ p.off)) (s.touchParts c ps)).pump c

/-- A store instruction (R86, R87, R205, R215): no room in the write buffer holds its issue. -/
def storeSem (s : State) (x : Syl) (va : Word) (n : Nat) (v : Nat) : SylRes :=
  match accessCheck s x.core (preBank s x) va n .write 1 none with
  | .exc e => .exc e id
  | .miss w up => .wait (fun s => s.startWalk x.core x.bank w .write up)
  | .ok ps => .ok (fun s => s.storeParts x.core x.bank ps v)

def semStb : Sem := fun s _ x => storeSem s x (baseDisp s x) 1 (opD s x).toNat
def semSth : Sem := fun s _ x => storeSem s x (baseDisp s x) 2 (opD s x).toNat
def semStw : Sem := fun s _ x => storeSem s x (baseDisp s x) 4 (opD s x).toNat
def semStd : Sem := fun s _ x => storeSem s x (baseDisp s x) 8 (opD s x).toNat
def semStx : Sem := fun s _ x => storeSem s x (indexed s x) (2 ^ (x.fn.toNat % 4)) (opD s x).toNat

/-- The result of a STCOND, 3 [core] after the edge that decides it (R106). -/
def Bank.stcDone (b : Bank) (t phys : Nat) (ok : Bool) : Bank :=
  b.fly1 { kind := .slow, due := t + 3, pw := some (phys, boolW ok) }

/-- Whether a core's L1D holds a line with write permission. -/
def heldWritable (s : State) (c line : Nat) : Bool :=
  l1dOn s c && (s.core c).l1d.any (fun x => x.line = line && x.st ≠ .s)

/-- The wait of a STCOND ends on an edge: rd gets its result 3 [core] later, and the bundles behind it go on then (R106, R135). -/
def Bank.endStc (b : Bank) (t : Nat) (w : StcWait) : Bank :=
  { b.stcDone t w.phys true with stc := none, ready := max b.ready (t + 3) }

/-- STCOND (R104 to R106): without a valid reservation for the granule it writes 0 and stores nothing; with one and the
line held writable in the L1D it stores and writes 1; else it holds the context until ownership returns, or, of non-cacheable memory,
until its store is performed (log 67). -/
def semStcond : Sem := fun s t x =>
  let b := preBank s x
  let va := opA s x
  match accessCheck s x.core b va 8 .write 8 (some 0xA) with
  | .exc e => .exc e id
  | .miss w up => .wait (fun s => s.startWalk x.core x.bank w .write up)
  | .ok ps =>
    match ps with
    | [] => .ok id
    | p :: _ =>
      let phys := b.nm x.b
      let v := opD s x
      if b.resv ≠ some (p.pa / 128) then
        .ok (fun s => ((s.touchParts x.core ps).updBank x.core x.bank (fun b => { b.stcDone t phys false with resv := none })).ev x.core x.bank 0x29 1)
      else if p.mt ≠ .wb then
        .ok (fun s =>
          ((s.updBank x.core x.bank (fun b => { b with resv := none, stc := some ⟨phys, p.pa, v, some b.seq⟩ })).storeParts x.core x.bank ps v.toNat).ev x.core x.bank 0x28 1)
      else if heldWritable s x.core (p.pa / 64) then
        .ok (fun s =>
          ((s.storeParts x.core x.bank ps v.toNat).updBank x.core x.bank
            (fun b => { b.stcDone t phys true with resv := none })).ev x.core x.bank 0x28 1)
      else
        .ok (fun s =>
          let s1 := (s.touchParts x.core ps).updBank x.core x.bank (fun b => { b with stc := some ⟨phys, p.pa, v, none⟩ })
          (s1.needLine x.core (p.pa / 64) true false false b.tenant b.psw.world).1)

/-! ## Barriers (R101, R108) -/

/-- A barrier whose condition is unmet takes its place behind the context's earlier accesses; one whose condition is met holds
nothing (R108, R109). -/
def barSem (t : Nat) (x : Syl) (kind : BarKind) : SylRes :=
  .ok (fun s =>
    let b := s.bank x.core x.bank
    let w : BarWait := ⟨kind, b.seq⟩
    let met := match barHold (s.core x.core) x.bank b w with
      | some e => decide (e ≤ t)
      | none => false
    s.setBank x.core x.bank (if met then b else { b with bars := b.bars ++ [w], seq := b.seq + 1 }))

def semBarl : Sem := fun _ t x => barSem t x .barl
def semBars : Sem := fun _ t x => barSem t x .bars
def semBara : Sem := fun _ t x => barSem t x .bara
/-- BARX has waited for the long operations by the time it issues (R101). -/
def semBarx : Sem := fun _ _ _ => .ok id

/-! ## Block operations: half contexts, windows, return stack (R67, R80, R174 to R177) -/

/-- The lines of a block, each checked whole, in rising order. -/
def blockCheck (s : State) (c : Nat) (b : Bank) (k : AccKind) (base : Word) : List Nat → Access
  | [] => .ok []
  | o :: os =>
    match accessCheck s c b (base + BitVec.ofNat 64 o) 64 k 64 (some 0xB) with
    | .ok [p] =>
      if k = .write && p.dec then .exc (excData 8 0xC p.va true)
      else
        match blockCheck s c b k base os with
        | .ok qs => .ok (p :: qs)
        | r => r
    | r => r

/-- Offsets of the lines of a block of `n` bytes from `o`. -/
def lineOffs (o : Nat) : Nat → List Nat
  | 0 => []
  | n + 1 => o :: lineOffs (o + 64) n

/-- A block store: each line enters the write buffer whole. -/
def State.storeLines (s : State) (c bi : Nat) : List PartAt → List Word → State
  | [], _ => s
  | p :: ps, ws =>
    ((s.pushWb c bi (storeKind p) p.pa 64 (packWords (ws.take 8)) false p.ent).updBank c bi (fun b => b.ownStore p.pa)).storeLines c bi ps (ws.drop 8)

/-- A block store instruction: address check, lines, then the words of the block and the change of the bank. -/
def blockStore (s : State) (x : Syl) (offs : List Nat) (ws : State → List Word) (ready : Nat) (f : Bank → Bank) : SylRes :=
  match blockCheck s x.core (preBank s x) .write (baseDisp s x) offs with
  | .exc e => .exc e id
  | .miss w up => .wait (fun s => s.startWalk x.core x.bank w .write up)
  | .ok ps =>
    .ok (fun s =>
      (((s.touchParts x.core ps).storeLines x.core x.bank ps (ws s)).updBank x.core x.bank (fun b => { f b with ready := max b.ready ready })).pump x.core)

/-- The load of a whole line for its bundle: a block operation (1), or the record of a RETT (2). -/
def State.loadLine (s : State) (c bi blk : Nat) (p : PartAt) : State :=
  let b := s.bank c bi
  let known := knownPart s c bi { p with off := 0 }
  let l : LoadEnt := { seq := b.seq, phys := 0, va := p.va, pa := p.pa, size := 64, mt := p.mt, fwd := known, pc := b.pc, blk := blk, ents := p.ent.toList,
                       want := if p.mt = .wb && decide (known.length < 64) then [p.pa / 64] else [] }
  let s1 := s.updBank c bi (fun b => { b with loads := b.loads ++ [l], seq := b.seq + 1 })
  if p.mt ≠ .wb && decide (known.length < 64) then s1.sendPart c bi l.seq p.pa 64 false else s1

/-- The words of the lines that a held bundle has loaded. -/
def lineWords (ls : List LoadEnt) : List Word :=
  ls.flatMap (fun l => (List.range 8).map (fun i => BitVec.ofNat 64 (bytesNat ((List.range 8).map (fun j => mget 0 l.fwd (8 * i + j))))))

/-- The lines that a block operation or a RETT of a held bundle has loaded. -/
def Bank.blkLoads (b : Bank) (blk : Nat) : List LoadEnt := b.loads.filter (fun l => l.blk = blk)

/-- Whether every byte of the lines of a block is known at issue. -/
def linesKnown (s : State) (c bi : Nat) (ps : List PartAt) : Bool := ps.all (fun p => decide ((knownPart s c bi { p with off := 0 }).length = 64))

/-- The words of lines that are known at issue. -/
def knownWords (s : State) (c bi : Nat) (ps : List PartAt) : List Word :=
  ps.flatMap (fun p => (List.range 8).map (fun i => BitVec.ofNat 64 (bytesNat ((List.range 8).map (fun j => mget 0 (knownPart s c bi { p with off := 0 }) (8 * i + j))))))

/-- A block load instruction whose hits let the next bundle issue `lat` edges after it (R177): the words of the block change the bank; a
line that misses holds the bundle until it has come, 3 edges of the count being the line's own path (R87, R251). -/
def blockLoad (s : State) (t : Nat) (x : Syl) (offs : List Nat) (lat : Nat) (f : Bank → List Word → Bank) : SylRes :=
  let b := preBank s x
  let done := fun (ws : List Word) (ready : Nat) (s : State) =>
    s.updBank x.core x.bank (fun b => { f { b with loads := b.loads.filter (fun l => l.blk ≠ 1) } ws with ready := max b.ready ready })
  if b.blkLoads 1 ≠ [] then .ok (done (lineWords (b.blkLoads 1)) (t + lat - 3))
  else
    match blockCheck s x.core b .read (baseDisp s x) offs with
    | .exc e => .exc e id
    | .miss w up => .wait (fun s => s.startWalk x.core x.bank w .read up)
    | .ok ps =>
      if linesKnown s x.core x.bank ps then .ok (fun s' => done (knownWords s x.core x.bank ps) (t + lat) (s'.touchParts x.core ps))
      else .hold (fun s => (ps.foldl (fun s p => s.loadLine x.core x.bank 1 p) (s.touchParts x.core ps)).pump x.core)

/-- The words SAVEL writes, from offset 0x040 (R171, R176): `pc` is the next bundle of the saved view and `st` the state
word. -/
def savelWords (b : Bank) (psw : Word) (pc st : Word) : List Word :=
  (0#64 :: (List.range 31).map (fun i => b.viewG (i + 1))) ++
    [psw, pc, b.fpc, b.lof, st, mget 0 b.prog 0, mget 0 b.prog 1, mget 0 b.prog 2]

/-- The return-stack word (R172). -/
def rsWord (b : Bank) : Word := BitVec.ofNat 64 (b.rst % 16 + b.psw.rsd * 16)

/-- The words SAVEH writes, from offset 0x040 (R172, R176). -/
def savehWords (b : Bank) : List Word :=
  (List.range 32).map (fun i => b.viewG (i + 32)) ++ [b.m 0, b.m 1, b.m 2, b.m 3, b.m 4, b.m 5, setBit b.dvs 0 false, rsWord b] ++
    (List.range 16).map (fun i => b.slot i)

/-- What RESTL does with the words from offset 0x040 (R72, R176). -/
def restlBank (b : Bank) (ws : List Word) : Bank :=
  let p := Psw.ofWord (ws.getD 32 0)
  let b1 := (List.range 31).foldl (fun b i => b.setViewG (i + 1) (ws.getD (i + 1) 0)) b
  let psw := if b.psw.tw then b.psw
    else { b.psw with ie := p.ie, fie := p.fie, rsm := p.rsm, rsl := p.rsl, cf0 := p.cf0, cf1 := p.cf1, vf0 := p.vf0, vf1 := p.vf1 }
  { b1 with psw := { psw with wres := 1 }, fpc := fpcWrite b.fpc (ws.getD 34 0), lof := lofWrite (ws.getD 35 0),
            prog := [(0, ws.getD 37 0), (1, ws.getD 38 0), (2, ws.getD 39 0)] }

/-- What RESTH does with the words from offset 0x040 (R172, R176). -/
def resthBank (b : Bank) (ws : List Word) : Bank :=
  let b1 := (List.range 32).foldl (fun b i => b.setViewG (i + 32) (ws.getD i 0)) b
  let b2 := (List.range 7).foldl (fun b i => b.setM i (ws.getD (32 + i) 0)) b1
  let r := ws.getD 39 0
  { b2 with rs := (List.range 16).map (fun i => (i, ws.getD (40 + i) 0)), rst := fld r 0 4,
            psw := { b.psw with rsd := min (fld r 4 5) 16 } }

/-- SAVEL (R176, R177): by its issue edge every long operation has ended and every write landed; its effect follows the
advance of the PC, which is then the next bundle's. -/
def semSavel : Sem := fun s t x =>
  let b := preBank s x
  blockStore s x (lineOffs 0x40 5)
    (fun s' => savelWords b b.psw.word (s'.bank x.core x.bank).pc (BitVec.ofNat 64 b.depth)) (t + 8) id

def semSaveh : Sem := fun s t x => blockStore s x (lineOffs 0x40 7) (fun _ => savehWords (preBank s x)) (t + 8) id
def semRestl : Sem := fun s t x => blockLoad s t x (lineOffs 0x40 5) 8 restlBank
def semResth : Sem := fun s t x => blockLoad s t x (lineOffs 0x40 7) 10 resthBank

/-- WSPILL stores the received and kept registers of the oldest resident position (R67). -/
def wspillWords (b : Bank) : List Word :=
  let o := b.psw.oldest
  (List.range 16).map (fun i => b.rphys (physH (prevPos o) i)) ++ (List.range 16).map (fun i => b.rphys (physK o i))

def semWspill : Sem := fun s t x =>
  blockStore s x (lineOffs 0 4) (fun _ => wspillWords (preBank s x)) (t + 8) (fun b => { b with psw := { b.psw with wres := b.psw.wres - 1 } })

/-- WFILL loads the position below the oldest (R67). -/
def wfillBank (b : Bank) (ws : List Word) : Bank :=
  let u := prevPos b.psw.oldest
  let b1 := (List.range 16).foldl (fun b i => b.wphys (physH (prevPos u) i) (ws.getD i 0)) b
  let b2 := (List.range 16).foldl (fun b i => b.wphys (physK u i) (ws.getD (16 + i) 0)) b1
  { b2 with psw := { b.psw with wres := b.psw.wres + 1 } }

def semWfill : Sem := fun s t x => blockLoad s t x (lineOffs 0 4) 8 wfillBank

/-- RSSPILL stores the 8 oldest entries of the return stack (R80). -/
def rsspillWords (b : Bank) : List Word := (List.range 8).map (fun i => b.slot (b.rst + 32 - b.psw.rsd + i))

def semRsspill : Sem := fun s t x =>
  blockStore s x (lineOffs 0 1) (fun _ => rsspillWords (preBank s x)) (t + 8) (fun b => { b with psw := { b.psw with rsd := b.psw.rsd - 8 } })

/-- RSFILL loads 8 entries beneath the existing ones (R80). -/
def rsfillBank (b : Bank) (ws : List Word) : Bank :=
  { b with rs := (List.range 8).foldl (fun r i => mset r ((b.rst + 40 - b.psw.rsd - 8 + i + 8) % 16) (ws.getD i 0)) b.rs,
           psw := { b.psw with rsd := b.psw.rsd + 8 } }

def semRsfill : Sem := fun s t x => blockLoad s t x (lineOffs 0 1) 8 rsfillBank

/-! ## STM and LDM (R179, R180) -/

/-- The accesses an STM or LDM need not make: those its bundle has made while held, or those of the progress it resumes. -/
def multiDone (b : Bank) (ldm : Bool) : Nat :=
  match b.held with
  | some h => if ldm then h.ldm else h.stm
  | none => progDone b ldm

/-- The progress of an STM or LDM that an access stops is written, or its valid bit cleared at completion (R180). -/
def Bank.setProg (b : Bank) (done : Nat) (ldm : Bool) : Bank := { b with prog := mset b.prog b.depth (progWord b.pc done ldm) }
def Bank.clearProg (b : Bank) : Bank := { b with prog := mset b.prog b.depth (setBit (mget 0 b.prog b.depth) 63 false) }

/-- The held bundle's STM or LDM has made `k` accesses. -/
def Bank.madeMulti (b : Bank) (ldm : Bool) (k : Nat) : Bank :=
  match b.held with
  | some h => { b with held := some (if ldm then { h with ldm := k } else { h with stm := k }) }
  | none => b

/-- One edge of an STM or LDM of mask `m` (R179, R180): its next access is made; before the last the bundle is held, an access that
faults stops it with its progress, and with the last the bundle completes, the next issuing no earlier than `n` edges after the bundle
did. -/
def multiSem (s : State) (t : Nat) (x : Syl) (m : Word) (ldm : Bool) (acc : Nat → Word → SylRes) : SylRes :=
  let b := preBank s x
  let k := multiDone b ldm
  let t0 := (b.held.map (·.at_)).getD t
  let fin := fun (s : State) => s.updBank x.core x.bank (fun y =>
    let z := ((b.held.map (·.got)).getD []).foldl (fun y f => if ldm then y.fly1 { f with due := max f.due (t + 1) } else y) y
    { z.clearProg with ready := max z.ready (t0 + max (popcount m 64) 1) })
  match (onesBelow m 64).drop k with
  | [] => .ok fin
  | i :: is =>
    match acc i (baseDisp s x + BitVec.ofNat 64 (8 * k)) with
    | .exc e f => .exc e (fun s => (f s).updBank x.core x.bank (fun y => (y.madeMulti ldm k).setProg k ldm))
    | .wait f => .wait f
    | .hold f => .hold (fun s => f (s.updBank x.core x.bank (fun y => y.madeMulti ldm k)))
    | .ok f => if is = [] then .ok (fun s => fin (f s)) else .hold (fun s => (f s).updBank x.core x.bank (fun y => y.madeMulti ldm (k + 1)))

/-- One access of STM: its store merges with the entry of the same line that the buffer holds last (R179, R215). -/
def stmAccess (s : State) (x : Syl) (v : Word) (va : Word) : SylRes :=
  match accessCheck s x.core (s.bank x.core x.bank) va 8 .write 8 none with
  | .exc e => .exc e id
  | .miss w up => .wait (fun s => s.startWalk x.core x.bank w .write up)
  | .ok ps =>
    match ps with
    | [] => .ok id
    | p :: _ => .ok (fun s =>
        let joins := (s.core x.core).wb.getLast?.any (fun e =>
          storeKind p = .normal && e.kind = .normal && (s.bank x.core x.bank).midBundle x.bank e && e.pa / 64 = p.pa / 64 && !e.sent)
        if joins then
          ((s.touchParts x.core ps).updCore x.core (fun k =>
            { k with wb := match k.wb.getLast? with
                | some e => k.wb.dropLast ++ [{ e with data := setLineField e.data (p.pa % 64) 8 v.toNat, mask := e.mask ||| byteMask (p.pa % 64) 8 }]
                | none => k.wb }) |>.updBank x.core x.bank (fun b => b.ownStore p.pa) |>.ev x.core x.bank 0x1F 1)
        else (s.touchParts x.core ps).storePart x.core x.bank p v.toNat)

/-- STM (R179): the registers as the bundle found them are stored (R53). -/
def semStm : Sem := fun s t x =>
  let b := preBank s x
  match multiSem s t x (opD s x) false (fun i va => stmAccess s x (b.g (BitVec.ofNat 6 i)) va) with
  | .ok f => .ok (fun s => (f s).pump x.core)
  | r => r

/-- LDM (R179): each register it loads is a pending load destination. -/
def semLdm : Sem := fun s t x =>
  multiSem s t x (opD s x) true (fun i va => loadSem s t { x with d := BitVec.ofNat 6 i } va 8 false 8 none noAlso)

/-! ## Cache maintenance (R111, R264) -/

/-- A maintenance instruction: address check of its kind; device type, or an address outside DRAM space, has no effect. -/
def maintSem (s : State) (x : Syl) (k : AccKind) (kind : WbKind) : SylRes :=
  let b := preBank s x
  match translateFor s x.core b (baseDisp s x) k with
  | .fault f => .exc (excTr 5 f (baseDisp s x) (k = .write) false) id
  | .miss =>
    let va := baseDisp s x
    .wait (fun s => s.startWalk x.core x.bank va k false)
  | .ok pa mt dec ent =>
    if mt = .device || addrClass pa ≠ .dram then .ok id
    else .ok (fun s =>
      let s1 := s.touchParts x.core [⟨baseDisp s x, 0, 1, false, pa, mt, dec, ent⟩]
      let e : WbEnt := { seq := (s1.bank x.core x.bank).seq, bank := x.bank, tenant := b.tenant, closed := b.psw.world, kind := kind,
                         pa := pa / 64 * 64, size := 64, thread := b.thread, ent := ent }
      (((s1.updCore x.core (fun k => { k with wb := k.wb ++ [e] })).updBank x.core x.bank (fun b => { b with seq := b.seq + 1 })).pump x.core))

def semDclean : Sem := fun s _ x => maintSem s x .read .clean
def semDinval : Sem := fun s _ x => maintSem s x .write .inval

/-- ICLEAN removes the line from the L1I of every core of the cluster (R111, R264). -/
def semIclean : Sem := fun s _ x =>
  let va := baseDisp s x
  match translateFor s x.core (preBank s x) va .exec with
  | .miss => .wait (fun s => s.startWalk x.core x.bank va .exec false)
  | .fault f => .exc (excTr 5 f va false false) id
  | .ok pa mt _ _ =>
    if mt = .device then .ok id
    else .ok (fun s => (clusterCores (clusterOf x.core)).foldl
      (fun s c => s.updCore c (fun k => { k with l1i := dropLine k.l1i (pa / 64) })) s)

end Sys2Proof.Machine
end

