-- ==== Sys2Proof/Machine/Answer.lean ====
section
/-! DEFINITION. Answers of units to the requests they take from the mesh (R276, R279, R282), and the place of the
registers' writers (R12). -/

namespace Sys2Proof.Machine

/-- The response type of an answer (R279). -/
def ansTyp (q : Pkt) (a : MemAns) : Nat × Nat :=
  match a with
  | .data _ => if q.typ = 7 ∨ q.typ = 0xA then (if q.size ≤ 3 then (1, 3) else (3, 0)) else (1, 0)
  | .decodeError => (1, 4)
  | .poison => (1, 0xA)
  | .fenced => (1, 7)
  | .timeout => (1, 0xA)

/-- A unit answers a request: read data, an acknowledgement, or an error. -/
def State.answer (s : State) (q : Pkt) (a : MemAns) : State :=
  let t := ansTyp q a
  s.reply q { net := t.1, typ := t.2, src := q.dst, dst := q.src, pa := q.pa, size := q.size, more := t = (1, 3) && q.size = 3,
              data := match a with
                | .data v => BitVec.ofNat 512 v
                | _ => 0 }

/-- A register write that a device store carries is acknowledged: the request that waits for it leaves the inbox and its
answer is launched (R46). -/
def State.ackWrite (s : State) (ag : Agent) (addr : Nat) : State :=
  match s.inbox.find? (fun p => p.net = 0 && p.typ = 0xB && p.pa = addr && p.src / 4 = ag.router) with
  | none => s
  | some p => (s.take p).answer p (.data 0)

/-- A write of a register that has a command of its own: where the block takes no write of the agent it has no effect
(R12), and either way the store is acknowledged. `a` is the register's offset in the register space. While the unit
that serves the register does not run the write waits (R505; log 49). -/
def regCmd (k : BlockKind) (a : Nat) (ag : Agent) (s : State) (f : State → State) : State :=
  if !regRuns s a then s
  else
    let s := s.ackWrite ag (0xF0000000000 + a)
    if writeAllowed k (a % 0x10000) ag then f s else s

end Sys2Proof.Machine
end

