-- ==== Sys2Proof/Machine/Branch.lean ====
section
/-! DEFINITION. The BR unit: branches, calls and returns with the predictor, RETT, traps, WAITEV, ISYNC, PFLUSH and PBAR
(R55, R63 to R66, R68, R78, R79, R112, R113, R136 to R139, R142, R151 to R153, R164, R441). -/

namespace Sys2Proof.Machine

/-! ## The predictor (R136 to R139, R586) -/

/-- The kinds of branch a block-target entry records: 0 conditional, 1 direct, 2 indirect. -/
abbrev BrKind := Nat

/-- The 12-bit tag of a context: tenant and bank (R136). -/
def ctxTag (b : Bank) : BitVec 12 := BitVec.ofNat 12 (b.tenant % 512 + (b.psw.bank % 8) * 512)

def btbSet (b : Bank) (pc : Word) : Nat := fld pc 5 9 ^^^ fld b.psecNow 0 9
def dirIx (b : Bank) (pc : Word) : Nat := fld pc 5 12 ^^^ (b.gh.toNat % 4096) ^^^ fld b.psecNow 9 12
def indIx (b : Bank) (pc : Word) : Nat := fld pc 5 9 ^^^ (b.gh.toNat / 128) ^^^ fld b.psecNow 21 9

/-- A target as it is stored: scrambled with the context's secret (R137). -/
def scramble (b : Bank) (target : Word) : Word :=
  BitVec.ofNat 64 (fld target 2 46) ^^^ BitVec.ofNat 64 (fld b.psecNow 18 46)
def unscramble (b : Bank) (x : Word) : Word := (x ^^^ BitVec.ofNat 64 (fld b.psecNow 18 46)) <<< 2

def findBtb (k : Core) (b : Bank) (pc : Word) : Option BtbEnt :=
  k.btb.find? (fun e => e.set = btbSet b pc && e.tag = ctxTag b && e.vtag = fld pc 14 18 && e.off = fld pc 2 3)

/-- The predicted direction of a conditional branch that the block-target buffer holds. -/
def predDir (k : Core) (b : Bank) (e : BtbEnt) (pc : Word) : Bool :=
  match k.dirT.find? (fun d => d.1 = dirIx b pc) with
  | some (_, d) => if d.tag = ctxTag b then decide (2 ≤ d.ctr.toNat) else e.bias
  | none => e.bias

/-- The predicted target of the branch at a bundle address; none: the fall-through is predicted (R136, R137). -/
def predict (k : Core) (b : Bank) (pc : Word) : Option Word :=
  match findBtb k b pc with
  | none => none
  | some e =>
    if e.kind = 0 && !predDir k b e pc then none
    else if e.kind = 2 then
      match k.indT.find? (fun d => d.1 = indIx b pc) with
      | some (_, d) => if d.tag = ctxTag b then some (unscramble b d.target) else some (unscramble b e.target)
      | none => some (unscramble b e.target)
    else some (unscramble b e.target)

/-- The entries of a block-target set, with a new one: it replaces that of the same branch, takes a free way, or
replaces the entry that the free value `w` chooses (R586). -/
def putBtb (l : List BtbEnt) (e : BtbEnt) (w : Nat) : List BtbEnt :=
  let rest := l.filter (fun x => !(x.set = e.set && x.tag = e.tag && x.vtag = e.vtag && x.off = e.off))
  let same := rest.filter (fun x => x.set = e.set)
  if same.length < 4 then e :: rest
  else
    match same[w % 4]? with
    | some v => e :: dropFirst (fun x => x = v) rest
    | none => e :: rest

/-- A 2-bit counter after a branch. -/
def bump (c : BitVec 2) (taken : Bool) : BitVec 2 :=
  if taken then (if c = 3 then 3 else c + 1) else (if c = 0 then 0 else c - 1)

/-- The update that a branch on the correct path makes at BC (R138): a taken branch is entered in the block-target
buffer, an indirect one in the indirect table, a conditional one in the direction table and its bank's history. The starting
counter, bias and replaced way are free values (R586). -/
def Core.train (k : Core) (e : Train) : Core :=
  let old := k.btb.find? (fun x => x.set = e.set && x.tag = e.tag && x.vtag = e.vtag && x.off = e.off)
  let btb := if e.taken then putBtb k.btb ⟨e.set, e.tag, e.vtag, e.off, e.kind, (old.map (·.bias)).getD (bit e.free 0), e.target⟩ (fld e.free 1 2) else k.btb
  let ctr := match k.dirT.find? (fun d => d.1 = e.dir) with
    | some (_, d) => if d.tag = e.tag then bump d.ctr e.taken else BitVec.ofNat 2 (fld e.free 3 2)
    | none => BitVec.ofNat 2 (fld e.free 3 2)
  let k1 := { k with btb := btb, dirT := if e.kind = 0 then mset k.dirT e.dir ⟨e.tag, ctr⟩ else k.dirT,
                     indT := if e.kind = 2 then mset k.indT e.ind ⟨e.tag, e.target⟩ else k.indT }
  if e.kind = 0 then k1.setBank e.bank { k1.bank e.bank with gh := (k1.bank e.bank).gh <<< 1 ||| (if e.taken then 1 else 0) } else k1

/-- Every update due by edge `t` is made, in order. -/
def Core.trainUpTo (k : Core) (t : Nat) : Core :=
  (k.bcq.filter (fun e => decide (e.due ≤ t))).foldl Core.train { k with bcq := k.bcq.filter (fun e => !decide (e.due ≤ t)) }

/-- The update that a branch at `pc`, issued on edge `t`, will make at BC, two edges later (R132, R138). -/
def trainOf (b : Bank) (bi t : Nat) (pc : Word) (kind : BrKind) (taken : Bool) (target : Word) (free : Word) : Train :=
  { due := t + 2, bank := bi, set := btbSet b pc, tag := ctxTag b, vtag := fld pc 14 18, off := fld pc 2 3, kind := kind, taken := taken,
    target := scramble b target, dir := dirIx b pc, ind := indIx b pc, free := free }

/-- What a taken branch ends: PBAR, the wait of a PSEC write (R74, R113) and the use of the fetched blocks. DESIGN CHOICE (log 69): a taken
branch in the bundle that writes PSEC is the next taken branch after the write; the spec does not say. -/
def Bank.tookBranch (b : Bank) : Bank := { b with pbar := false, psecNow := b.psec, fbuf := [] }

/-- The first correct-path bundle issues with a cost of 0 or 7 [core] (R139). -/
def Bank.redirect (b : Bank) (t : Nat) (ok : Bool) : Bank :=
  { b with ready := max b.ready (if ok then t + 1 else t + 8), waste := if ok then 0 else 2 }

/-- The branch events of a bank (R545): a taken branch, also under PBAR, and a misprediction in direction or target. -/
def State.branchEvents (s : State) (c bi : Nat) (cond taken pbar wrongDir wrongTgt : Bool) : State :=
  let one := fun (s : State) (on_ : Bool) (code : Nat) => if on_ then s.ev c bi code 1 else s
  one (one (one (one (one s cond 0x08) taken 0x0E) (taken && pbar) 0x0F) wrongDir 0x09) wrongTgt 0x0A

/-- A branch at `pc` resolves: the PC, the predictor and the cost (R138, R139). It was predicted at NP, five edges before its
issue, from what the tables held then (R132). -/
def State.branch (s : State) (c bi t : Nat) (pc : Word) (kind : BrKind) (taken : Bool) (target : Word) : State :=
  let s := s.updCore c (fun k => k.trainUpTo (t - 5))
  let b := s.bank c bi
  let guess := if b.pbar then none else predict (s.core c) b pc
  let ok := if taken then !b.pbar && guess = some target else guess.isNone
  let wrongDir := decide (kind = 0) && guess.isSome ≠ taken
  (((s.branchEvents c bi (kind = 0) taken b.pbar wrongDir (!ok && !wrongDir)).updCore c (fun k =>
    { k with bcq := k.bcq ++ [trainOf b bi t pc kind taken target (Config.freeWord s.draws)] })).draw).updBank c bi (fun b =>
    let b := if taken then { b.tookBranch with pc := target } else if ok then b else { b with fbuf := [] }
    b.redirect t ok)

/-- The target of a PC-relative branch (R57). -/
def relTarget (s : State) (x : Syl) : Word := (preBank s x).pc + x.imm * 4

/-- A conditional branch. -/
def condBr (s : State) (t : Nat) (x : Syl) (taken : Bool) : SylRes :=
  let pc := (preBank s x).pc
  let tg := relTarget s x
  .ok (fun s => s.branch x.core x.bank t pc 0 taken tg)

/-! ## Branches and calls -/

def semBr : Sem := fun s t x =>
  let pc := (preBank s x).pc
  let tg := relTarget s x
  .ok (fun s => s.branch x.core x.bank t pc 1 true tg)

def semBeqz : Sem := fun s t x => condBr s t x (opD s x = 0)
def semBnez : Sem := fun s t x => condBr s t x (opD s x ≠ 0)
def semBltz : Sem := fun s t x => condBr s t x (decide ((opD s x).toInt < 0))
def semBgez : Sem := fun s t x => condBr s t x (decide (0 ≤ (opD s x).toInt))
def semBgtz : Sem := fun s t x => condBr s t x (decide (0 < (opD s x).toInt))
def semBlez : Sem := fun s t x => condBr s t x (decide ((opD s x).toInt ≤ 0))
def semBbs : Sem := fun s t x => condBr s t x ((opD s x).getLsbD x.a.toNat)
def semBbc : Sem := fun s t x => condBr s t x (!(opD s x).getLsbD x.a.toNat)

/-- The instruction-alignment fault of a register-indirect target (R55). -/
def targetExc (tg : Word) : Option Exc := if tg.toNat % 4 ≠ 0 then some (excS 3 tg) else none

/-- The window condition of a call (R63, R65). -/
def callWinExc (b : Bank) : Option Exc :=
  if b.psw.tw then some .freeze else if b.psw.wres = 5 then some (excS 11) else none

/-- The window condition of a return (R63, R65). -/
def retWinExc (b : Bank) : Option Exc :=
  if b.psw.tw then some .freeze else if b.psw.wres = 1 then some (excS 12) else none

/-- The overflow condition of a push (R65, R78). -/
def pushExc (b : Bank) : Option Exc :=
  if b.psw.rsd = 16 && b.psw.rsm then some (if b.psw.tw then .freeze else excS 13) else none

/-- The underflow condition of a pop (R65, R78). -/
def popExc (b : Bank) : Option Exc :=
  if b.psw.rsd = 0 && b.psw.rsm then some (if b.psw.tw then .freeze else excS 14) else none

/-- The first exception of a list of conditions in order (R66). -/
def firstExc : List (Option Exc) → Option Exc
  | [] => none
  | some e :: _ => some e
  | none :: l => firstExc l

/-- The window turns forward (R63). -/
def Bank.turnUp (b : Bank) : Bank := { b with psw := { b.psw with wcur := nextPos b.psw.wcur, wres := b.psw.wres + 1 } }
/-- The window turns back (R63). -/
def Bank.turnDown (b : Bank) : Bank := { b with psw := { b.psw with wcur := prevPos b.psw.wcur, wres := b.psw.wres - 1 } }

/-- A call: its conditions, then the push of the following bundle's address, the window and the branch (R63, R66, R78). -/
def callSem (s : State) (t : Nat) (x : Syl) (kind : BrKind) (tg : Word) (win : Bool) : SylRes :=
  let b := preBank s x
  let pc := b.pc
  match firstExc [if kind = 2 then targetExc tg else none, if win then callWinExc b else none, pushExc b] with
  | some e => .exc e id
  | none => .ok (fun s =>
      (s.updBank x.core x.bank (fun b => (if win then b.turnUp else b).push b.pc)).branch x.core x.bank t pc kind true tg)

def semCall : Sem := fun s t x => callSem s t x 1 (relTarget s x) false
def semCallw : Sem := fun s t x => callSem s t x 1 (relTarget s x) true
def semCallr : Sem := fun s t x => callSem s t x 2 (opA s x) false
def semCallwr : Sem := fun s t x => callSem s t x 2 (opA s x) true

def semJmp : Sem := fun s t x =>
  let pc := (preBank s x).pc
  let tg := opA s x
  match targetExc tg with
  | some e => .exc e id
  | none => .ok (fun s => s.branch x.core x.bank t pc 2 true tg)

/-- A return: predicted from the return stack, but not at depth 0 in WRAP mode (R55, R66, R78, R79, R139). -/
def retSem (s : State) (t : Nat) (x : Syl) (win : Bool) : SylRes :=
  let b := preBank s x
  let tg := b.top
  let ok := decide (1 ≤ b.psw.rsd) || b.psw.rsm
  match firstExc [if (popExc b).isSome then none else targetExc tg, if win then retWinExc b else none, popExc b] with
  | some e => .exc e id
  | none => .ok (fun s =>
      let s1 := s.branchEvents x.core x.bank false true b.pbar false false
      (if ok then s1 else s1.ev x.core x.bank 0x0B 1).updBank x.core x.bank
        (fun b => { ((if win then b.turnDown else b).pop).tookBranch with pc := tg }.redirect t ok))

def semRet : Sem := fun s t x => retSem s t x false
def semRetw : Sem := fun s t x => retSem s t x true

/-- RSPUSH pushes ra (R78). -/
def semRspush : Sem := fun s _ x =>
  let v := opA s x
  match pushExc (preBank s x) with
  | some e => .exc e id
  | none => onBank x (fun b => b.push v)

/-- RSPOP writes the popped value to rd (R78). -/
def semRspop : Sem := fun s _ x =>
  let b := preBank s x
  let v := b.top
  let p := b.nm x.d
  match popExc b with
  | some e => .exc e id
  | none => onBank x (fun b => b.pop.wphys p v)

/-! ## Traps and calls to higher levels -/

/-- imm16, zero-extended. -/
def imm16 (x : Syl) : Nat := x.imm.toNat % 65536

def semTrap : Sem := fun _ _ x => .exc (.entry 15 1 (BitVec.ofNat 64 (imm16 x)) 0 0) id
def semHcall : Sem := fun _ _ x => .exc (.entry 16 2 (BitVec.ofNat 64 (imm16 x)) 0 0) id

/-- Whether the anchor of a half fences the cut (R293, R482). -/
def cutFenced (s : State) (half : Nat) : Bool :=
  (if half = 0 then [2, 8, 14, 20, 26] else [3, 9, 15, 21, 27]).any (fun r => (s.router r).anchorFence ≠ [])

/-- cw_busy of a core (R441): the Closed world is not SERVING, or the core is West and its anchor fences the cut. -/
def cwBusy (s : State) (c : Nat) : Bool :=
  s.f R.SEC_STAT F.SEC_STAT_cw_state ≠ 1 || (clusterHalf (clusterOf c) = 0 && cutFenced s 0)

/-- The value of BUSY (R441). -/
def busyWord : Word := 0xFFFFFFFFFFFFFFFE#64

/-- MCALL (R142, R441): from world 0 while cw_busy is 1 it writes BUSY to g1 and completes. -/
def semMcall : Sem := fun s _ x =>
  if !(preBank s x).psw.world && cwBusy s x.core then onBank x (fun b => b.wphys 1 busyWord)
  else .exc (.entry 17 3 (BitVec.ofNat 64 (imm16 x)) 0 0) id

/-! ## RETT (R68, R144, R145, R146, R152, R153, R260, R327) -/

/-- The end notice of the interrupt whose entry a return ends (R327). -/
def State.endNotice (s : State) (c bi : Nat) : State :=
  let b := s.bank c bi
  match b.irq with
  | some (d, n) => if b.depth = d then { s.updBank c bi (fun b => { b with irq := none }) with notices := s.notices ++ [(false, n)] } else s
  | none => s

/-- The fast bank goes idle: the pre-empted bank's next bundle issues 3 [core] after the RETT, and a folio sequence goes on then; the
fast-vector buffer is loaded anew (R151, R152, R187). -/
def State.fastEnd (s : State) (c t : Nat) : State :=
  let s1 := s.updCore c (fun k =>
    { k with banks := k.banks.map (fun p => (p.1, if p.2.st = .run && p.1 ≠ 7 then { p.2 with ready := max p.2.ready (t + 3) } else p.2)),
             fastRun := false, fastSrc := none, move := k.move.map (fun m => { m with at_ := max m.at_ (t + 3) }) }) |>.loadFastBuf c
  match (s.core c).fastSrc with
  | some n => { s1 with notices := s1.notices ++ [(false, n)] }
  | none => s1

/-- What the record of a RETT makes it answer: an illegal wcur, or a privilege exception, else none (R68). -/
def rettExc (b : Bank) (r : Psw) : Option Exc :=
  if 6 ≤ r.wcur then some (excS 1)
  else if b.psw.pl.toNat < r.pl.toNat || (r.world && !b.psw.world) then some (excS 2)
  else none

/-- What RETT does with the words of its record, the restored bundle issuing at `ready` but for the flush of a world switch (R68, R153,
R260, R327). -/
def rettDo (s : State) (x : Syl) (ws : List Word) (ready : Nat) : SylRes :=
  let b := preBank s x
  match rettExc b (Psw.ofWord (ws.getD 0 0)) with
  | some e => .exc e id
  | none => .ok (fun s =>
      let out := b.psw.world && !(Psw.ofWord (ws.getD 0 0)).world
      let w := if out then flushEdges (s.core x.core) else 0
      let s1 := if out then s.worldFlush x.core else s
      (s1.updBank x.core x.bank (fun b => { rettBank b ws (ready + w) with loads := b.loads.filter (fun l => l.blk ≠ 2), fbuf := [] })).endNotice x.core x.bank)

/-- The line of a record as a part of an access. -/
def recordPart (pa : Nat) : PartAt := ⟨0, 0, 64, false, pa, effType .wb pa, false, none⟩

/-- RETT (R152, R153): the restored bundle issues 9 [core] later where the record hits the L1D or the write buffer, else 6 [core] after
the record has come. -/
def semRett : Sem := fun s t x =>
  let b := preBank s x
  if b.psw.fast && b.depth = 0 then .ok (fun s => s.fastEnd x.core t)
  else if b.blkLoads 2 ≠ [] then rettDo s x (lineWords (b.blkLoads 2)) (t + 6)
  else
    match folioAt s x.core b (b.folio.toNat + 0x180 + 0x40 * (b.depth - 1)) false with
    | none => .exc .freeze id
    | some pa =>
      if linesKnown s x.core x.bank [recordPart pa] then rettDo s x (knownWords s x.core x.bank [recordPart pa]) (t + 9)
      else .hold (fun s => (s.loadLine x.core x.bank 2 (recordPart pa)).pump x.core)

/-! ## WAITEV, ISYNC, PFLUSH, PBAR -/

/-- WAITEV asks the scheduler, and the bank issues nothing until the answer (R164). -/
def semWaitev : Sem := fun _ _ x => onBank x (fun b => { b with waitev := some (imm16 x) })

/-- ISYNC (R112, R155): the next bundle is fetched anew, 8 [core] after the later of this edge and the last earlier
store's; the fast bank's reloads the fast-vector buffer (R151). -/
def semIsync : Sem := fun s t x =>
  let b := preBank s x
  let open_ := storesBelow (s.core x.core) x.bank b.seq
  .ok (fun s =>
    let s1 := s.updBank x.core x.bank (fun y =>
      if open_ then { y with isync := some (t, b.seq), fbuf := [] } else { y with ready := max y.ready (t + 8), fbuf := [] })
    if x.bank = 7 && b.psw.fast then s1.loadFastBuf x.core else s1)

/-- PFLUSH drops every predictor entry with the context's tag, and its updates on the way (R113). -/
def semPflush : Sem := fun s _ x =>
  let g := ctxTag (preBank s x)
  .ok (fun s => s.updCore x.core (fun k =>
    let k := k.dropTrains (fun e => e.tag = g)
    { k with btb := k.btb.filter (fun e => e.tag ≠ g), dirT := k.dirT.filter (fun e => e.2.tag ≠ g),
             indT := k.indT.filter (fun e => e.2.tag ≠ g) }))

def semPbar : Sem := fun _ _ x => onBank x (fun b => { b with pbar := true })

end Sys2Proof.Machine
end

