-- ==== Sys2Proof/Machine/Folio.lean ====
section
/-! DEFINITION. Memory as the device itself reads and writes it, the folios of a thread, and the save and restore of a
bank by the scheduler
(R170 to R173, R182 to R188). -/

namespace Sys2Proof.Machine

/-! ## Coherent writes -/

/-- A line with bytes of `e` written keeps its state in every copy. -/
def writeCopy (l : List CLine) (line : Nat) (d : Line) (whole : Bool) : List CLine :=
  l.map (fun x => if x.line = line then { x with data := d, poison := x.poison && !whole } else x)

/-- Whether a packet carries a line's data between the caches, their home and DRAM. -/
def carriesLine (p : Pkt) (line : Nat) : Bool :=
  decide (p.pa / 64 = line) && (decide (p.net = 3) || (decide (p.net = 0) && p.mask ≠ 0 && (p.typ = 3 || p.typ = 5 || p.typ = 6 || p.typ = 0xD)))

/-- A packet that carries data of a line carries the new line. -/
def withLine (p : Pkt) (line : Nat) (d : Line) (whole : Bool) : Pkt :=
  if carriesLine p line then { p with data := d, poison := p.poison && !whole } else p

/-- Every copy of a line, those on their way and in the queues among them, holds the new line; a line written whole is
poisoned no more. A disabled cache keeps its contents (R267). -/
def State.setLineEverywhere (s : State) (line : Nat) (d : Line) (whole : Bool) : State :=
  let home := homeSlice s.map line
  let pkt := fun (p : Pkt) => withLine p line d whole
  { s with cores := s.cores.map (fun p => (p.1, if l1dOn s p.1 then { p.2 with l1d := writeCopy p.2.l1d line d whole } else p.2)),
           clusters := s.clusters.map (fun p => (p.1, { p.2 with
             l2 := if l2On s p.1 then writeCopy p.2.l2 line d whole else p.2.l2,
             evq := p.2.evq.map (fun e => if e.line = line then { e with data := d, poison := e.poison && !whole } else e) })),
           slices := s.slices.map (fun p => (p.1, if p.1 = home then { p.2 with
             lines := if sliceOn s p.1 then writeCopy p.2.lines line d whole else p.2.lines,
             dir := p.2.dir.map (fun e => if e.line = line then { e with poison := e.poison && !whole } else e),
             queue := p.2.queue.map pkt,
             txns := p.2.txns.map (fun t => if t.line = line then
               { t with data := t.data.map (fun _ => d), poison := t.poison && !whole, req := pkt t.req } else t) } else p.2)),
           chans := s.chans.map (fun p => (p.1, { p.2 with wq := p.2.wq.map pkt, held := p.2.held.map (fun q => (q.1, pkt q.2)) })),
           inbox := s.inbox.map pkt,
           routers := s.routers.map (fun r => (r.1, { r.2 with bufs := r.2.bufs.map (fun q => (q.1, q.2.map pkt)) })),
           mem := memWrite s.mem (64 * line) d.toNat 64,
           poison := if whole then s.poison.filter (· ≠ line) else s.poison }

/-- Reservations on the granule of a line go, but for the bank named (R105). -/
def State.clearResv (s : State) (line : Nat) (but : Option (Nat × Nat)) : State :=
  { s with cores := s.cores.map (fun p => (p.1, { p.2 with banks := p.2.banks.map (fun q =>
      (q.1, if q.2.resv = some (line / 2) && but ≠ some (p.1, q.1) then { q.2 with resv := none } else q.2)) })) }

/-- The device itself writes the bytes of a mask of a line, as one coherent write: every copy then holds the new line
(log 16). -/
def State.cohWrite (s : State) (line : Nat) (d : Line) (mask : BitVec 64) : State :=
  (s.setLineEverywhere line (mergeLine (cohLine s line).1 d mask) (decide (mask = BitVec.allOnes 64))).clearResv line none

/-- `n` low bytes of `v` written at an address, within one line. -/
def State.cohStore (s : State) (pa n v : Nat) : State := s.cohWrite (pa / 64) (setLineField 0 (pa % 64) n v) (byteMask (pa % 64) n)

/-! ## Folio accesses (R170, R188) -/

/-- What a row of a folio sequence has done, and whether its accesses succeeded: one that fails ends the row, and what stood done
before it stays (R188). -/
abbrev Row : Type := State × Bool

/-- A row goes on while its accesses succeed. -/
def thenRow (r : Row) (f : State → Row) : Row := if r.2 then f r.1 else r

/-- A row goes on with the word that an access has read. -/
def withWord (s : State) (o : Option Word) (f : Word → Row) : Row :=
  match o with
  | some v => f v
  | none => (s, false)

/-- A doubleword of a folio as the bank's context reads it; none: the access fails (R188). -/
def fRead (s : State) (c bi tenant ipa : Nat) : Option Word :=
  (folioPa s c tenant ipa false).map (fun pa => BitVec.ofNat 64 (ctxRead s c bi pa 8))

/-- A doubleword of a folio written. -/
def fWrite (s : State) (c tenant ipa : Nat) (v : Word) : Row :=
  match folioPa s c tenant ipa true with
  | some pa => (s.cohStore pa 8 v.toNat, true)
  | none => (s, false)

/-- Words written to folio lines from a line-aligned address: every line is translated. -/
def fWriteLines (s : State) (c tenant : Nat) : Nat → Nat → List Word → Row
  | 0, _, _ => (s, true)
  | n + 1, ipa, ws =>
    match folioPa s c tenant ipa true with
    | none => (s, false)
    | some pa =>
      fWriteLines (s.cohWrite (pa / 64) (BitVec.ofNat 512 (packWords (ws.take 8))) (BitVec.allOnes 64)) c tenant n (ipa + 64) (ws.drop 8)

/-- The words of folio lines from a line-aligned address. -/
def fReadLines (s : State) (c bi tenant : Nat) : Nat → Nat → Option (List Word)
  | 0, _ => some []
  | n + 1, ipa =>
    match folioPa s c tenant ipa false, fReadLines s c bi tenant n (ipa + 64) with
    | some pa, some ws => some (readWords s c bi pa 8 ++ ws)
    | _, _ => none

/-! ## The save of a bank (R182, R184) -/

/-- One window of the victim is spilled: a folio popped from the free list takes the frame and joins the window-spill
stack (R173, R184). An empty free list is a failure (R188). -/
def spillWindow (s : State) (c bi : Nat) : Row :=
  let b := s.bank c bi
  let lo := b.folio.toNat
  withWord s (fRead s c bi b.tenant (lo + 0x18)) (fun f =>
    if f = 0 then (s, false)
    else
      withWord s (fRead s c bi b.tenant f.toNat) (fun link =>
        thenRow (fWrite s c b.tenant (lo + 0x18) link) (fun s =>
        thenRow (fWriteLines s c b.tenant 4 (f.toNat + 0x100) (wspillWords b)) (fun s =>
        withWord s (fRead s c bi b.tenant (lo + 8)) (fun head =>
        thenRow (fWrite s c b.tenant (f.toNat + 8) 1) (fun s =>
        thenRow (fWrite s c b.tenant f.toNat head) (fun s =>
        thenRow (fWrite s c b.tenant (lo + 8) f) (fun s =>
          (s.updBank c bi (fun b => { b with psw := { b.psw with wres := b.psw.wres - 1 } }), true)))))))))

/-- The bank as a save writes it: at world 1 every register slot and the PC word are zero (R458). -/
def Bank.masked (b : Bank) : Bank := if b.psw.world then { b with phys := [], mreg := [], rs := [], pc := 0 } else b

/-- The lower half of a bank's view saved into the lower folio, with the state word given (R176, R182, R184). -/
def saveLow (s : State) (c bi : Nat) (stw : Word) : Row :=
  let b := s.bank c bi
  fWriteLines s c b.tenant 5 (b.folio.toNat + 0x40) (savelWords b.masked b.psw.word b.masked.pc stw)

/-- The upper half saved into the upper folio, which the lower one links (R176, R182, R184). -/
def saveHigh (s : State) (c bi : Nat) : Row :=
  let b := s.bank c bi
  withWord s (fRead s c bi b.tenant b.folio.toNat) (fun up => fWriteLines s c b.tenant 7 (up.toNat + 0x40) (savehWords b.masked))

/-- A bank as its reset leaves it in a core: PSW.fast is 1 in the fast bank (R71, R157, R585). The count of its accesses runs
on, since its stores outlive it (R222). -/
def bankReset (s : State) (c bi : Nat) : Bank :=
  { Bank.reset bi with seq := (s.bank c bi).seq, psw := { (Bank.reset bi).psw with fast := bi = 7 && s.on (R.SCHED_CORE (clusterOf c) (c % 8)) F.SCHED_CORE_fast_en } }

/-- A thread whose folios cannot be reached is FROZEN with ferr, its bank is reset and EMPTY, and its supervisor told
(R188). -/
def State.frozenThread (s : State) (c bi n : Nat) : State :=
  let k := clusterOf c
  ((((s.setBank c bi (bankReset s c bi)).setThrState k n 6).setF (R.SCHED_THR_B k n) F.SCHED_THR_B_ferr 1).updCluster k
    (fun q => { q with parked := mdel q.parked n })).contextFault k n

/-- What a thread that leaves its bank takes with it beyond its folios (R102, R108, R112, R113, R164). -/
def Bank.park (b : Bank) : Parked := { slept := b.slept, waitev := b.waitev, lof := b.lofPend, bars := b.bars, isync := b.isync, pbar := b.pbar }

/-- A bank that its thread has left is EMPTY; its registers stand as they are (R184). -/
def Bank.freed (b : Bank) : Bank :=
  { b with st := .empty, thread := none, fly := [], loads := [], bars := [], stc := none, isync := none, waitev := none, slept := none, held := none,
           cons := none, entry := none, missing := false, lofPend := false, lost := none, devLost := false, resv := none, fwait := none, fsent := none,
           fbuf := [], irq := none, dbgPend := false, pbar := false, closedEntry := none }

/-- The victim's save done, its bank is EMPTY and its thread WAIT-OUT or READY-OUT, or WAIT-OUT with a debug hold (R183, R184, R536);
of a lost store that its bank was marked with, its supervisor is told (R225). -/
def State.evicted (s : State) (c bi n : Nat) (halt : Bool) : State :=
  let k := clusterOf c
  let b := s.bank c bi
  let s1 := ((s.setBank c bi b.freed).setThrState k n (if b.st = .wait || halt then 1 else 2)).updCluster k
    (fun q => { q with parked := mset q.parked n b.park, held := if halt then n :: q.held.filter (· ≠ n) else q.held })
  (if b.lost.isSome then s1.contextFault k n else s1).evc c 0x35 1

/-- A thread has ended (R161): its bank is freed. DESIGN CHOICE (log 70): SCHED_THR_A.valid reads 0 then and its pending events
are discarded, as where software makes a thread OFF (R160); R161 says only that the thread is OFF. -/
def State.ended (s : State) (c bi n : Nat) : State :=
  let k := clusterOf c
  ((((s.setBank c bi (s.bank c bi).freed).setThrState k n 0).setF (R.SCHED_THR_A k n) F.SCHED_THR_A_valid 0).setF (R.SCHED_THR_B k n)
    F.SCHED_THR_B_pend 0).updCluster k (fun q => { q with parked := mdel q.parked n })

/-- Every result and write pending in a bank lands before a folio sequence moves its registers (R184). -/
def State.settle (s : State) (c bi : Nat) : State := s.landAt c (max ((s.core c).cyc + 1) (lastDue (s.bank c bi).fly (fun _ => true)))

/-- Whether the operations of a bank that end by an event of their own have ended: an access of its held bundle, loads, and a STCOND
(R102, R177, R184). -/
def Bank.quiet (b : Bank) : Bool := b.loads = [] && b.stc.isNone && b.held.isNone

/-- An STM or LDM of a bank that is to be saved stops (R180). -/
def State.stopHeld (s : State) (c bi : Nat) : State := s.updBank c bi (fun b => if b.busyLoad then b else match b.held with
  | some h => if h.multi then b.stopMulti else b
  | none => b)

/-! ## The load of a thread (R184 to R186) -/

/-- PSW.pl of a loaded thread: the lower of its folio's and plmax, which 0b11 makes P (R186). -/
def loadPl (saved plmax : Nat) : BitVec 2 := BitVec.ofNat 2 (min saved (min plmax 2))

/-- The bank that a load leaves: RESTL and RESTH with tw 0, then PL, world, depth and PC by R186. -/
def loadBank (b : Bank) (lo hi : List Word) (n tenant asid : Nat) (folio : Word) (plmax : Nat) : Bank :=
  let p := Psw.ofWord (lo.getD 32 0)
  let b0 := { b.freed with psw := { b.psw with tw := false, world := false, pl := loadPl p.pl.toNat plmax }, depth := 0 }
  let b1 := resthBank (restlBank b0 lo) hi
  { b1 with pc := lo.getD 33 0, depth := 0, thread := some n, tenant := tenant, asid := asid, folio := folio, st := .ready }

/-- What a thread brings back to a bank: the count of its accesses goes on above those that its own accesses still name (R102, R108,
R112, R113, R164, R222). -/
def Bank.unpark (b : Bank) (p : Parked) (wb : List WbEnt) : Bank :=
  let own := (wb.filter (fun e => e.thread.isSome && e.thread = b.thread)).map (fun e => e.seq + 1)
  { b with slept := p.slept, waitev := p.waitev, lofPend := p.lof, bars := p.bars, isync := p.isync, pbar := p.pbar,
           seq := (own ++ p.bars.map (fun (w : BarWait) => w.seq + 1) ++ (p.isync.map (fun (i : Nat × Nat) => i.2)).toList).foldl max b.seq }

/-- The tenant of a thread's folios and the address of the lower one. -/
def thrFolio (s : State) (k n : Nat) : Nat := s.f (R.SCHED_THR_A k n) F.SCHED_THR_A_folio * 64

/-- RESTL of the incoming lower folio: its words, and its link after them (R184). -/
def loadLow (s : State) (c bi n : Nat) : Option (List Word) :=
  let ten := thrTenant s (clusterOf c) n
  let lo := thrFolio s (clusterOf c) n
  (fReadLines s c bi ten 5 (lo + 0x40)).bind (fun l => (fRead s c bi ten lo).map (fun up => l ++ [up]))

/-- RESTH of the incoming upper folio: the thread stands in the bank, its first bundle issuing at edge `r` (R184 to R186). -/
def loadHigh (s : State) (c bi n r : Nat) (l : List Word) : Row :=
  let k := clusterOf c
  match fReadLines s c bi (thrTenant s k n) 7 ((l.getD 40 0).toNat + 0x40) with
  | none => (s, false)
  | some h =>
    let b := loadBank (s.bank c bi) l h n (thrTenant s k n) (s.f (R.SCHED_THR_A k n) F.SCHED_THR_A_asid) (BitVec.ofNat 64 (thrFolio s k n))
      (s.f (R.SCHED_THR_B k n) F.SCHED_THR_B_plmax)
    let b := { b.unpark (mget {} (s.cluster k).parked n) (s.core c).wb with ready := r, waitSince := s.ref }
    (((((s.setBank c bi b).setF (R.SCHED_THR_B k n) F.SCHED_THR_B_bank bi).setThrState k n 4).updCluster k
      (fun q => { q with parked := mdel q.parked n })).evc c 0x36 1, true)

/-! ## The sequence by its rows (R184, R187, R188) -/

/-- The sequence of a core is over at edge `e`: no bank issues before it (R184). DESIGN CHOICE (log 71): that holds of every bank of the
core, whichever then issues first. -/
def State.endMove (s : State) (c e : Nat) : State :=
  s.updCore c (fun k => { k with move := none, banks := k.banks.map (fun p => (p.1, { p.2 with ready := max p.2.ready e })) })

/-- A sequence takes a core (R184): a victim that was selected is READY, its reservation gone (R105). -/
def State.startMove (s : State) (c : Nat) (m : Move) : State :=
  let s1 := s.updCore c (fun k => { k with move := some m })
  match m.victim with
  | some v =>
    if (s.bank c m.bank).st = .run then
      (s1.updBank c m.bank (fun b => { b with st := .ready, waitSince := s.ref, resv := none })).setThrState (clusterOf c) v 4
    else s1
  | none => s1

/-- A debug halt is answered in TRC_HSTAT (R536). -/
def State.haltDone (s : State) (halt : Option Nat) (held : Bool) : State :=
  if halt = some 5 then
    { (s.setF R.TRC_HSTAT F.TRC_HSTAT_rstat 1).setF R.TRC_HSTAT F.TRC_HSTAT_held (if held then 1 else 0) with dbg := { s.dbg with hcmd := none } }
  else s

/-- The victim's half of a sequence: a spill of one older window, the lower half with wres 1, or the upper half. -/
def saveRow (s : State) (c : Nat) (m : Move) : Row :=
  if m.row < m.w then spillWindow s c m.bank
  else if m.row = m.w then
    let s1 := s.updBank c m.bank (fun b => { b with psw := { b.psw with wres := 1 } })
    saveLow s1 c m.bank (BitVec.ofNat 64 (s1.bank c m.bank).depth)
  else saveHigh s c m.bank

/-- The victim's save is over: it leaves the bank, or ends. -/
def State.saved (s : State) (c v : Nat) (m : Move) : State :=
  if m.ends then s.ended c m.bank v else (s.evicted c m.bank v m.halt.isSome).haltDone m.halt true

/-- One row of the sequence of a core (R184); a failed access freezes the thread whose folio it was (R188), and a thread that a reset
has turned OFF ends it. -/
def moveRow (s : State) (c : Nat) (m : Move) : State :=
  let s := s.landAt c m.at_
  let e := (s.core c).cyc
  let on_ := fun (s : State) (m : Move) => s.updCore c (fun k => { k with move := some m })
  if m.row < m.w + 2 then
    match m.victim with
    | none => s.endMove c e
    | some v =>
      if (s.bank c m.bank).thread ≠ some v then s.endMove c e
      else
        let r := saveRow s c m
        let m1 := { m with row := m.row + 1, at_ := e + 8 }
        if !r.2 then ((r.1.frozenThread c m.bank v).haltDone m.halt false).endMove c e
        else if m.row ≤ m.w then on_ r.1 m1
        else if m.next.isNone then (r.1.saved c v m).endMove c (e + 8)
        else on_ (r.1.saved c v m) m1
  else
    match m.next with
    | none => s.endMove c e
    | some n =>
      if thrState s (clusterOf c) n ≠ 2 ∨ (s.bank c m.bank).st ≠ .empty then s.endMove c e
      else if m.row = m.w + 2 then
        match loadLow s c m.bank n with
        | some l => on_ (s.updBank c m.bank (fun b => { b with folio := BitVec.ofNat 64 (thrFolio s (clusterOf c) n) })) { m with row := m.row + 1, at_ := e + 8, lo := l }
        | none => (s.frozenThread c m.bank n).endMove c e
      else
        let r := loadHigh s c m.bank n (e + 10) m.lo
        (if r.2 then r.1 else r.1.frozenThread c m.bank n).endMove c (if r.2 then e + 10 else e)

/-- A sequence starts once the victim's operations and pending writes have ended (R184). -/
def moveBegin (s : State) (c : Nat) (m : Move) : State :=
  let s1 := if m.victim.isSome then s.stopHeld c m.bank else s
  if m.victim.isSome && !(s1.bank c m.bank).quiet then s1
  else
    let s2 := s1.settle c m.bank
    s2.updCore c (fun k => { k with move := some { m with begun := true, at_ := (s2.core c).cyc } })

/-- The sequence of a core goes on, while no fast-class entry runs (R184, R187). -/
def moveStep (s : State) (c : Nat) : State :=
  match (s.core c).move with
  | none => s
  | some m => if (s.core c).fastRun then s else if m.begun then moveRow s c m else moveBegin s c m

/-- A bank is saved by the whole sequence without a thread that follows, one row after the other (R498). -/
def moveRows (s : State) (c : Nat) : Nat → State
  | 0 => s
  | n + 1 => moveRows (moveStep s c) c n

end Sys2Proof.Machine
end

