-- ==== Sys2Proof/Machine/Trace.lean ====
section
/-! DEFINITION. What a core's trace encoder emits and what its debug comparators do at each bundle (R519 to R527, R533 to
R536). -/

namespace Sys2Proof.Machine

/-! ## Packets (R521, R522) -/

/-- A varint: 7 bits per byte, the least significant group first (R521). -/
def varint (n : Nat) : Nat → List Byte
  | 0 => [BitVec.ofNat 8 (n % 128)]
  | k + 1 => if n < 128 then [BitVec.ofNat 8 n] else BitVec.ofNat 8 (n % 128 + 128) :: varint (n / 128) k

/-- The varint of an unsigned field. -/
def uvar (n : Nat) : List Byte := varint n 9

/-- The zigzag form of a signed value (R521). -/
def zigzag (v : Int) : Nat := if 0 ≤ v then v.toNat * 2 else (-v).toNat * 2 - 1

/-- The varint of a signed field. -/
def svar (v : Int) : List Byte := uvar (zigzag v)

/-- A packet's header byte. -/
def pktHead (typ sub : Nat) : Byte := BitVec.ofNat 8 (typ * 16 + sub)

/-- The low 48 bits of an address. -/
def a48 (w : Word) : Nat := w.toNat % 2 ^ 48

/-! ## Admission (R525) -/

/-- Whether a context may be traced, or, with `inv`, raise a debug event. -/
def admitted (s : State) (c bi : Nat) (inv : Bool) : Bool :=
  let b := s.bank c bi
  let a := R.TRC_ENC c
  (b.tenant ^^^ s.f a F.TRC_ENC_tval) &&& s.f a F.TRC_ENC_tmask = 0 &&
    authorised s (if b.psw.world then (if inv then 3 else 2) else if inv || b.psw.pl = 2 || b.psw.pl = 3 then 1 else 0)

/-! ## An encoder's buffer (R527, R529) -/

def State.enc (s : State) (c : Nat) : Enc := mget {} s.encs c
def State.setEnc (s : State) (c : Nat) (e : Enc) : State := { s with encs := mset s.encs c e }

/-- Bytes lost join a record of losses. -/
def Loss.gain (l : Loss) (n cause now : Nat) : Loss :=
  if n = 0 then l else { bytes := l.bytes + n, cause := l.cause ||| cause, first := if l.bytes = 0 then now % 2 ^ 48 else l.first }

/-- Two records of losses of one source, the older first. -/
def Loss.join (l m : Loss) : Loss := if m.bytes = 0 then l else { l.gain m.bytes m.cause m.first with cause := l.cause ||| m.cause }

/-- Every lost byte is added to TRC_LOST, and the source is TRC_STAT.last_src (R529, R539). -/
def State.lostBytes (s : State) (src n : Nat) : State :=
  if n = 0 then s else (s.incSat R.TRC_LOST F.TRC_LOST_bytes n).setF R.TRC_STAT F.TRC_STAT_last_src src

/-- The open chunk of an encoder is closed and waits for the Ledger (R527). -/
def State.closeChunk (s : State) (c : Nat) : State :=
  let e := s.enc c
  if e.buf = [] then s
  else { s.setEnc c { e with buf := [], sync := false, before := {} } with
         chunks := s.chunks ++ [{ src := c, prio := 0, bytes := e.buf, sync := e.sync, lost := e.before }] }

/-- The bytes of an encoder's 256 in use: those of its open chunk, and of its chunks that wait. -/
def encUsed (s : State) (c : Nat) : Nat :=
  (s.enc c).buf.length + ((s.chunks.filter (fun k => k.src = c)).map (fun k => k.bytes.length)).sum

/-- A packet enters an encoder's buffer on core edge `t`, where it fits; else it is lost, and the next packet is a SYNC with
reason 2 (R527, R529). `sync`: the packet is a SYNC or WAKE. A chunk is closed at 192 bytes. -/
def State.emitPkt (s : State) (c t : Nat) (bytes : List Byte) (sync : Bool) : State :=
  let e := s.enc c
  let n := bytes.length
  if 256 < encUsed s c + n then
    (s.setEnc c { e with lost := e.lost.gain n 1 s.ref, need := some 2 }).lostBytes c n
  else
    let fresh := sync && e.lost.bytes ≠ 0
    let s1 := if fresh then s.closeChunk c else s
    let e := s1.enc c
    let e1 : Enc := { e with
      buf := e.buf ++ bytes, sync := if e.buf = [] then sync else e.sync, base := max e.base t, lastAt := s.ref,
      since := (if sync then 0 else e.since) + n,
      before := if fresh then e.lost else e.before, lost := if fresh then {} else e.lost }
    let s2 := s1.setEnc c e1
    if 192 ≤ e1.buf.length then s2.closeChunk c else s2

/-- The fields of a SYNC for a bank at edge `t` (R521). -/
def syncFields (s : State) (c bi t : Nat) : List Byte :=
  wordBytes 6 (t % 2 ^ 48) ++ wordBytes 6 (s.ref % 2 ^ 48) ++ wordBytes 6 (a48 (s.bank c bi).pc) ++
    wordBytes 6 (s.enc c).lastD ++ wordBytes 4 (ctxWord s c bi)

/-- The SYNC, or the WAKE in its place, that a bank's first packet needs: after a sleep, after a loss, at a start, at the end
of an exclusion, at a bank switch, and periodically (R523, R524, R526, R529, R533). One that follows a loss begins a
chunk (log 57). -/
def State.lead (s : State) (c bi t : Nat) : State :=
  let e := s.enc c
  let spacing := max 1 (s.f R.TRC_CTL F.TRC_CTL_syncp) * 256
  let reason := match e.need with
    | some r => some r
    | none => if e.excl then some 5 else if (s.bank c bi).swIn then some 4 else if spacing ≤ e.since then some 0 else none
  let put := fun (bytes : List Byte) =>
    let s0 := if e.need = some 2 then s.closeChunk c else s
    let s1 := s0.setEnc c { s0.enc c with need := none, excl := false, wake := none, lastI := a48 (s.bank c bi).pc }
    s1.emitPkt c t bytes true
  match e.wake with
  | some d => put (pktHead 5 0 :: (wordBytes 6 (d % 2 ^ 48) ++ syncFields s c bi t))
  | none =>
    match reason with
    | some r => put (pktHead 3 r :: syncFields s c bi t)
    | none => s

/-- An EVENT packet (R521). -/
def State.emitEvent (s : State) (c t sub : Nat) : State :=
  s.emitPkt c t (pktHead 6 sub :: uvar (t - (s.enc c).base)) false

/-- The edges since an encoder's last packet. -/
def cycDelta (s : State) (c t : Nat) : List Byte := uvar (t - (s.enc c).base)

/-- A DATA packet: 2^`lg` bytes at an address (R522). -/
def State.emitData (s : State) (c t : Nat) (write : Bool) (lg : Nat) (va : Word) : State :=
  let e := s.enc c
  let d : Int := (a48 va : Int) - e.lastD
  (s.setEnc c { e with lastD := a48 va }).emitPkt c t (pktHead 2 ((if write then 1 else 0) + 2 * lg) :: (cycDelta s c t ++ svar d)) false

/-- A BR packet from a bundle to a target (R522). -/
def State.emitBr (s : State) (c t kind : Nat) (src target : Word) : State :=
  let e := s.enc c
  let d : Int := ((a48 src : Int) - e.lastI) / 4
  let g : Int := ((a48 target : Int) - a48 src) / 4
  (s.setEnc c { e with lastI := a48 target }).emitPkt c t (pktHead 1 kind :: (cycDelta s c t ++ svar d ++ svar g)) false

/-! ## The accesses of a bundle (R522, R535) -/

/-- One access: its address, the log2 of its size, whether it writes. -/
structure Acc where
  va : Word
  lg : Nat
  write : Bool
deriving DecidableEq, Repr

/-- The lines of a block operation. -/
def lineAccs (base : Word) (write : Bool) (offs : List Nat) : List Acc := offs.map (fun o => ⟨base + BitVec.ofNat 64 o, 6, write⟩)

/-- The accesses that a syllable makes, in order; a prefetch and a maintenance operation make none. -/
def accsOf (s : State) (o : Op) (x : Syl) : List Acc :=
  let b := preBank s x
  let ld := fun (lg : Nat) => [(⟨baseDisp s x, lg, false⟩ : Acc)]
  let st := fun (lg : Nat) => [(⟨baseDisp s x, lg, true⟩ : Acc)]
  let multiple := fun (load : Bool) =>
    let done := progDone b load
    (List.range (popcount (opD s x) 64 - done)).map (fun k => (⟨baseDisp s x + BitVec.ofNat 64 (8 * (done + k)), 3, !load⟩ : Acc))
  match o with
  | .ldb => ld 0
  | .ldbu => ld 0
  | .ldh => ld 1
  | .ldhu => ld 1
  | .ldw => ld 2
  | .ldwu => ld 2
  | .ldd => ld 3
  | .ldres => ld 3
  | .ldx => [⟨indexed s x, x.fn.toNat % 4, false⟩]
  | .stb => st 0
  | .sth => st 1
  | .stw => st 2
  | .std => st 3
  | .stx => [⟨indexed s x, x.fn.toNat % 4, true⟩]
  | .stcond => [⟨opA s x, 3, true⟩]
  | .ldm => multiple true
  | .stm => multiple false
  | .savel => lineAccs (baseDisp s x) true (lineOffs 0x40 5)
  | .saveh => lineAccs (baseDisp s x) true (lineOffs 0x40 7)
  | .restl => lineAccs (baseDisp s x) false (lineOffs 0x40 5)
  | .resth => lineAccs (baseDisp s x) false (lineOffs 0x40 7)
  | .wspill => lineAccs (baseDisp s x) true (lineOffs 0 4)
  | .wfill => lineAccs (baseDisp s x) false (lineOffs 0 4)
  | .rsspill => lineAccs (baseDisp s x) true (lineOffs 0 1)
  | .rsfill => lineAccs (baseDisp s x) false (lineOffs 0 1)
  | _ => []

/-- The accesses of a bundle: those of its LD syllable, then those of its ST syllable (R523). -/
def accsOfAll (s : State) (xs : List (Op × Syl)) : List Acc :=
  ((xs.filter (fun p => (opInfo p.1).1 = 4)) ++ (xs.filter (fun p => (opInfo p.1).1 = 5))).flatMap (fun p => accsOf s p.1 p.2)

/-- The BR kind of a syllable that branches, with whether it is taken (R521). -/
def brOf (s : State) (o : Op) (x : Syl) : Option (Nat × Bool) :=
  let v := opD s x
  match o with
  | .br => some (0, true)
  | .beqz => some (0, v = 0)
  | .bnez => some (0, v ≠ 0)
  | .bltz => some (0, decide (v.toInt < 0))
  | .bgez => some (0, decide (0 ≤ v.toInt))
  | .bgtz => some (0, decide (0 < v.toInt))
  | .blez => some (0, decide (v.toInt ≤ 0))
  | .bbs => some (0, v.getLsbD x.a.toNat)
  | .bbc => some (0, !v.getLsbD x.a.toNat)
  | .jmp => some (1, true)
  | .call => some (2, true)
  | .callw => some (2, true)
  | .callr => some (2, true)
  | .callwr => some (2, true)
  | .ret => some (3, true)
  | .retw => some (3, true)
  | .rett => some (4, true)
  | _ => none

/-! ## Start and stop (R524) -/

def encState (s : State) (c : Nat) : Nat := s.f (R.TRC_ENC c) F.TRC_ENC_state

/-- The state an encoder's table gives for start and stop events, with the SYNC or EVENT it makes: 1 a SYNC with reason 1, 2
an EVENT 1. -/
def encNext (st : Nat) (start stop rearm : Bool) : Nat × Nat :=
  match st with
  | 1 => if start && !stop then (2, 1) else (1, 0)
  | 2 => if stop then (3, 2) else (2, 0)
  | 3 => if start && !stop && rearm then (2, 1) else (3, 0)
  | n => (n, 0)

/-- Start and stop events reach an encoder on edge `t`; whether it raises the trigger (R524). -/
def State.encStep (s : State) (c t : Nat) (start stop : Bool) : State × Bool :=
  let a := R.TRC_ENC c
  let st := encState s c
  let r := encNext st start stop (s.on a F.TRC_ENC_rearm)
  if r.1 = st then (s, false)
  else
    let s1 := s.setF a F.TRC_ENC_state r.1
    if r.2 = 1 then (s1.setEnc c { s1.enc c with need := some 1 }, false)
    else ((if (s1.enc c).excl then s1 else s1.emitEvent c t 1), s1.on a F.TRC_ENC_evtrig)

/-- The trigger reaches an encoder: it starts or stops those that it is selected for, and an encoder that goes on tracing
tells that it was seen. -/
def State.triggerOne (s : State) (c : Nat) : State × Bool :=
  let a := R.TRC_ENC c
  let t := (s.core c).cyc
  let r := s.encStep c t (s.f a F.TRC_ENC_start = 2) (s.f a F.TRC_ENC_stop = 2)
  if encState s c = 2 ∧ encState r.1 c = 2 ∧ !(r.1.enc c).excl then (r.1.emitEvent c t 2, r.2) else r

/-- The trigger reaches every encoder; whether any raises it again by stopping. -/
def State.triggerAll (s : State) : State × Bool :=
  (List.range 128).foldl (fun (r : State × Bool) c =>
    let q := r.1.triggerOne c
    (q.1, r.2 || q.2)) (s, false)

/-- The trigger is raised (R524): an encoder that it stops may raise it once more, which stops none further. -/
def State.trigger (s : State) : State :=
  let r := s.triggerAll
  if r.2 then r.1.triggerAll.1 else r.1

/-- Whether an address lies in a range of a core's TRC_ page, its bounds included. -/
def inRange (s : State) (pc lo hi : Nat) : Bool := decide (s.f lo F.TRC_RNG0LO_addr ≤ pc / 4) && decide (pc / 4 ≤ s.f hi F.TRC_RNG0LO_addr)

/-- A bundle that issues is a start or stop event where it lies in the range selected (R524). -/
def State.rangeStep (s : State) (c bi t : Nat) : State :=
  let a := R.TRC_ENC c
  let pc := a48 (s.bank c bi).pc
  let start := s.f a F.TRC_ENC_start = 1 && inRange s pc (R.TRC_RNG0LO c) (R.TRC_RNG0HI c)
  let stop := s.f a F.TRC_ENC_stop = 1 && inRange s pc (R.TRC_RNG1LO c) (R.TRC_RNG1HI c)
  if !start && !stop then s
  else
    let r := s.encStep c t start stop
    if r.2 then r.1.trigger else r.1

/-! ## A bundle's packets -/

/-- The DATA packets of accesses, in order. -/
def State.emitAccs (s : State) (c t : Nat) (l : List Acc) : State := l.foldl (fun s a => s.emitData c t a.write a.lg a.va) s

/-- What an encoder makes of a bundle that commits on edge `t`, seen before its effect (R523 to R526): the SYNC it needs and
its DATA. -/
def State.traceBefore (s : State) (c bi t : Nat) (accs : List Acc) : State :=
  if !domOn s 217 then s
  else
    let s1 := if encState s c = 0 then s else s.rangeStep c bi t
    if encState s1 c ≠ 2 then s1
    else if !admitted s1 c bi false then s1.setEnc c { s1.enc c with excl := true }
    else
      let s2 := s1.lead c bi t
      if s2.on (R.TRC_ENC c) F.TRC_ENC_data then s2.emitAccs c t accs else s2

/-- The BR packet of a taken branch, from the bundle at `pc` to `target`, by a context that was admitted (R523). -/
def State.traceBranch (s : State) (c t : Nat) (seen : Bool) (kind : Nat) (pc target : Word) : State :=
  if domOn s 217 && encState s c = 2 && seen && !(s.enc c).excl && (decide (4 ≤ kind) || s.on (R.TRC_ENC c) F.TRC_ENC_br) then
    s.emitBr c t kind pc target
  else s

/-- The BR packet of kind 5 of an entry, on its accept edge (R522, R523). -/
def State.traceEntry (s : State) (c bi t : Nat) (seen : Bool) (pc : Word) : State :=
  s.traceBranch c t seen 5 pc (s.bank c bi).pc

/-- A core's clock stops: an encoder in TRACE tells the final cycle count (R533): 0 idle gating, 1 power-down. -/
def State.traceSleep (s : State) (c sub : Nat) : State :=
  if domOn s 217 && encState s c = 2 then
    let t := (s.core c).cyc
    let s1 := if (s.enc c).excl then s else s.emitPkt c t (pktHead 4 sub :: wordBytes 6 (t % 2 ^ 48)) false
    s1.setEnc c { s1.enc c with slept := some s.ref }
  else s

/-- A core's clock runs again (R533). -/
def State.traceWake (s : State) (c : Nat) : State :=
  let e := s.enc c
  match e.slept with
  | some r => s.setEnc c { e with slept := none, wake := if e.excl then none else some (s.ref - r) }
  | none => s

/-! ## Retired bundles in the counters (R541, R545) -/

/-- The number of a bundle's syllables that meet a condition. -/
def sylCount (xs : List (Op × Syl)) (p : Op → Bool) : Nat := (xs.filter (fun q => p q.1)).length

/-- Whether an access crosses a line boundary (R221). -/
def Acc.split (a : Acc) : Bool := decide (64 < a.va.toNat % 64 + 2 ^ a.lg)

/-- The events of a bundle that retires (R545). -/
def State.retire (s : State) (c bi : Nat) (xs : List (Op × Syl)) (accs : List Acc) : State :=
  let n := fun (s : State) (code : Nat) (p : Op → Bool) => s.ev c bi code (sylCount xs p)
  let s1 := n (n (n (n s 0x07 (fun _ => true)) 0x10 (fun o => (opInfo o).1 = 4)) 0x11 (fun o => (opInfo o).1 = 5)) 0x27 (fun o => o = .ldres)
  let s2 := n (n (n s1 0x2A (fun o => o = .div || o = .divu)) 0x2B (fun o => o = .decadd || o = .decsub)) 0x2C (fun o => o = .fdiv || o = .fsqrt)
  let s3 := n (n (n s2 0x2D (fun o => (opInfo o).1 = 2)) 0x2E (fun o => (opInfo o).1 = 3)) 0x37 (fun o => o = .waitev)
  (n (n s3 0x39 (fun o => o = .pref)) 0x3B (fun o => o = .dclean || o = .dinval || o = .iclean)).ev c bi 0x3C ((accs.filter Acc.split).length)

/-- The samples of a core that wait see a bundle of their bank issue on edge `t`: within three edges it is skid, later it
gives the PC (R555). -/
def Hit.see (h : Hit) (s : State) (c bi t : Nat) : Hit :=
  if h.bank ≠ some bi || h.pc.isSome || decide (t ≤ h.at_) then h
  else if t ≤ h.at_ + 3 then { h with skid := h.skid + 1 }
  else { h with pc := some (s.bank c bi).pc, hidden := pmuHidden s (s.bank c bi).psw.world }

/-- Every sample of the core that waits sees the bundle at a bank's PC. -/
def State.skid (s : State) (c bi t : Nat) : State :=
  let x := mget {} s.pmu.smp c
  if x.hits = [] then s
  else { s with pmu := { s.pmu with smp := mset s.pmu.smp c { x with hits := x.hits.map (fun h => h.see s c bi t) } } }

/-! ## Debug events (R535, R536) -/

/-- Whether an access overlaps the watched doubleword, of a kind that is watched. -/
def wpMatches (s : State) (c : Nat) (a : Acc) : Bool :=
  let d := R.TRC_DCFG c
  let dw := s.f (R.TRC_WP c) F.TRC_WP_addr
  s.on d F.TRC_DCFG_wp_en && (if a.write then s.on d F.TRC_DCFG_wp_wr else s.on d F.TRC_DCFG_wp_rd) &&
    decide (a48 a.va / 8 ≤ dw) && decide (dw ≤ (a48 a.va + 2 ^ a.lg - 1) / 8)

/-- The code of the debug event that is due at a bank's bundle: 1, 2 a breakpoint, 3 the watchpoint, 4 a step, 5 a halt
(R535). -/
def eventCode (s : State) (c bi : Nat) (accs : List Acc) : Option Nat :=
  let b := s.bank c bi
  let d := R.TRC_DCFG c
  let pc := a48 b.pc / 4
  let mode := s.f d F.TRC_DCFG_mode
  if !domOn s 217 || mode = 0 || mode = 3 || !admitted s c bi true then none
  else if s.dbg.hcmd.any (fun h => h.1 = clusterOf c && b.thread = some h.2) && b.depth = 0 then some 5
  else if s.on d F.TRC_DCFG_bp0_en && s.f (R.TRC_BP0 c) F.TRC_BP0_addr = pc then some 1
  else if s.on d F.TRC_DCFG_bp1_en && s.f (R.TRC_BP1 c) F.TRC_BP1_addr = pc then some 2
  else if accs.any (fun a => wpMatches s c a) then some 3
  else if (s.f d F.TRC_DCFG_step).testBit bi && b.depth = 0 && !b.stepOff then some 4
  else if b.dbgPend && mode = 2 && b.depth = 0 then some 0
  else none

/-- Whether the scheduler may evict a bank for a halt: at entry depth 0, not at world 1, not the fast bank (R183, R186). -/
def haltable (b : Bank) : Bool := b.thread.isSome && b.depth = 0 && !b.psw.world && !b.psw.fast

/-- The thread of a bank is evicted with a debug hold, at the bundle it has not issued (R184, R536). -/
def State.haltBank (s : State) (c bi code : Nat) : State :=
  match (s.bank c bi).thread with
  | none => s
  | some n => (s.updBank c bi (fun b => { b with dbgPend := false })).startMove c { bank := bi, victim := some n, w := (s.bank c bi).psw.wres - 1, halt := some code }

/-- What a debug event does in place of the bundle on edge `t` (R536): none where the bundle goes on. -/
def debugEvent (c bi : Nat) (accs : List Acc) (t : Nat) (s : State) : Option (State → State) :=
  match eventCode s c bi accs with
  | none => none
  | some code =>
    let b := s.bank c bi
    let d := R.TRC_DCFG c
    let note := fun (s : State) =>
      if encState s c = 2 then (s.lead c bi t).emitEvent c t (if code = 5 then 4 else 3) else s
    if s.f d F.TRC_DCFG_mode = 1 && code ≠ 5 && code ≠ 0 then
      some (fun s => (note s).accept c bi (if code = 3 then t + 2 else t) (.entry 19 (if s.on d F.TRC_DCFG_lvl then 2 else 1) (BitVec.ofNat 64 code) 0 0))
    else if haltable b then some (fun s => (note s).haltBank c bi code)
    else none

/-- A mode 2 event at entry depth 1 or more waits until the bank reaches depth 0 (R536). -/
def State.eventWaits (s : State) (c bi : Nat) (accs : List Acc) : State :=
  match eventCode s c bi accs with
  | none => s
  | some _ =>
    if s.f (R.TRC_DCFG c) F.TRC_DCFG_mode = 2 then s.updBank c bi (fun b => { b with dbgPend := true }) else s

/-! ## What surrounds a bundle -/

/-- What observes a bundle on edge `t` before its effect. -/
def observe (c bi : Nat) (xs : List (Op × Syl)) (t : Nat) (s : State) : State :=
  let accs := accsOfAll s xs
  ((s.skid c bi t).eventWaits c bi accs).traceBefore c bi t accs

/-- Where a core goes on after a branch of a bank: at the bank's PC, or, when its fast bank has gone idle, at the RUN bank's. -/
def branchTarget (s : State) (c bi : Nat) : Word :=
  let k := s.core c
  if bi = 7 && (k.bank 7).psw.fast && !k.fastRun then
    match issuer k with
    | some r => (k.bank r).pc
    | none => (k.bank bi).pc
  else (k.bank bi).pc

/-- Whether an operation is a long one (R98, R120). -/
def isLong (o : Op) : Bool := o = .div || o = .divu || o = .decadd || o = .decsub || o = .fdiv || o = .fsqrt

/-- A constrained sequence over a bundle that has committed: the bundles since its LDRES (R107). -/
def consNext (cons : Option Nat) (xs : List (Op × Syl)) : Option Nat :=
  if xs.any (fun p => p.1 = .ldres) then cons
  else if xs.any (fun p => isMemUnit p.1 || isLong p.1 || p.1 = .waitev) then none
  else
    match cons with
    | some n => if n < 8 then some (n + 1) else none
    | none => none

/-- What observes it after its effect: `s` is the state before it, `r` after it. -/
def observed (c bi : Nat) (xs : List (Op × Syl)) (t : Nat) (s r : State) : State :=
  let pc := (s.bank c bi).pc
  let r1 := match xs.findSome? (fun p => brOf s p.1 p.2) with
    | some (kind, true) => r.traceBranch c t (admitted s c bi false) kind pc (branchTarget r c bi)
    | _ => r
  let rett := xs.any (fun p => p.1 = .rett)
  (r1.updBank c bi (fun b => { b with cons := consNext b.cons xs, swIn := false, stepOff := rett && b.depth = 0 })).retire c bi xs (accsOfAll s xs)

/-- The hooks of a bank's bundle. -/
def hooksOf (c bi : Nat) (xs : List (Op × Syl)) : Hooks :=
  { event := fun t s => debugEvent c bi (accsOfAll s xs) t s
    before := observe c bi xs
    after := observed c bi xs }

end Sys2Proof.Machine
end

