-- ==== Sys2Proof/Machine/Bundle.lean ====
section
/-! DEFINITION. A bundle at issue with what surrounds it: its fetch, debug events, trace and counters (R133, R142, R203,
R206, R535). -/

namespace Sys2Proof.Machine

/-- The bundle reaches issue. -/
def issueBundle (sem : Op → Sem) (c bi n : Nat) (xs : List (Op × Syl)) (pre : Option Exc) (s : State) : State :=
  issue sem c bi n xs pre (hooksOf c bi) s

/-- What the fetch of a bundle's bytes answers: the place and type of its bytes, a TLB miss, or an exception (R199, R203,
R206). -/
inductive FetchRes where
  | ok (pa : Nat) (mt : MType) (ent : Option TlbEnt)
  | miss
  | exc (e : Exc)

/-- The fetch check of a bundle's address: device type only within the boot ROM (R203); a decode class takes cause 8. -/
def fetchAt (s : State) (c : Nat) (b : Bank) : FetchRes :=
  match translateFor s c b b.pc .fetch with
  | .miss => .miss
  | .fault f => .exc (excTr 4 f b.pc false false)
  | .ok pa mt dec ent =>
    if dec then .exc (.entry 8 1 b.pc (syndrome 7 false 0xC false false false) 0)
    else if mt = .device && addrClass pa ≠ .rom then .exc (.entry 4 1 b.pc (syndrome 7 false 6 false false false) 0)
    else .ok pa (effType mt pa) ent

/-- The 32-bit words of a line from word `i` to the end of its 32-byte block. -/
def blockTail (d : Line) (i : Nat) : List (BitVec 32) :=
  (List.range (8 - i % 8)).map (fun k => BitVec.ofNat 32 (lineField d (4 * (i + k)) 4))

/-- The line that holds a bundle's bytes, by its 32-byte block: as the fetch buffer holds it, else as the L1I does (R132, R154). -/
def fetchLine (s : State) (c bi pa : Nat) (mt : MType) : Option Line :=
  match (s.bank c bi).fbuf.find? (fun p => p.1 = pa / 32) with
  | some p => some p.2
  | none => if mt = .wb && l1iOn s c then (findLine (s.core c).l1i (pa / 64)).map (·.data) else none

/-- The fetch buffer and the stages before issue hold a bundle's block and the one after it, where the L1I has that one (R132, R154;
log 72). -/
def State.holdBlocks (s : State) (c bi pa : Nat) (mt : MType) (d : Line) : State :=
  let next := if (pa + 32) / 4096 = pa / 4096 then ((fetchLine s c bi (pa + 32) mt).map (fun x => ((pa + 32) / 32, x))).toList else []
  s.updBank c bi (fun b => { b with fbuf := (pa / 32, d) :: next })

/-- A fetch miss starts, and the bundle waits for its block: a write-back line takes one of the L1I's two miss registers; a
non-cacheable line of DRAM is requested (R133, R243, R245, R251). -/
def State.startFetch (s : State) (c bi pa : Nat) (mt : MType) : State :=
  let k := s.core c
  let b := s.bank c bi
  let wait := fun (s : State) => s.updBank c bi (fun b => { b with fwait := some pa })
  if mt ≠ .wb then
    if addrClass pa = .dram then
      ((wait s).sendRead c (pa / 64 * 64) 64 .nc b.tenant b.psw.world).updBank c bi
        (fun b => { b with fsent := some (coreTag s c, rtoLate s (tileRouter (clusterOf c))) })
    else wait s
  else if k.imshr.any (fun m => m.line = pa / 64) then wait s
  else if k.imshr.length < 2 then
    (wait (s.setCore c { k with imshr := k.imshr ++ [{ line := pa / 64, write := false, fetch := true, tenant := b.tenant, closed := b.psw.world }] })).ev c bi 0x15 1
  else s

/-- Whether the bundle at the fast bank's PC lies in the fast-vector buffer, which serves it without a translation (R151). -/
def fastFetch (s : State) (c bi : Nat) : Option (Nat × Line) :=
  let b := s.bank c bi
  match (s.core c).fastBuf with
  | some p => if bi = 7 && b.psw.fast && b.fbuf = [p] && b.pc.toNat / 32 = (vector s b b.psw.pl 31).toNat / 32 then some (p.1 * 32 + b.pc.toNat % 32, p.2) else none
  | none => none

/-- The bundle whose bytes a line holds at an address is decoded and issued; it lies in one 32-byte block, and so in one page (R51). -/
def issueLine (sem : Op → Sem) (c bi pa : Nat) (d : Line) (s : State) : State :=
  match decodeBundle c bi ((s.bank c bi).pc.toNat % 32 / 4) (blockTail d (pa % 64 / 4)) with
  | .format => issueBundle sem c bi 0 [] (some (excS 0)) s
  | .illegal => issueBundle sem c bi 0 [] (some (excS 1)) s
  | .ok xs n => issueBundle sem c bi n xs none s

/-- The bundle at a bank's PC is fetched, decoded and issued; one that is held goes on. -/
def fetchIssue (sem : Op → Sem) (c bi : Nat) (s : State) : State :=
  let b := s.bank c bi
  if !canIssue s c bi then s
  else if b.held.isSome then issueBundle sem c bi 0 [] none s
  else
    match fastFetch s c bi with
    | some p => issueLine sem c bi p.1 p.2 s
    | none =>
      match fetchAt s c b with
      | .miss => s.startWalk c bi b.pc .fetch false
      | .exc e => issueBundle sem c bi 0 [] (some e) s
      | .ok pa mt ent =>
        match fetchLine s c bi pa mt with
        | none => s.startFetch c bi pa mt
        | some d =>
          let s1 := s.updCore c (fun k =>
            { k with l1i := touchLine k.l1i (pa / 64), itlb := (ent.map (touchTlb k.itlb)).getD k.itlb })
          issueLine sem c bi pa d (s1.holdBlocks c bi pa mt d)

end Sys2Proof.Machine
end

