-- ==== Sys2Proof/Machine/MulDiv.lean ====
section
/-! DEFINITION. The M unit: multiply, divide, packed decimal and the moves of its registers (R75 to R77, R89 to R102). -/

namespace Sys2Proof.Machine

/-- The effect that starts a result with a latency. -/
def fly (x : Syl) (f : Flight) : SylRes := onBank x (fun b => b.fly1 f)

/-- MUL (R89): latency 3. -/
def semMul : Sem := fun s t x =>
  fly x { kind := .mul, due := t + 3, mw := [(x.d.toNat % 4, opA s x * opB s x)] }

/-- MAC (R89, R90): the accumulator is read at issue. -/
def semMac : Sem := fun s t x =>
  fly x { kind := .mul, due := t + 3, mw := [(x.d.toNat % 4, (preBank s x).m (x.d.toNat % 4) + opA s x * opB s x)] }

/-- MULW (R89): the signed 128-bit product. -/
def semMulw : Sem := fun s t x =>
  let p : BitVec 128 := (opA s x).signExtend 128 * (opB s x).signExtend 128
  fly x { kind := .mul, due := t + 4, mw := [(x.d.toNat % 4, p.extractLsb' 0 64), (x.d.toNat % 4 + 1, p.extractLsb' 64 64)] }

/-- MULWU (R89): the unsigned 128-bit product. -/
def semMulwu : Sem := fun s t x =>
  let p : BitVec 128 := (opA s x).setWidth 128 * (opB s x).setWidth 128
  fly x { kind := .mul, due := t + 4, mw := [(x.d.toNat % 4, p.extractLsb' 0 64), (x.d.toNat % 4 + 1, p.extractLsb' 64 64)] }

/-- MOVM: latency 1 (R75). -/
def semMovm : Sem := fun s _ x => writeD s x x.d ((preBank s x).m x.a.toNat)

/-- MOVTM: latency 1 (R75). -/
def semMovtm : Sem := fun s t x =>
  fly x { kind := .mul, due := t + 1, mw := [(x.a.toNat, opD s x)] }

/-! ## Divide (R91 to R94) -/

/-- The magnitude of a dividend or divisor. -/
def divMag (signed : Bool) (a : Word) : Nat := if signed then a.toInt.natAbs else a.toNat

/-- The quotient and remainder (R91, R92, R93): truncated toward zero, the remainder with the sign of the dividend. -/
def divQuot (signed : Bool) (a b : Word) : Word :=
  if b = 0 then BitVec.allOnes 64
  else if signed then BitVec.ofInt 64 (Int.tdiv a.toInt b.toInt) else a / b

def divRem (signed : Bool) (a b : Word) : Word :=
  if b = 0 then a
  else if signed then BitVec.ofInt 64 (Int.tmod a.toInt b.toInt) else a % b

/-- The latency of a divide (R92, R94). -/
def divLatency (signed : Bool) (a b : Word) : Nat :=
  if b = 0 then 6
  else
    let n := clz64 (BitVec.ofNat 64 (divMag signed a))
    let d := clz64 (BitVec.ofNat 64 (divMag signed b))
    6 + ((d + 1 - n) + 3) / 4

/-- −2^63 ÷ −1 (R93). -/
def divOver (signed : Bool) (a b : Word) : Bool := signed && a = 0x8000000000000000#64 && b = BitVec.allOnes 64

/-- A divide in flight: DVS.busy is 1 from issue; at its end QT, RM and DVS are written together (R91 to R94, R100). -/
def divFlight (b : Bank) (signed : Bool) (t : Nat) (x y : Word) : Flight :=
  { kind := .div, due := t + divLatency signed x y,
    mw := [(4, divQuot signed x y), (5, divRem signed x y)],
    dvs := (if y = 0 then 2 else 0) + (if divOver signed x y then 4 else 0),
    fault := if y = 0 && bit b.dvs 8 then some 1 else none, addr := b.pc }

/-- An M-unit long operation starts: DVS.busy reads 1 until it ends (R77, R98). -/
def startLong (x : Syl) (f : Flight) : SylRes := onBank x (fun b => { b.fly1 f with dvs := setBit b.dvs 0 true })

def semDiv : Sem := fun s t x => startLong x (divFlight (preBank s x) true t (opA s x) (opB s x))
def semDivu : Sem := fun s t x => startLong x (divFlight (preBank s x) false t (opA s x) (opB s x))

/-! ## Packed decimal (R95 to R97) -/

/-- Digit `i` of a packed-decimal word. -/
def digit (x : Word) (i : Nat) : Nat := fld x (4 * i) 4

/-- Whether the low `n` digits are all 0 to 9. -/
def digitsOk (x : Word) : Nat → Bool
  | 0 => true
  | n + 1 => decide (digit x n ≤ 9) && digitsOk x n

/-- The value of the low `n` digits. -/
def decVal (x : Word) : Nat → Nat
  | 0 => 0
  | n + 1 => digit x n * 10 ^ n + decVal x n

/-- The low `n` decimal digits of a number, packed. -/
def decPack (v : Nat) : Nat → Nat
  | 0 => 0
  | n + 1 => (v / 10 ^ n % 10) * 16 ^ n + decPack v n

/-- Significant digit positions of a word, of its low `n`. -/
def sigDigits (x : Word) : Nat → Nat
  | 0 => 0
  | n + 1 => if digit x n ≠ 0 then n + 1 else sigDigits x n

/-- The latency of a decimal operation (R97). -/
def decLatency (a b : Word) : Nat :=
  if digitsOk a 16 && digitsOk b 16 then 10 + 2 * max (sigDigits a 16) (sigDigits b 16) else 10

/-- A decimal operation in flight (R95, R96, R99): invalid digits set dinv and raise cause 0x2. -/
def decFlight (b : Bank) (sub : Bool) (t p : Nat) (x y : Word) : Flight :=
  let m := decVal x 16
  let n := decVal y 16
  if digitsOk x 16 && digitsOk y 16 then
    { kind := .dec, due := t + decLatency x y,
      pw := some (p, BitVec.ofNat 64 (decPack (if sub then (m + 10 ^ 16 - n) % 10 ^ 16 else (m + n) % 10 ^ 16) 16)),
      dcy := some (if sub then decide (m < n) else decide (10 ^ 16 ≤ m + n)) }
  else
    { kind := .dec, due := t + decLatency x y, pw := none, hold := p, dvs := 8, fault := some 2, addr := b.pc }

def semDecadd : Sem := fun s t x =>
  startLong x (decFlight (preBank s x) false t ((preBank s x).nm x.d) (opA s x) (opB s x))
def semDecsub : Sem := fun s t x =>
  startLong x (decFlight (preBank s x) true t ((preBank s x).nm x.d) (opA s x) (opB s x))

end Sys2Proof.Machine
end

