-- ==== Sys2Proof/Machine/FloatUnit.lean ====
section
/-! DEFINITION. The instructions of the F unit (R114 to R131): what they compute, when it lands, and the flags. -/

namespace Sys2Proof.Machine

/-- A result of the F unit in flight: rd and the flags land at the end of the latency (R118, R119, R125). -/
def ffly (s : State) (x : Syl) (k : FlightKind) (due : Nat) (r : Word × Nat) : SylRes :=
  let p := (preBank s x).nm x.d
  fly x { kind := k, due := due, pw := some (p, r.1), fl := r.2 }

/-- The rounding attribute in force at issue (R121). -/
def rnd (s : State) (x : Syl) : Rnd := rndOf x.fn.toNat (preBank s x).fpc

/-- A two-operand operation on every lane. -/
def fop2 (s : State) (x : Syl) (o : FFmt → Rnd → FVal → FVal → Nat × Nat) : Word × Nat :=
  lanes x.fn.toNat (fun f sel =>
    o f (rnd s x) (funpack f (sel (opA s x).toNat)) (funpack f (sel (opB s x).toNat)))

/-- A three-operand operation on every lane; rd is the addend (R115). -/
def fop3 (s : State) (x : Syl) (np nc : Bool) : Word × Nat :=
  lanes x.fn.toNat (fun f sel =>
    ffma f (rnd s x) np nc (funpack f (sel (opA s x).toNat)) (funpack f (sel (opB s x).toNat)) (funpack f (sel (opD s x).toNat)))

/-- The format of a scalar operation. -/
def sfmt (x : Syl) : FFmt := ffmt (x.fn.toNat % 4)

def fA (s : State) (x : Syl) : FVal := funpack (sfmt x) (opA s x).toNat
def fB (s : State) (x : Syl) : FVal := funpack (sfmt x) (opB s x).toNat

/-- The latency of FDIV and FSQRT by format (R118). -/
def flongLatency (fn : Nat) : Nat := if fn % 4 = 0 then 9 else if fn % 4 = 2 then 20 else 12

def semFadd : Sem := fun s t x => ffly s x .fp (t + 4) (fop2 s x fadd)
def semFsub : Sem := fun s t x => ffly s x .fp (t + 4) (fop2 s x fsub)
def semFmul : Sem := fun s t x => ffly s x .fp (t + 4) (fop2 s x fmul)
def semFma : Sem := fun s t x => ffly s x .fp (t + 5) (fop3 s x false false)
def semFms : Sem := fun s t x => ffly s x .fp (t + 5) (fop3 s x false true)
def semFnma : Sem := fun s t x => ffly s x .fp (t + 5) (fop3 s x true false)

/-- FDIV: a long operation (R120). -/
def semFdiv : Sem := fun s t x =>
  let r := fdiv (sfmt x) (rnd s x) (fA s x) (fB s x)
  ffly s x .fpLong (t + flongLatency x.fn.toNat) (BitVec.ofNat 64 r.1, r.2)

/-- FSQRT: a long operation (R120). -/
def semFsqrt : Sem := fun s t x =>
  let r := fsqrt (sfmt x) (rnd s x) (fA s x)
  ffly s x .fpLong (t + flongLatency x.fn.toNat) (BitVec.ofNat 64 r.1, r.2)

/-- FMIN and FMAX on every lane (R117). -/
def fmm (s : State) (x : Syl) (mx : Bool) : Word × Nat :=
  lanes x.fn.toNat (fun f sel =>
    fminmax f mx (funpack f (sel (opA s x).toNat)) (funpack f (sel (opB s x).toNat)) (sel (opA s x).toNat) (sel (opB s x).toNat))

def semFmin : Sem := fun s t x => ffly s x .fp (t + 2) (fmm s x false)
def semFmax : Sem := fun s t x => ffly s x .fp (t + 2) (fmm s x true)

/-- An operation on the sign bit of every lane: the sign of the result from those of ra and rb (R115). -/
def fsign (s : State) (x : Syl) (o : Bool → Bool → Bool) : Word × Nat :=
  lanes x.fn.toNat (fun f sel =>
    let k := f.mb + f.eb
    let a := sel (opA s x).toNat % 2 ^ f.width
    let b := sel (opB s x).toNat % 2 ^ f.width
    (a % 2 ^ k + (if o (decide (2 ^ k ≤ a)) (decide (2 ^ k ≤ b)) then 2 ^ k else 0), 0))

def semFabs : Sem := fun s t x => ffly s x .fp (t + 1) (fsign s x (fun _ _ => false))
def semFneg : Sem := fun s t x => ffly s x .fp (t + 1) (fsign s x (fun a _ => !a))
def semFsgnj : Sem := fun s t x => ffly s x .fp (t + 1) (fsign s x (fun _ b => b))

def semFclass : Sem := fun s t x => ffly s x .fp (t + 2) (BitVec.ofNat 64 (fclass (sfmt x) (fA s x)), 0)

/-- A comparison writes 1 or 0 (R117). -/
def fcmpRes (s : State) (t : Nat) (x : Syl) (rel : Int → Bool) (sig : Bool) : SylRes :=
  let r := fcompare rel sig (fA s x) (fB s x)
  ffly s x .fp (t + 2) (BitVec.ofNat 64 r.1, r.2)

def semFcmpeq : Sem := fun s t x => fcmpRes s t x (fun c => c = 0) false
def semFcmplt : Sem := fun s t x => fcmpRes s t x (fun c => decide (c < 0)) true
def semFcmple : Sem := fun s t x => fcmpRes s t x (fun c => decide (c ≤ 0)) true
def semFcmpun : Sem := fun s t x =>
  ffly s x .fp (t + 2) (boolW ((fA s x).isNan || (fB s x).isNan), if anySnan [fA s x, fB s x] then fNV else 0)

/-- FCVT: from fn[1:0] to fn[3:2], always by FPC.rm (R115, R121). -/
def semFcvt : Sem := fun s t x =>
  let r := fcvt (sfmt x) (ffmt (x.fn.toNat / 4)) (Rnd.ofRm (fld (preBank s x).fpc 0 3)) (fA s x)
  ffly s x .fp (t + 4) (BitVec.ofNat 64 r.1, r.2)

def semFcvti : Sem := fun s t x => ffly s x .fp (t + 4) (fcvti (rnd s x) true (fA s x))
def semFcvtiu : Sem := fun s t x => ffly s x .fp (t + 4) (fcvti (rnd s x) false (fA s x))

def semFcvtf : Sem := fun s t x =>
  let r := fcvtf (sfmt x) (rnd s x) (opA s x).toInt
  ffly s x .fp (t + 4) (BitVec.ofNat 64 r.1, r.2)

def semFcvtfu : Sem := fun s t x =>
  let r := fcvtf (sfmt x) (rnd s x) (opA s x).toNat
  ffly s x .fp (t + 4) (BitVec.ofNat 64 r.1, r.2)

end Sys2Proof.Machine
end

