-- ==== Sys2Proof/Machine/Isa.lean ====
section
/-! DEFINITION. One meaning per instruction, as a bundle that holds it alone, and BUNDLE_ISSUE for any bundle (R53, R54,
R135). -/

namespace Sys2Proof.Machine

/-- What each instruction does. -/
def semOf : Op → Sem
  | .nop => semNop
  | .add => semAdd
  | .sub => semSub
  | .addc => semAddc
  | .subc => semSubc
  | .and => semAnd
  | .or => semOr
  | .xor => semXor
  | .andn => semAndn
  | .orn => semOrn
  | .shl => semShl
  | .shr => semShr
  | .sar => semSar
  | .rol => semRol
  | .cmpeq => semCmpeq
  | .cmpne => semCmpne
  | .cmplt => semCmplt
  | .cmpltu => semCmpltu
  | .cmple => semCmple
  | .cmpleu => semCmpleu
  | .min => semMin
  | .max => semMax
  | .minu => semMinu
  | .maxu => semMaxu
  | .clz => semClz
  | .ctz => semCtz
  | .popc => semPopc
  | .bswap => semBswap
  | .sext => semSext
  | .zext => semZext
  | .addi => semAddi
  | .andi => semAndi
  | .ori => semOri
  | .xori => semXori
  | .shli => semShli
  | .shri => semShri
  | .sari => semSari
  | .roli => semRoli
  | .cmpeqi => semCmpeqi
  | .cmpnei => semCmpnei
  | .cmplti => semCmplti
  | .cmpltui => semCmpltui
  | .movi => semMovi
  | .movhi => semMovhi
  | .addpc => semAddpc
  | .mfsr => semMfsr
  | .mtsr => semMtsr
  | .mul => semMul
  | .mac => semMac
  | .mulw => semMulw
  | .mulwu => semMulwu
  | .div => semDiv
  | .divu => semDivu
  | .decadd => semDecadd
  | .decsub => semDecsub
  | .movm => semMovm
  | .movtm => semMovtm
  | .fadd => semFadd
  | .fsub => semFsub
  | .fmul => semFmul
  | .fdiv => semFdiv
  | .fsqrt => semFsqrt
  | .fma => semFma
  | .fms => semFms
  | .fnma => semFnma
  | .fmin => semFmin
  | .fmax => semFmax
  | .fabs => semFabs
  | .fneg => semFneg
  | .fsgnj => semFsgnj
  | .fclass => semFclass
  | .fcmpeq => semFcmpeq
  | .fcmplt => semFcmplt
  | .fcmple => semFcmple
  | .fcmpun => semFcmpun
  | .fcvt => semFcvt
  | .fcvti => semFcvti
  | .fcvtiu => semFcvtiu
  | .fcvtf => semFcvtf
  | .fcvtfu => semFcvtfu
  | .ldb => semLdb
  | .ldbu => semLdbu
  | .ldh => semLdh
  | .ldhu => semLdhu
  | .ldw => semLdw
  | .ldwu => semLdwu
  | .ldd => semLdd
  | .ldres => semLdres
  | .ldm => semLdm
  | .restl => semRestl
  | .resth => semResth
  | .pref => semPref
  | .wfill => semWfill
  | .rsfill => semRsfill
  | .ldx => semLdx
  | .stb => semStb
  | .sth => semSth
  | .stw => semStw
  | .std => semStd
  | .stx => semStx
  | .stcond => semStcond
  | .stm => semStm
  | .savel => semSavel
  | .saveh => semSaveh
  | .wspill => semWspill
  | .rsspill => semRsspill
  | .barl => semBarl
  | .bars => semBars
  | .bara => semBara
  | .barx => semBarx
  | .dclean => semDclean
  | .dinval => semDinval
  | .iclean => semIclean
  | .br => semBr
  | .call => semCall
  | .callw => semCallw
  | .jmp => semJmp
  | .callr => semCallr
  | .callwr => semCallwr
  | .beqz => semBeqz
  | .bnez => semBnez
  | .bltz => semBltz
  | .bgez => semBgez
  | .bgtz => semBgtz
  | .blez => semBlez
  | .bbs => semBbs
  | .bbc => semBbc
  | .ret => semRet
  | .retw => semRetw
  | .rett => semRett
  | .rspush => semRspush
  | .rspop => semRspop
  | .trap => semTrap
  | .hcall => semHcall
  | .mcall => semMcall
  | .waitev => semWaitev
  | .isync => semIsync
  | .pflush => semPflush
  | .pbar => semPbar

/-- A bundle that holds one instruction reaches issue in a bank (R135). -/
def runOne (o : Op) (sem : Sem) (x : Syl) (s : State) : Host.Outcome State Fault Refusal :=
  if x.core < 128 ∧ x.bank < 8 then
    .next (issueBundle (fun _ => sem) x.core x.bank (if x.ext then 2 else 1) [(o, x)] none s)
  else .fault .noSuchUnit

/-- NOP (R83). -/
def execNop (x : Syl) (s : State) : Host.Outcome State Fault Refusal := runOne .nop semNop x s
/-- ADD (R83). -/
def execAdd (x : Syl) (s : State) : Host.Outcome State Fault Refusal := runOne .add semAdd x s
/-- SUB (R83). -/
def execSub (x : Syl) (s : State) : Host.Outcome State Fault Refusal := runOne .sub semSub x s
/-- ADDC (R84). -/
def execAddc (x : Syl) (s : State) : Host.Outcome State Fault Refusal := runOne .addc semAddc x s
/-- SUBC (R84). -/
def execSubc (x : Syl) (s : State) : Host.Outcome State Fault Refusal := runOne .subc semSubc x s
/-- AND (R83). -/
def execAnd (x : Syl) (s : State) : Host.Outcome State Fault Refusal := runOne .and semAnd x s
/-- OR (R83). -/
def execOr (x : Syl) (s : State) : Host.Outcome State Fault Refusal := runOne .or semOr x s
/-- XOR (R83). -/
def execXor (x : Syl) (s : State) : Host.Outcome State Fault Refusal := runOne .xor semXor x s
/-- ANDN (R83). -/
def execAndn (x : Syl) (s : State) : Host.Outcome State Fault Refusal := runOne .andn semAndn x s
/-- ORN (R83). -/
def execOrn (x : Syl) (s : State) : Host.Outcome State Fault Refusal := runOne .orn semOrn x s
/-- SHL (R83). -/
def execShl (x : Syl) (s : State) : Host.Outcome State Fault Refusal := runOne .shl semShl x s
/-- SHR (R83). -/
def execShr (x : Syl) (s : State) : Host.Outcome State Fault Refusal := runOne .shr semShr x s
/-- SAR (R83). -/
def execSar (x : Syl) (s : State) : Host.Outcome State Fault Refusal := runOne .sar semSar x s
/-- ROL (R83). -/
def execRol (x : Syl) (s : State) : Host.Outcome State Fault Refusal := runOne .rol semRol x s
/-- CMPEQ (R83). -/
def execCmpeq (x : Syl) (s : State) : Host.Outcome State Fault Refusal := runOne .cmpeq semCmpeq x s
/-- CMPNE (R83). -/
def execCmpne (x : Syl) (s : State) : Host.Outcome State Fault Refusal := runOne .cmpne semCmpne x s
/-- CMPLT (R83). -/
def execCmplt (x : Syl) (s : State) : Host.Outcome State Fault Refusal := runOne .cmplt semCmplt x s
/-- CMPLTU (R83). -/
def execCmpltu (x : Syl) (s : State) : Host.Outcome State Fault Refusal := runOne .cmpltu semCmpltu x s
/-- CMPLE (R83). -/
def execCmple (x : Syl) (s : State) : Host.Outcome State Fault Refusal := runOne .cmple semCmple x s
/-- CMPLEU (R83). -/
def execCmpleu (x : Syl) (s : State) : Host.Outcome State Fault Refusal := runOne .cmpleu semCmpleu x s
/-- MIN (R83). -/
def execMin (x : Syl) (s : State) : Host.Outcome State Fault Refusal := runOne .min semMin x s
/-- MAX (R83). -/
def execMax (x : Syl) (s : State) : Host.Outcome State Fault Refusal := runOne .max semMax x s
/-- MINU (R83). -/
def execMinu (x : Syl) (s : State) : Host.Outcome State Fault Refusal := runOne .minu semMinu x s
/-- MAXU (R83). -/
def execMaxu (x : Syl) (s : State) : Host.Outcome State Fault Refusal := runOne .maxu semMaxu x s
/-- CLZ (R83). -/
def execClz (x : Syl) (s : State) : Host.Outcome State Fault Refusal := runOne .clz semClz x s
/-- CTZ (R83). -/
def execCtz (x : Syl) (s : State) : Host.Outcome State Fault Refusal := runOne .ctz semCtz x s
/-- POPC (R83). -/
def execPopc (x : Syl) (s : State) : Host.Outcome State Fault Refusal := runOne .popc semPopc x s
/-- BSWAP (R83). -/
def execBswap (x : Syl) (s : State) : Host.Outcome State Fault Refusal := runOne .bswap semBswap x s
/-- SEXT (R83). -/
def execSext (x : Syl) (s : State) : Host.Outcome State Fault Refusal := runOne .sext semSext x s
/-- ZEXT (R83). -/
def execZext (x : Syl) (s : State) : Host.Outcome State Fault Refusal := runOne .zext semZext x s
/-- ADDI (R83). -/
def execAddi (x : Syl) (s : State) : Host.Outcome State Fault Refusal := runOne .addi semAddi x s
/-- ANDI (R83). -/
def execAndi (x : Syl) (s : State) : Host.Outcome State Fault Refusal := runOne .andi semAndi x s
/-- ORI (R83). -/
def execOri (x : Syl) (s : State) : Host.Outcome State Fault Refusal := runOne .ori semOri x s
/-- XORI (R83). -/
def execXori (x : Syl) (s : State) : Host.Outcome State Fault Refusal := runOne .xori semXori x s
/-- SHLI (R83). -/
def execShli (x : Syl) (s : State) : Host.Outcome State Fault Refusal := runOne .shli semShli x s
/-- SHRI (R83). -/
def execShri (x : Syl) (s : State) : Host.Outcome State Fault Refusal := runOne .shri semShri x s
/-- SARI (R83). -/
def execSari (x : Syl) (s : State) : Host.Outcome State Fault Refusal := runOne .sari semSari x s
/-- ROLI (R83). -/
def execRoli (x : Syl) (s : State) : Host.Outcome State Fault Refusal := runOne .roli semRoli x s
/-- CMPEQI (R83). -/
def execCmpeqi (x : Syl) (s : State) : Host.Outcome State Fault Refusal := runOne .cmpeqi semCmpeqi x s
/-- CMPNEI (R83). -/
def execCmpnei (x : Syl) (s : State) : Host.Outcome State Fault Refusal := runOne .cmpnei semCmpnei x s
/-- CMPLTI (R83). -/
def execCmplti (x : Syl) (s : State) : Host.Outcome State Fault Refusal := runOne .cmplti semCmplti x s
/-- CMPLTUI (R83). -/
def execCmpltui (x : Syl) (s : State) : Host.Outcome State Fault Refusal := runOne .cmpltui semCmpltui x s
/-- MOVI (R83). -/
def execMovi (x : Syl) (s : State) : Host.Outcome State Fault Refusal := runOne .movi semMovi x s
/-- MOVHI (R57). -/
def execMovhi (x : Syl) (s : State) : Host.Outcome State Fault Refusal := runOne .movhi semMovhi x s
/-- ADDPC (R83). -/
def execAddpc (x : Syl) (s : State) : Host.Outcome State Fault Refusal := runOne .addpc semAddpc x s
/-- MFSR (R70). -/
def execMfsr (x : Syl) (s : State) : Host.Outcome State Fault Refusal := runOne .mfsr semMfsr x s
/-- MTSR (R70). -/
def execMtsr (x : Syl) (s : State) : Host.Outcome State Fault Refusal := runOne .mtsr semMtsr x s
/-- MUL (R89). -/
def execMul (x : Syl) (s : State) : Host.Outcome State Fault Refusal := runOne .mul semMul x s
/-- MAC (R90). -/
def execMac (x : Syl) (s : State) : Host.Outcome State Fault Refusal := runOne .mac semMac x s
/-- MULW (R89). -/
def execMulw (x : Syl) (s : State) : Host.Outcome State Fault Refusal := runOne .mulw semMulw x s
/-- MULWU (R89). -/
def execMulwu (x : Syl) (s : State) : Host.Outcome State Fault Refusal := runOne .mulwu semMulwu x s
/-- DIV (R91). -/
def execDiv (x : Syl) (s : State) : Host.Outcome State Fault Refusal := runOne .div semDiv x s
/-- DIVU (R91). -/
def execDivu (x : Syl) (s : State) : Host.Outcome State Fault Refusal := runOne .divu semDivu x s
/-- DECADD (R95). -/
def execDecadd (x : Syl) (s : State) : Host.Outcome State Fault Refusal := runOne .decadd semDecadd x s
/-- DECSUB (R95). -/
def execDecsub (x : Syl) (s : State) : Host.Outcome State Fault Refusal := runOne .decsub semDecsub x s
/-- MOVM (R75). -/
def execMovm (x : Syl) (s : State) : Host.Outcome State Fault Refusal := runOne .movm semMovm x s
/-- MOVTM (R75). -/
def execMovtm (x : Syl) (s : State) : Host.Outcome State Fault Refusal := runOne .movtm semMovtm x s
/-- FADD (R115). -/
def execFadd (x : Syl) (s : State) : Host.Outcome State Fault Refusal := runOne .fadd semFadd x s
/-- FSUB (R115). -/
def execFsub (x : Syl) (s : State) : Host.Outcome State Fault Refusal := runOne .fsub semFsub x s
/-- FMUL (R115). -/
def execFmul (x : Syl) (s : State) : Host.Outcome State Fault Refusal := runOne .fmul semFmul x s
/-- FDIV (R120). -/
def execFdiv (x : Syl) (s : State) : Host.Outcome State Fault Refusal := runOne .fdiv semFdiv x s
/-- FSQRT (R120). -/
def execFsqrt (x : Syl) (s : State) : Host.Outcome State Fault Refusal := runOne .fsqrt semFsqrt x s
/-- FMA (R115). -/
def execFma (x : Syl) (s : State) : Host.Outcome State Fault Refusal := runOne .fma semFma x s
/-- FMS (R115). -/
def execFms (x : Syl) (s : State) : Host.Outcome State Fault Refusal := runOne .fms semFms x s
/-- FNMA (R115). -/
def execFnma (x : Syl) (s : State) : Host.Outcome State Fault Refusal := runOne .fnma semFnma x s
/-- FMIN (R117). -/
def execFmin (x : Syl) (s : State) : Host.Outcome State Fault Refusal := runOne .fmin semFmin x s
/-- FMAX (R117). -/
def execFmax (x : Syl) (s : State) : Host.Outcome State Fault Refusal := runOne .fmax semFmax x s
/-- FABS (R115). -/
def execFabs (x : Syl) (s : State) : Host.Outcome State Fault Refusal := runOne .fabs semFabs x s
/-- FNEG (R115). -/
def execFneg (x : Syl) (s : State) : Host.Outcome State Fault Refusal := runOne .fneg semFneg x s
/-- FSGNJ (R115). -/
def execFsgnj (x : Syl) (s : State) : Host.Outcome State Fault Refusal := runOne .fsgnj semFsgnj x s
/-- FCLASS (R116). -/
def execFclass (x : Syl) (s : State) : Host.Outcome State Fault Refusal := runOne .fclass semFclass x s
/-- FCMPEQ (R117). -/
def execFcmpeq (x : Syl) (s : State) : Host.Outcome State Fault Refusal := runOne .fcmpeq semFcmpeq x s
/-- FCMPLT (R117). -/
def execFcmplt (x : Syl) (s : State) : Host.Outcome State Fault Refusal := runOne .fcmplt semFcmplt x s
/-- FCMPLE (R117). -/
def execFcmple (x : Syl) (s : State) : Host.Outcome State Fault Refusal := runOne .fcmple semFcmple x s
/-- FCMPUN (R117). -/
def execFcmpun (x : Syl) (s : State) : Host.Outcome State Fault Refusal := runOne .fcmpun semFcmpun x s
/-- FCVT (R128). -/
def execFcvt (x : Syl) (s : State) : Host.Outcome State Fault Refusal := runOne .fcvt semFcvt x s
/-- FCVTI (R129). -/
def execFcvti (x : Syl) (s : State) : Host.Outcome State Fault Refusal := runOne .fcvti semFcvti x s
/-- FCVTIU (R129). -/
def execFcvtiu (x : Syl) (s : State) : Host.Outcome State Fault Refusal := runOne .fcvtiu semFcvtiu x s
/-- FCVTF (R115). -/
def execFcvtf (x : Syl) (s : State) : Host.Outcome State Fault Refusal := runOne .fcvtf semFcvtf x s
/-- FCVTFU (R115). -/
def execFcvtfu (x : Syl) (s : State) : Host.Outcome State Fault Refusal := runOne .fcvtfu semFcvtfu x s
/-- LDB (R86). -/
def execLdb (x : Syl) (s : State) : Host.Outcome State Fault Refusal := runOne .ldb semLdb x s
/-- LDBU (R86). -/
def execLdbu (x : Syl) (s : State) : Host.Outcome State Fault Refusal := runOne .ldbu semLdbu x s
/-- LDH (R86). -/
def execLdh (x : Syl) (s : State) : Host.Outcome State Fault Refusal := runOne .ldh semLdh x s
/-- LDHU (R86). -/
def execLdhu (x : Syl) (s : State) : Host.Outcome State Fault Refusal := runOne .ldhu semLdhu x s
/-- LDW (R86). -/
def execLdw (x : Syl) (s : State) : Host.Outcome State Fault Refusal := runOne .ldw semLdw x s
/-- LDWU (R86). -/
def execLdwu (x : Syl) (s : State) : Host.Outcome State Fault Refusal := runOne .ldwu semLdwu x s
/-- LDD (R86). -/
def execLdd (x : Syl) (s : State) : Host.Outcome State Fault Refusal := runOne .ldd semLdd x s
/-- LDRES (R103). -/
def execLdres (x : Syl) (s : State) : Host.Outcome State Fault Refusal := runOne .ldres semLdres x s
/-- LDM (R179). -/
def execLdm (x : Syl) (s : State) : Host.Outcome State Fault Refusal := runOne .ldm semLdm x s
/-- RESTL (R176). -/
def execRestl (x : Syl) (s : State) : Host.Outcome State Fault Refusal := runOne .restl semRestl x s
/-- RESTH (R176). -/
def execResth (x : Syl) (s : State) : Host.Outcome State Fault Refusal := runOne .resth semResth x s
/-- PREF (R88). -/
def execPref (x : Syl) (s : State) : Host.Outcome State Fault Refusal := runOne .pref semPref x s
/-- WFILL (R67). -/
def execWfill (x : Syl) (s : State) : Host.Outcome State Fault Refusal := runOne .wfill semWfill x s
/-- RSFILL (R80). -/
def execRsfill (x : Syl) (s : State) : Host.Outcome State Fault Refusal := runOne .rsfill semRsfill x s
/-- LDX (R86). -/
def execLdx (x : Syl) (s : State) : Host.Outcome State Fault Refusal := runOne .ldx semLdx x s
/-- STB (R86). -/
def execStb (x : Syl) (s : State) : Host.Outcome State Fault Refusal := runOne .stb semStb x s
/-- STH (R86). -/
def execSth (x : Syl) (s : State) : Host.Outcome State Fault Refusal := runOne .sth semSth x s
/-- STW (R86). -/
def execStw (x : Syl) (s : State) : Host.Outcome State Fault Refusal := runOne .stw semStw x s
/-- STD (R86). -/
def execStd (x : Syl) (s : State) : Host.Outcome State Fault Refusal := runOne .std semStd x s
/-- STX (R86). -/
def execStx (x : Syl) (s : State) : Host.Outcome State Fault Refusal := runOne .stx semStx x s
/-- STCOND (R104). -/
def execStcond (x : Syl) (s : State) : Host.Outcome State Fault Refusal := runOne .stcond semStcond x s
/-- STM (R179). -/
def execStm (x : Syl) (s : State) : Host.Outcome State Fault Refusal := runOne .stm semStm x s
/-- SAVEL (R176). -/
def execSavel (x : Syl) (s : State) : Host.Outcome State Fault Refusal := runOne .savel semSavel x s
/-- SAVEH (R176). -/
def execSaveh (x : Syl) (s : State) : Host.Outcome State Fault Refusal := runOne .saveh semSaveh x s
/-- WSPILL (R67). -/
def execWspill (x : Syl) (s : State) : Host.Outcome State Fault Refusal := runOne .wspill semWspill x s
/-- RSSPILL (R80). -/
def execRsspill (x : Syl) (s : State) : Host.Outcome State Fault Refusal := runOne .rsspill semRsspill x s
/-- BARL (R108). -/
def execBarl (x : Syl) (s : State) : Host.Outcome State Fault Refusal := runOne .barl semBarl x s
/-- BARS (R108). -/
def execBars (x : Syl) (s : State) : Host.Outcome State Fault Refusal := runOne .bars semBars x s
/-- BARA (R108). -/
def execBara (x : Syl) (s : State) : Host.Outcome State Fault Refusal := runOne .bara semBara x s
/-- BARX (R101). -/
def execBarx (x : Syl) (s : State) : Host.Outcome State Fault Refusal := runOne .barx semBarx x s
/-- DCLEAN (R264). -/
def execDclean (x : Syl) (s : State) : Host.Outcome State Fault Refusal := runOne .dclean semDclean x s
/-- DINVAL (R264). -/
def execDinval (x : Syl) (s : State) : Host.Outcome State Fault Refusal := runOne .dinval semDinval x s
/-- ICLEAN (R264). -/
def execIclean (x : Syl) (s : State) : Host.Outcome State Fault Refusal := runOne .iclean semIclean x s
/-- BR (R139). -/
def execBr (x : Syl) (s : State) : Host.Outcome State Fault Refusal := runOne .br semBr x s
/-- CALL (R78). -/
def execCall (x : Syl) (s : State) : Host.Outcome State Fault Refusal := runOne .call semCall x s
/-- CALLW (R63). -/
def execCallw (x : Syl) (s : State) : Host.Outcome State Fault Refusal := runOne .callw semCallw x s
/-- JMP (R55). -/
def execJmp (x : Syl) (s : State) : Host.Outcome State Fault Refusal := runOne .jmp semJmp x s
/-- CALLR (R78). -/
def execCallr (x : Syl) (s : State) : Host.Outcome State Fault Refusal := runOne .callr semCallr x s
/-- CALLWR (R63). -/
def execCallwr (x : Syl) (s : State) : Host.Outcome State Fault Refusal := runOne .callwr semCallwr x s
/-- BEQZ (R139). -/
def execBeqz (x : Syl) (s : State) : Host.Outcome State Fault Refusal := runOne .beqz semBeqz x s
/-- BNEZ (R139). -/
def execBnez (x : Syl) (s : State) : Host.Outcome State Fault Refusal := runOne .bnez semBnez x s
/-- BLTZ (R139). -/
def execBltz (x : Syl) (s : State) : Host.Outcome State Fault Refusal := runOne .bltz semBltz x s
/-- BGEZ (R139). -/
def execBgez (x : Syl) (s : State) : Host.Outcome State Fault Refusal := runOne .bgez semBgez x s
/-- BGTZ (R139). -/
def execBgtz (x : Syl) (s : State) : Host.Outcome State Fault Refusal := runOne .bgtz semBgtz x s
/-- BLEZ (R139). -/
def execBlez (x : Syl) (s : State) : Host.Outcome State Fault Refusal := runOne .blez semBlez x s
/-- BBS (R139). -/
def execBbs (x : Syl) (s : State) : Host.Outcome State Fault Refusal := runOne .bbs semBbs x s
/-- BBC (R139). -/
def execBbc (x : Syl) (s : State) : Host.Outcome State Fault Refusal := runOne .bbc semBbc x s
/-- RET (R78). -/
def execRet (x : Syl) (s : State) : Host.Outcome State Fault Refusal := runOne .ret semRet x s
/-- RETW (R63). -/
def execRetw (x : Syl) (s : State) : Host.Outcome State Fault Refusal := runOne .retw semRetw x s
/-- RETT (R68). -/
def execRett (x : Syl) (s : State) : Host.Outcome State Fault Refusal := runOne .rett semRett x s
/-- RSPUSH (R78). -/
def execRspush (x : Syl) (s : State) : Host.Outcome State Fault Refusal := runOne .rspush semRspush x s
/-- RSPOP (R78). -/
def execRspop (x : Syl) (s : State) : Host.Outcome State Fault Refusal := runOne .rspop semRspop x s
/-- TRAP (R142). -/
def execTrap (x : Syl) (s : State) : Host.Outcome State Fault Refusal := runOne .trap semTrap x s
/-- HCALL (R142). -/
def execHcall (x : Syl) (s : State) : Host.Outcome State Fault Refusal := runOne .hcall semHcall x s
/-- MCALL (R441). -/
def execMcall (x : Syl) (s : State) : Host.Outcome State Fault Refusal := runOne .mcall semMcall x s
/-- WAITEV (R164). -/
def execWaitev (x : Syl) (s : State) : Host.Outcome State Fault Refusal := runOne .waitev semWaitev x s
/-- ISYNC (R112). -/
def execIsync (x : Syl) (s : State) : Host.Outcome State Fault Refusal := runOne .isync semIsync x s
/-- PFLUSH (R113). -/
def execPflush (x : Syl) (s : State) : Host.Outcome State Fault Refusal := runOne .pflush semPflush x s
/-- PBAR (R113). -/
def execPbar (x : Syl) (s : State) : Host.Outcome State Fault Refusal := runOne .pbar semPbar x s

/-- BUNDLE_ISSUE (R51, R52, R54, R135, R584): the bundle at a bank's PC is fetched, decoded and issued as one bundle. -/
def execBundleIssue (core bank : Nat) (s : State) : Host.Outcome State Fault Refusal :=
  if core < 128 ∧ bank < 8 then .next (fetchIssue semOf core bank s) else .fault .noSuchUnit

end Sys2Proof.Machine
end

