-- ==== Sys2Proof/Machine/CoreEvents.lean ====
section
/-! DEFINITION. Events inside a core: results that land, loads and stores that complete, barriers, entries, fetch misses
and the walk (R76, R87, R94, R97, R107 to R110, R119, R120, R133, R147 to R152, R207 to R210, R214 to R225). -/

namespace Sys2Proof.Machine

/-- A command of one core. -/
def atCore (core : Nat) (s : State) (f : State → State) : Host.Outcome State Fault Refusal :=
  atRunning 128 core (coreClocked s core) s f

/-- A command of one bank of a core. -/
def atBank (core bank : Nat) (s : State) (f : State → State) : Host.Outcome State Fault Refusal :=
  if bank < 8 then atRunning 128 core (coreClocked s core) s f else .fault .noSuchUnit

/-! ## Results that land -/

/-- The next edge on which a result of a kind lands in a bank. -/
def nextDue (b : Bank) (p : FlightKind → Bool) : Option Nat := ((b.fly.filter (fun f => p f.kind)).head?).map (fun f => f.due)

/-- The core runs on to the edge on which the bank's next result of a kind lands; with none in flight nothing happens. -/
def State.landNext (s : State) (c bi : Nat) (p : FlightKind → Bool) : State :=
  match nextDue (s.bank c bi) p with
  | none => s
  | some e => s.landAt c e

/-- M_RESULT_WRITE (R76). -/
def execMResultWrite (core bank : Nat) (s : State) : Host.Outcome State Fault Refusal :=
  atBank core bank s (fun s => s.landNext core bank (fun k => k = .mul))
/-- DIVIDE_COMPLETE (R94). -/
def execDivideComplete (core bank : Nat) (s : State) : Host.Outcome State Fault Refusal :=
  atBank core bank s (fun s => s.landNext core bank (fun k => k = .div))
/-- DECIMAL_COMPLETE (R97). -/
def execDecimalComplete (core bank : Nat) (s : State) : Host.Outcome State Fault Refusal :=
  atBank core bank s (fun s => s.landNext core bank (fun k => k = .dec))
/-- F_RESULT_WRITE (R119). -/
def execFResultWrite (core bank : Nat) (s : State) : Host.Outcome State Fault Refusal :=
  atBank core bank s (fun s => s.landNext core bank (fun k => k = .fp))
/-- F_LONG_OPERATION_COMPLETE (R120). -/
def execFLongOperationComplete (core bank : Nat) (s : State) : Host.Outcome State Fault Refusal :=
  atBank core bank s (fun s => s.landNext core bank (fun k => k = .fpLong))

/-! ## Answers to a core's own requests -/

/-- What an answer packet says (R276, R278, R279). -/
def ansOf (p : Pkt) : Option MemAns :=
  if p.net = 1 then
    (if p.typ = 0 ∨ p.typ = 1 then some (.data 0) else if p.typ = 3 then some (.data p.data.toNat)
     else if p.typ = 4 then some .decodeError else if p.typ = 7 then some .fenced else if p.typ = 0xA then some .poison else none)
  else if p.net = 3 && p.typ = 0 then some (if p.poison then .poison else .data p.data.toNat)
  else none

/-- The answer that waits for a core's cluster under a tag. -/
def findAns (s : State) (c tag : Nat) : Option Pkt :=
  s.inbox.find? (fun p => p.dst = clusterUnit (clusterOf c) && p.tag = tag && (p.net = 1 || p.net = 3) && (ansOf p).isSome)

/-- A complete load lands: the destination is released (R87); what a held bundle's LDM loads lands when the bundle commits (R52), and
a write into g1 to g6 is one that a capture waits for (R147). -/
def State.landLoad (s : State) (c bi : Nat) (l : LoadEnt) : State :=
  let e := (s.core c).cyc
  s.updBank c bi (fun b =>
    let y := { b with loads := b.loads.filter (fun x => x.seq ≠ l.seq) }
    if b.held.any (fun h => decide (h.seq ≤ l.seq)) then y.gotLoad { kind := .load, due := e, pw := some (l.phys, l.value) }
    else { y.wphys l.phys l.value with gLand := if 1 ≤ l.phys ∧ l.phys ≤ 6 then max b.gLand e else b.gLand })

/-- The held bundle of a bank goes on on this edge, all that it waited for having come; the bundle after a device load issues 5 [core]
later (R153, R177, R218). -/
def State.resumeHeld (s : State) (c bi : Nat) (dev : Bool) : State :=
  match (s.bank c bi).held with
  | none => s
  | some w =>
    let k := (s.core c).cyc
    let s1 := resume semOf c bi k w (hooksOf c bi) s
    if dev && (s1.bank c bi).held.isNone then s1.updBank c bi (fun b => { b with ready := max b.ready (k + 5) }) else s1

/-- A failed load leaves the bank, which takes the cause-8 fault at the load's bundle, or is frozen (R43, R218, R223,
R291; log 15). -/
def State.failLoad (s : State) (c bi : Nat) (l : LoadEnt) (timeout : Bool) : State :=
  (s.updBank c bi (fun b => { b with loads := b.loads.filter (fun x => x.seq ≠ l.seq), pc := l.pc })).accept c bi (s.core c).cyc
    (badLoadExc l timeout)

/-- An answer to a non-cacheable or device load (R43, R218, R291, R583, R587): data completes it, and on that edge a device load's bundle
commits; a decode error faults; Poison freezes the bank, and so does Fenced for a normal load. -/
def State.answerLoad (s : State) (c bi : Nat) (l : LoadEnt) (a n : Nat) (ans : MemAns) : State :=
  match ans with
  | .data v =>
    let l' := l.bring a n v
    let s1 := s.updBank c bi (fun b => b.setLoad l')
    if !l'.complete then s1
    else if l.mt = .device then s1.resumeHeld c bi true
    else if l.blk ≠ 0 then s1
    else s1.landLoad c bi l'
  | .decodeError => s.failLoad c bi l false
  | .poison => s.freezeByTransaction c bi
  | .fenced => if l.mt = .device then s else s.freezeByTransaction c bi
  | .timeout => if l.mt = .device then s else s.freezeByTransaction c bi

/-- The half whose distributor owns a source: 0 West, 1 East, 2 both, 3 neither (R319). -/
def icuOwner (n : Nat) : Nat :=
  let lt := fun (b : Bool) => if b then 0 else 1
  if n < 512 then 2
  else if n < 552 then lt (decide (n < 532))
  else if n < 576 then lt (decide (n < 564))
  else if n < 592 then lt (decide (n < 584))
  else if n < 656 then lt (decide (n < 624))
  else if n < 664 then lt (decide (n < 660))
  else if n < 672 then lt (decide (n < 668))
  else if n < 702 then routerHalf (n - 672)
  else if n < 718 then clusterHalf (n - 702)
  else if n < 734 then clusterHalf (n - 718)
  else if n < 736 then n - 734
  else if n < 741 then 1
  else if n < 743 then 0
  else if n < 768 then 3
  else if n < 896 then clusterHalf (clusterOf (n - 768))
  else if n < 904 then 0
  else if n < 912 then 1
  else if n < 968 then 0
  else 1

/-- Whether a distributor has an entry for a source (R335). -/
def icuHas (half n : Nat) : Bool := icuOwner n = 2 || icuOwner n = half

/-- Whether a core is the checker of a formed pair (R490). -/
def isChecker (s : State) (c : Nat) : Bool := (s.f (pairReg c) F.SAFE_PAIR_formed).testBit (c % 8 / 2) && c % 2 = 1

/-- The core whose per-core register an offset names, if it is in a block of a pair's core (R490). -/
def perCore (r : RegAt) : Option (Nat × Nat) :=
  match r.kind with
  | .sched => if decide (0x40 ≤ r.off) && decide (r.off < 0x60) then some (8 * r.inst + r.idx1, 4) else none
  | .cache => if decide (0x40 ≤ r.off) && decide (r.off < 0x60) && decide (r.inst < 16) then some (8 * r.inst + r.idx1, 4) else none
  | .mmu => some (r.inst, 0x10000)
  | _ => none

/-- What a read of a register returns beyond its stored value: SCHED_TIME counts [ref] edges (R189), MMU_MROOT reads as
zero from the Open world (R228), MEQ_QP_SEQ gives the next numbers (R378), the grants and the lifecycle are those in
force (R463, R467), entries that a block does not hold read as zero (R335, R492), a powered-down Ledger reads as zero
(R534), and a checker's blocks read as its leader's (R490). -/
def regView (s : State) (closed : Bool) (a : Nat) : Word :=
  match findReg a with
  | none => 0
  | some r =>
    let a := match perCore r with
      | some (c, w) => if isChecker s c then a - w else a
      | none => a
    if r.kind = .sched && r.off = 0 then BitVec.ofNat 64 (s.ref % 2 ^ 48)
    else if r.kind = .mmu && r.off = 0x18 && !closed then 0
    else if r.kind = .meqt && r.d.name = "MEQ_QP_SEQ" then
      (let q := mget {} s.qps (8 * r.inst + r.idx1)
       BitVec.ofNat 64 ((q.consumed + 1) % 2 ^ 32 + (q.posted + 1) % 2 ^ 32 * 2 ^ 32))
    else if r.kind = .sec && r.off = 0x21C4 then setFld (s.reg a) 4 4 (grantBits s)
    else if r.kind = .seccw && r.off = 4 then setFld (s.reg a) 1 2 s.sec.life
    else if r.kind = .icu && decide (0x1000 ≤ r.off) && !icuHas r.inst r.idx1 then 0
    else if r.kind = .safe && decide (0x200 ≤ r.off) && decide (r.off < 0x240) && clusterHalf r.idx1 ≠ r.inst then 0
    else if r.kind = .trc && s.f (R.PWR_DOM 217) F.PWR_DOM_state ≠ 2 then 0
    else s.reg a

/-- Doubleword `i` of the ring-state entry of a queue pair (R356). -/
def ringWord (s : State) (t q i : Nat) : Nat :=
  let x := mget {} s.qps (8 * t + q)
  let a := R.MEQ_QP_STAT t q
  let v := s.on a F.MEQ_QP_STAT_valid
  let n := fun (k : Nat) => if v then k % 2 ^ 32 else 0
  match i with
  | 0 => n x.consumed + n x.doorbell * 2 ^ 32
  | 1 => n x.posted + n x.completed * 2 ^ 32
  | 2 => n x.acked + n x.faultAsn * 2 ^ 32
  | 3 => s.f a F.MEQ_QP_STAT_state + (if v then 8 else 0) + (if x.aborted then 16 else 0) + x.faultStatus % 256 * 256 + x.lastReason % 256 * 65536
  | 4 => if v then x.drops % 2 ^ 48 else 0
  | 5 => n x.maccRx
  | _ => 0

/-- `n` bytes of the ring-state pages (R44, R356). -/
def ringRead (s : State) (pa n : Nat) : Nat :=
  let o := pa - 0xE1000000000
  ringWord s (o / 0x1000) (o % 0x1000 / 0x200) (o % 0x200 / 8) / 2 ^ (8 * (o % 8)) % 2 ^ (8 * n)

/-- `n` bytes read from the configuration space: the addressed bytes of each register, and 0 where none stands (R13,
R14). -/
def configRead (s : State) (closed : Bool) (pa n : Nat) : Nat :=
  let a := pa - 0xF0000000000
  if n = 8 then
    match findReg a with
    | some r => if r.d.bytes = 8 then (regView s closed a).toNat else (regView s closed a).toNat % 2 ^ 32 + (regView s closed (a + 4)).toNat % 2 ^ 32 * 2 ^ 32
    | none => (regView s closed (a + 4)).toNat % 2 ^ 32 * 2 ^ 32
  else
    match findReg a with
    | some _ => (regView s closed a).toNat % 2 ^ (8 * n)
    | none =>
      match findReg (a / 8 * 8) with
      | some r => if r.d.bytes = 8 then (regView s closed (a / 8 * 8)).toNat / 2 ^ (8 * (a % 8)) % 2 ^ (8 * n)
                  else (regView s closed (a / 4 * 4)).toNat / 2 ^ (8 * (a % 4)) % 2 ^ (8 * n)
      | none => (regView s closed (a / 4 * 4)).toNat / 2 ^ (8 * (a % 4)) % 2 ^ (8 * n)

/-- What a device answers to a read of `n` bytes, where the part holds it: registers, ring-state pages, a doorbell page
(zeros, log 45), the SEC_CW_ registers and the Closed SRAM (R41, R438); none: what stands there is outside the model. -/
def devRead (s : State) (closed : Bool) (pa n : Nat) : Option Nat :=
  match addrClass pa with
  | .config => some (configRead s closed pa n)
  | .doorbell => some 0
  | .ringState => some (ringRead s pa n)
  | .closed =>
    if pa < 0xF8000010000 then some (configRead s closed pa n)
    else if decide (0xF8000100000 ≤ pa) && decide (pa < 0xF8000140000) then some (memRead s.mem pa n)
    else none
  | _ => none

/-- A read of the xSPI window is answered: the interface's last read has ended with data or without (R320). -/
def State.flashEnd (s : State) (ans : MemAns) : State :=
  { s with boot := { s.boot with xbad := match ans with
                                  | .data _ => false
                                  | .decodeError => true
                                  | _ => s.boot.xbad } }

/-- The request of a cluster's access that has reached the unit it names, outside DRAM space. -/
def reachedReq (s : State) (u tag : Nat) : Option Pkt :=
  s.inbox.find? (fun p => p.net = 0 && p.src = u && p.tag = tag && addrClass p.pa ≠ .dram)

/-- Whether a write of the same register block reached its unit before a read (R47; log 5). -/
def writeBefore (s : State) (p : Pkt) : Bool :=
  (s.inbox.takeWhile (fun q => q ≠ p)).any (fun q => q.net = 0 && q.typ = 0xB && q.pa / 0x10000 = p.pa / 0x10000)

/-- A read that has reached its unit is served (R41, R46, R582): the unit launches its answer, a register's value while the unit runs, and
that of a window to outside the part as given (log 10). -/
def State.serveRead (s : State) (u tag : Nat) (ans : MemAns) : State :=
  match reachedReq s u tag with
  | none => s
  | some p =>
    if p.typ ≠ 7 ∧ p.typ ≠ 0xA then s
    else if (addrClass p.pa = .config && !regRuns s (p.pa - 0xF0000000000)) || (addrClass p.pa = .closed && !islandRuns s 202) || writeBefore s p then s
    else
      match devRead s p.closed p.pa (2 ^ p.size) with
      | some v => (s.take p).answer p (.data v)
      | none =>
        if ans = .timeout then s
        else if addrClass p.pa = .xspi then ((s.take p).flashEnd ans).answer p ans
        else if addrClass p.pa = .rom then (s.take p).answer p ans else s

/-- The waiting answer to one of a load's requests. -/
def loadAns (s : State) (c : Nat) (l : LoadEnt) : Option Pkt :=
  match findAns s c l.tag with
  | some p => some p
  | none => if l.hi.isSome then findAns s c l.tag2 else none

/-- LOAD_DATA_RETURN (R87): the data of the load numbered `seq` becomes usable. A load that its lines have completed lands, and the lines
of a held bundle, when they have all come, let it go on; one sent outside the caches takes the packet that waits for it, or is served
where its request has arrived; one that is late ends; with no such load, the next captured L1D hit lands. -/
def loadReturn (c bi seq : Nat) (ans : MemAns) (s : State) : State :=
  let b := s.bank c bi
  match b.loads.find? (fun l => l.seq = seq) with
  | none => s.landNext c bi (fun k => k = .load)
  | some l =>
    if l.complete then
      (if l.mt = .device then s
       else if l.blk ≠ 0 then (if (b.blkLoads l.blk).all (fun x => x.complete) then s.resumeHeld c bi false else s)
       else s.landLoad c bi l)
    else if !l.sent || l.mt = .wb then s
    else
      match loadAns s c l with
      | some p =>
        let a := if p.net = 3 then p.pa / 64 * 64 else p.pa
        (s.take p).answerLoad c bi l a (if p.net = 3 then 64 else 2 ^ p.size) ((ansOf p).getD .poison)
      | none =>
        let u := clusterUnit (clusterOf c)
        if ans = .timeout then
          (if l.mt = .device || tooEarly s l.late ans then s else ((s.loseTag u l.tag).loseTag u l.tag2).freezeByTransaction c bi)
        else if l.hi.isSome then (s.serveRead u l.tag ans).serveRead u l.tag2 ans else s.serveRead u l.tag ans

/-- LOAD_DATA_RETURN (R87). -/
def execLoadDataReturn (core bank seq : Nat) (ans : MemAns) (s : State) : Host.Outcome State Fault Refusal :=
  atBank core bank s (loadReturn core bank seq ans)

/-! ## Stores -/

/-- After an access is performed: ISYNC may end, and waiting accesses ask for what they can. -/
def State.afterPerform (s : State) (c : Nat) : State := (s.endIsync c).pump c

/-- A store's bytes are written into a held line; a store of the whole line ends its poison. -/
def CLine.write (x : CLine) (e : WbEnt) : CLine :=
  { x with data := mergeLine x.data e.data e.mask, st := .m, dirty := true, poison := x.poison && e.mask ≠ BitVec.allOnes 64 }

/-! ## The L1s under an L2 (R105, R107, R244, R247) -/

/-- Modified data of a line in the cluster's L1Ds goes to the L2 line. -/
def State.gather (s : State) (q line : Nat) : State :=
  match l1Modified s (clusterCores q) line with
  | some x => s.updCluster q (fun y => y.takeBack x)
  | none => s

/-- The L1D copies of the other cores of a cluster go, modified data into the L2; a disabled L1D keeps its contents (R267). -/
def State.gatherOthers (s : State) (q c line : Nat) : State :=
  ((clusterCores q).filter (fun d => d ≠ c && l1dOn s d)).foldl (fun s c => s.updCore c (fun k => { k with l1d := dropLine k.l1d line })) (s.gather q line)

/-- The L2 line, where the L2 is enabled. -/
def l2Line (s : State) (q line : Nat) : Option CLine := if l2On s q then findLine (s.cluster q).l2 line else none

/-- Reservations of a cluster's banks on the granule of a line go, but for one core's (R105). -/
def State.clearResvIn (s : State) (q line : Nat) (but : Option Nat) : State :=
  ((clusterCores q).filter (fun c => some c ≠ but)).foldl (fun s c => s.updCore c (fun k =>
    { k with banks := k.banks.map (fun b => (b.1, if b.2.resv = some (line / 2) then { b.2 with resv := none } else b.2)) })) s

/-- The banks of some cores that defer the loss of a line: within 16 [core] of the LDRES of a constrained sequence on its granule, which is
normal write-back memory (R107, R263). -/
def deferring (s : State) (cores : List Nat) (line : Nat) : List (Nat × Nat) :=
  cores.flatMap (fun c => ((List.range 8).filter (fun bi =>
    let b := s.bank c bi
    b.resv = some (line / 2) && b.cons.isSome && decide ((s.core c).cyc < b.resvAt + 16) && l1dOn s c)).map (fun bi => (c, bi)))

/-- The cores of a cluster but one. -/
def otherCores (c : Nat) : List Nat := (clusterCores (clusterOf c)).filter (· ≠ c)

/-- A buffered store that may be performed now is written where R214 performs it: the L1D line held with write
permission; past a disabled L1D, the L2 line in M or E, which the other L1Ds of the cluster lose (R105, R107, R262); past a disabled L2 it
leaves as a non-cacheable write (R267). -/
def State.performStore (s : State) (c : Nat) (e : WbEnt) : State :=
  let k := s.core c
  let line := e.pa / 64
  let q := clusterOf c
  let pass := (s.updCore c (fun k => { k with wb := k.wb.map (fun f => if sameEnt e f then { f with kind := .nc, thru := true, sent := false } else f) })).pump c
  let again := if l2Keeps s q line e.tenant e.closed then s.pump c else pass
  if l1dOn s c then
    match findLine k.l1d line with
    | some x =>
      if x.st = .s then s.pump c
      else ((s.setCore c { k with l1d := putCLine k.l1d (x.write e) }).dropWb c e).afterPerform c
    | none => again
  else if l2On s q then
    match findLine (s.cluster q).l2 line with
    | some x =>
      if x.st = .s then s.pump c
      else if deferring s (otherCores c) line ≠ [] then s
      else
        let s1 := (s.gatherOthers q c line).clearResvIn q line (some c)
        match findLine (s1.cluster q).l2 line with
        | some y => ((s1.updCluster q (fun z => { z with l2 := putCLine z.l2 (y.write e) })).dropWb c e).afterPerform c
        | none => s
    | none => again
  else pass

/-- STORE_PERFORM (R214 to R216, R221): the buffered store numbered `seq` of a bank. -/
def storePerform (c bi seq : Nat) (s : State) : State :=
  match (s.core c).wb.find? (fun e => e.bank = bi && e.seq = seq) with
  | none => s
  | some e => if (e.kind = .normal || e.kind = .stack) && mayGo s c e then s.performStore c e else s

/-- STORE_PERFORM (R214). -/
def execStorePerform (core bank seq : Nat) (s : State) : Host.Outcome State Fault Refusal :=
  atBank core bank s (storePerform core bank seq)

/-- A store that has reached the Closed SRAM is written there, and acknowledged (R438). -/
def State.sramStore (s : State) (u tag : Nat) : State :=
  match reachedReq s u tag with
  | none => s
  | some p =>
    if islandRuns s 202 && (p.typ = 8 || p.typ = 0xB) && decide (0xF8000100000 ≤ p.pa) && decide (p.pa < 0xF8000140000) then
      { s.take p with mem := memWrite s.mem p.pa (lineField p.data (p.pa % 64) (2 ^ p.size)) (2 ^ p.size) }.answer p (.data 0)
    else s

/-- A STCOND of non-cacheable memory ends when its store is performed (R106; log 67). -/
def State.endStcOf (s : State) (c : Nat) (e : WbEnt) : State :=
  s.updBank c e.bank (fun b =>
    match b.stc with
    | some w => if w.ack = some e.seq then b.endStc (s.core c).cyc w else b
    | none => b)

/-- An answer to a store that left the core (R43, R214, R291, R587): an acknowledgement performs it; a decode error, and
Poison to a device store, record it lost; Fenced is no acknowledgement of a device store; else the bank is frozen. -/
def State.answerStore (s : State) (c : Nat) (e : WbEnt) (ans : MemAns) : State :=
  match ans with
  | .data _ => (s.dropWb c e).endStcOf c e |>.afterPerform c
  | .decodeError => ((s.recordLost c e 0xC).dropWb c e).afterPerform c
  | .poison =>
    if e.kind = .dev then ((s.recordLost c e 0xE).dropWb c e).afterPerform c
    else ((s.freezeByTransaction c e.bank).dropWb c e).afterPerform c
  | .fenced => if e.kind = .dev then s else ((s.freezeByTransaction c e.bank).dropWb c e).afterPerform c
  | .timeout => if e.kind = .dev then s else ((s.freezeByTransaction c e.bank).dropWb c e).afterPerform c

/-- STORE_ACKNOWLEDGE (R214): the waiting packet reaches the core; a store that has reached the Closed SRAM is performed there; a normal
one that is late ends (R291). -/
def storeAck (c bi seq : Nat) (ans : MemAns) (s : State) : State :=
  match (s.core c).wb.find? (fun e => e.bank = bi && e.seq = seq && e.sent && (e.kind = .nc || e.kind = .dev)) with
  | none => s
  | some e =>
    let u := clusterUnit (clusterOf c)
    match findAns s c e.tag with
    | some p => (s.take p).answerStore c e ((ansOf p).getD ans)
    | none =>
      if ans = .timeout then (if e.kind = .dev || tooEarly s e.late ans then s else (s.loseTag u e.tag).answerStore c e ans)
      else s.sramStore u e.tag

/-- STORE_ACKNOWLEDGE (R214). -/
def execStoreAcknowledge (core bank seq : Nat) (ans : MemAns) (s : State) : Host.Outcome State Fault Refusal :=
  atBank core bank s (storeAck core bank seq ans)

/-! ## Device accesses (R217, R223, R224) -/

/-- Whether a device access of the bank is sent and not performed. -/
def devBusy (k : Core) (bi : Nat) (b : Bank) : Bool :=
  b.loads.any (fun l => l.mt = .device && l.sent && !l.complete) || k.wb.any (fun e => e.bank = bi && e.kind = .dev && e.sent)

/-- DEVICE_ACCESS_SEND (R217, R224): the oldest unsent device access of the bank leaves once no earlier one is
unperformed; a device store of a bank with a lost device store is dropped and counted. -/
def devSend (c bi : Nat) (s : State) : State :=
  let k := s.core c
  let b := s.bank c bi
  if devBusy k bi b then s
  else
    let st := k.wb.find? (fun e => e.bank = bi && e.kind = .dev && mayGo s c e)
    let ld := b.loads.find? (fun l => l.mt = .device && !l.sent)
    let goLoad := fun (s : State) (l : LoadEnt) =>
      if decodeFails (routerMap s c) b.psw.world false l.pa then s.failLoad c bi l false
      else (s.sendRead c l.pa l.size .device b.tenant b.psw.world).updBank c bi (fun b =>
        b.setLoad { l with sent := true, late := s.ref + dtoOf s c, tag := coreTag s c })
    let goStore := fun (s : State) (e : WbEnt) =>
      if b.devLost then ((s.dropStore c).dropWb c e).afterPerform c else (s.sendStore c e).endIsync c
    match st, ld with
    | some e, some l => if e.seq < l.seq then goStore s e else goLoad s l
    | some e, none => goStore s e
    | none, some l => goLoad s l
    | none, none => s

/-- DEVICE_ACCESS_SEND (R217). -/
def execDeviceAccessSend (core bank : Nat) (s : State) : Host.Outcome State Fault Refusal := atBank core bank s (devSend core bank)

/-- DEVICE_ACCESS_TIMEOUT (R223 to R225): the device access numbered `seq`, unanswered for dto [ref] edges, is lost. -/
def devTimeout (c bi seq : Nat) (s : State) : State :=
  match (s.bank c bi).loads.find? (fun l => l.seq = seq && l.mt = .device && l.sent && !l.complete) with
  | some l => if l.late ≤ s.ref then (s.loseTag (clusterUnit (clusterOf c)) l.tag).failLoad c bi l true else s
  | none =>
    match (s.core c).wb.find? (fun e => e.bank = bi && e.seq = seq && e.kind = .dev && e.sent) with
    | some e => if e.late ≤ s.ref then (((s.loseTag (clusterUnit (clusterOf c)) e.tag).recordLost c e 0xE).dropWb c e).afterPerform c else s
    | none => s

/-- DEVICE_ACCESS_TIMEOUT (R223). -/
def execDeviceAccessTimeout (core bank seq : Nat) (s : State) : Host.Outcome State Fault Refusal :=
  atBank core bank s (devTimeout core bank seq)

/-! ## Barriers -/

/-- Whether the wait of a barrier has ended with the lost store that marks its bank: the first bundle that it holds takes the imprecise
fault (R110, R224). -/
def Bank.barLost (b : Bank) (w : BarWait) : Bool := w.kind ≠ .barl && b.lost.any (fun l => decide (l.seq < w.seq))

/-- BARRIER_RELEASE (R109, R110): barriers whose condition is met go, at the edge that meets it; one whose wait ends with
a lost store stays for the first held bundle. -/
def barRelease (c bi : Nat) (s : State) : State :=
  let k := s.core c
  let b := s.bank c bi
  let met := (b.bars.filter (fun w => !b.barLost w)).filterMap (fun w => barHold k bi b w)
  if met = [] then s
  else
    (s.landAt c (max (s.core c).cyc (met.foldl max 0))).updBank c bi (fun b => { b with bars := b.bars.filter (fun w => b.barLost w || (barHold k bi b w).isNone) })

/-- BARRIER_RELEASE (R109). -/
def execBarrierRelease (core bank : Nat) (s : State) : Host.Outcome State Fault Refusal := atBank core bank s (barRelease core bank)

/-! ## Entries -/

/-- The level of a cause (R142): stage-2 faults of causes 4 and 5 go to P, HCALL to P, MCALL to M, a debug event where TRC_DCFG.lvl sends
it (R536), the rest to S. -/
def causeLevel (s : State) (c cause : Nat) (g3 : Word) : BitVec 2 :=
  if cause = 16 then 2 else if cause = 17 then 3 else if (cause = 4 || cause = 5) && bit g3 3 then 2
  else if cause = 19 && s.on (R.TRC_DCFG c) F.TRC_DCFG_lvl then 2 else 1

/-- g2 of a cause (R142): the table fixes 0 for causes 0 to 2 and 11 to 14, and imm16 for traps. -/
def causeG2 (cause : Nat) (g2 : Word) : Word :=
  if cause ≤ 2 ∨ (11 ≤ cause ∧ cause ≤ 14) then 0 else if 15 ≤ cause ∧ cause ≤ 17 then BitVec.ofNat 64 (g2.toNat % 65536) else g2

/-- Whether a cause brings a syndrome in g3 and an address in g4 (R204). -/
def hasSyndrome (cause : Nat) : Bool := decide (4 ≤ cause) && decide (cause ≤ 9)

/-- EXCEPTION_ENTRY (R100, R142, R148, R150): an exception or trap is accepted in place of the bundle at the PC of the
issuing bank; a long-operation exception that is pending goes first. Cause 10 is that one alone, cause 9 a recorded lost store's, and causes
18 and 20 to 31 are no exceptions. -/
def exceptionEntry (c bi cause : Nat) (g2 g3 g4 : Word) (s : State) : State :=
  if !canIssue s c bi || decide (20 ≤ cause) || cause = 18 then s
  else
    let t := max ((s.core c).cyc + 1) (s.bank c bi).ready
    let s1 := s.landAt c t
    if (s1.bank c bi).lofPend then s1.acceptLongOp c bi t
    else if cause = 10 || (cause = 9 && (s1.bank c bi).lost.isNone) then s
    else
      s1.accept c bi t (.entry cause (causeLevel s c cause g3) (causeG2 cause g2) (if hasSyndrome cause then g3 else 0) (if hasSyndrome cause then g4 else 0))

/-- EXCEPTION_ENTRY (R148). -/
def execExceptionEntry (core bank cause : Nat) (g2 g3 g4 : Word) (s : State) : Host.Outcome State Fault Refusal :=
  atBank core bank s (exceptionEntry core bank cause g2 g3 g4)

/-- NORMAL_INTERRUPT_ACCEPT (R147, R150, R224, R326): the source presented to the issuing bank is accepted and the accept
notice leaves; a recorded lost store is reported first. -/
def interruptAccept (c bi : Nat) (s : State) : State :=
  match normalDue s c bi with
  | none => s
  | some n =>
    let b := s.bank c bi
    let t := (s.core c).cyc + 1
    let s1 := (s.landAt c t).accept c bi t (.entry 18 (icuLevel s n) (BitVec.ofNat 64 n) 0 0)
    if b.lost.isSome then s1
    else { s1.updBank c bi (fun x => { x with irq := some (b.depth, n) }) with notices := s.notices ++ [(true, n)] }

/-- NORMAL_INTERRUPT_ACCEPT (R147). -/
def execNormalInterruptAccept (core bank : Nat) (s : State) : Host.Outcome State Fault Refusal :=
  atBank core bank s (interruptAccept core bank)

/-- The capture of an entry, with its trace packet (R147, R522). -/
def entryCapture (c bi : Nat) (s : State) : State :=
  let r := s.capture c bi
  (match (s.bank c bi).entry with
   | some e =>
     if (r.bank c bi).entry.isNone && (r.bank c bi).st ≠ BankState.frozen then r.traceEntry c bi e.at_ (admitted s c bi false) e.pc else r
   | none => r).pump c

/-- ENTRY_CAPTURE (R147). -/
def execEntryCapture (core bank : Nat) (s : State) : Host.Outcome State Fault Refusal :=
  atBank core bank s (entryCapture core bank)

/-- The edge from which a fast entry counts: this one, or the row boundary of a folio sequence (R151, R187). -/
def fastBase (k : Core) : Nat :=
  match k.move with
  | some m => if m.begun then max k.cyc m.at_ else k.cyc
  | none => k.cyc

/-- The fast bank takes a fast source: it is at the fast vector of its level, its first block in the fast-vector buffer where that is loaded,
and its bundle issues 5 [core] after the level is usable; nothing is stacked and no register written (R151). -/
def State.enterFast (s : State) (c n e : Nat) : State :=
  let v := vector s (s.bank c 7) (s.bank c 7).psw.pl 31
  (s.updCore c (fun k => { k with fastRun := true, fastSrc := some n })).updBank c 7 (fun b =>
    { b with pc := v, ready := max b.ready (e + 5), fbuf := (s.core c).fastBuf.toList, fwait := none, fsent := none, missing := false })

/-- FAST_CLASS_ENTRY (R151, R152, R157, R187, R326, R328): the presented fast source is taken in the idle fast bank; an STM or LDM of the
bank it pre-empts stops (R180). -/
def fastEntry (c : Nat) (s : State) : State :=
  let k := s.core c
  match fastDue s c with
  | none => s
  | some n =>
    let e := fastBase k
    let s1 := s.enterFast c n e
    let s2 := match runBank k with
      | some bi => (s1.traceEntry c 7 e (admitted s c bi false) (k.bank bi).pc).stopHeld c bi
      | none => s1
    { s2.ev c 7 0x31 1 with notices := s.notices ++ [(true, n)] }

/-- FAST_CLASS_ENTRY (R151). -/
def execFastClassEntry (core : Nat) (s : State) : Host.Outcome State Fault Refusal := atCore core s (fastEntry core)

/-! ## Fetch misses (R133, R154) -/

/-- The block that a bank's fetch waits for, and whether its data is bad: a line that the L2 has answered, a non-cacheable line's packet, or,
from outside DRAM, the data given (log 10). -/
def fetchData (s : State) (c bi pa : Nat) (given : Line) : Option (Line × Bool × State) :=
  match (s.bank c bi).fsent with
  | some (t, late) =>
    match findAns s c t with
    | some p => some (p.data, p.net ≠ 3 || p.poison, s.take p)
    | none => if late ≤ s.ref then some (0, true, s.loseTag (clusterUnit (clusterOf c)) t) else none
  | none =>
    match (s.core c).ifill.find? (fun x => x.1 = pa / 64) with
    | some x => some (x.2.1, x.2.2, s)
    | none => if addrClass pa = .dram then none else some (given, false, s)

/-- FETCH_MISS_FILL (R133, R243): the block the bank waits for enters F2, and its bundle issues 3 [core] later. A poisoned line freezes the
bank, and so does a request that is late (R291). -/
def fetchFill (c bi : Nat) (given : Line) (s : State) : State :=
  match (s.bank c bi).fwait with
  | none => s
  | some pa =>
    match fetchData s c bi pa given with
    | none => s
    | some (d, bad, s1) =>
      let s2 := s1.updCore c (fun k => { k with ifill := k.ifill.filter (fun x => x.1 ≠ pa / 64 || (k.banks.any (fun q => q.1 ≠ bi && q.2.fwait.any (fun a => a / 64 = pa / 64)))) })
      if bad then (s2.updBank c bi (fun b => { b with fwait := none, fsent := none })).freezeByTransaction c bi
      else s2.updBank c bi (fun b => { b with fwait := none, fsent := none, fbuf := [(pa / 32, d)], ready := max b.ready ((s.core c).cyc + 3) })

/-- FETCH_MISS_FILL (R133). -/
def execFetchMissFill (core bank : Nat) (line : Line) (s : State) : Host.Outcome State Fault Refusal :=
  atBank core bank s (fetchFill core bank line)

end Sys2Proof.Machine
end

