-- ==== Sys2Proof/Machine/Inval.lean ====
section
/-! DEFINITION. The invalidation of translations and the change of the decode map (R211 to R213, R239, R581). -/

namespace Sys2Proof.Machine

/-! ## Scopes (R212) -/

/-- The fields of the value written to MMU_INV. -/
def invScope (v : Word) : Nat := fld v 0 3
def invTenant (v : Word) : Nat := fld v 4 9
def invAsid (v : Word) : Nat := fld v 13 10
def invPage (v : Word) : Nat := fld v 23 36

/-- Whether an invalidation removes a TLB entry. -/
def invTlb (v : Word) (t : TlbEnt) : Bool :=
  let ten := t.regime = 2 && t.tenant = invTenant v
  match invScope v with
  | 0 => true
  | 1 => ten
  | 2 => ten && t.asid = invAsid v && !t.glob
  | 3 => ten && (t.glob || t.asid = invAsid v) && (if t.grp then t.vpage / 16 = invPage v / 16 else t.vpage = (invPage v * 4096) >>> t.lg)
  | 4 => ten
  | 5 => t.regime = 1
  | 6 => t.regime = 0
  | _ => false

/-- Whether an invalidation removes a cached non-leaf descriptor. -/
def invWc1 (v : Word) (t : Wc1Ent) : Bool :=
  let ten := t.regime = 2 && t.tenant = invTenant v
  match invScope v with
  | 0 => true
  | 1 => ten
  | 2 => ten && t.asid = invAsid v
  | 3 => ten && t.vtop = (invPage v * 4096) >>> lvlShift t.level
  | 5 => t.regime = 1
  | 6 => t.regime = 0
  | _ => false

/-- Whether an invalidation removes a cached root. -/
def invRoot (v : Word) (t : RootEnt) : Bool :=
  match invScope v with
  | 0 => true
  | 1 => t.tenant = invTenant v
  | 2 => t.tenant = invTenant v && t.asid = invAsid v
  | _ => false

/-- Whether an invalidation removes a cached stage-2 translation. -/
def invWc2 (v : Word) (t : Wc2Ent) : Bool :=
  match invScope v with
  | 0 => true
  | 1 => t.tenant = invTenant v
  | 4 => t.tenant = invTenant v && t.page = invPage v % 2 ^ 32
  | _ => false

/-! ## Starting, reaching a target, ending (R211, R213, R239) -/

/-- The places that an invalidation reaches: the core of the block alone, or every powered core, and for scopes 0, 1
and 4 both powered PCIe controllers. -/
def invTargets (s : State) (core : Nat) (v : Word) : List Nat :=
  if !bit v 3 then [core]
  else (List.range 128).filter (fun c => domOn s c) ++
    (if invScope v = 0 ∨ invScope v = 1 ∨ invScope v = 4 then ((List.range 2).filter (fun j => domOn s (pcieDom j))).map (128 + ·) else [])

/-- The unit at which an invalidation is taken for a target: its cluster, or the controller itself. -/
def targetOf (t : Nat) : Nat := if t < 128 then clusterUnit (clusterOf t) else pcieUnit (t - 128)

/-- A write of MMU_INV (R211 to R213): while busy it is lost; a refused scope sets err and removes nothing; else the
invalidation starts, a broadcast as class D packets of the snoop network with the value in their body (R273, R277, R282). -/
def mmuInv (closed : Bool) (core : Nat) (v : Word) (s : State) : State :=
  if s.on (R.MMU_INVS core) F.MMU_INVS_busy then s.setF (R.MMU_INVS core) F.MMU_INVS_lost 1
  else if invScope v = 7 ∨ (invScope v = 6 ∧ !closed) then s.setF (R.MMU_INVS core) F.MMU_INVS_err 1
  else
    let us := if bit v 3 then (invTargets s core v).map targetOf |>.dedup else []
    let s1 := { s.setF (R.MMU_INVS core) F.MMU_INVS_busy 1 with invals := s.invals ++ [{ by_ := core, v := v, todo := invTargets s core v, units := us, await := us }] }
    us.foldl (fun s u => s.inject { net := 2, typ := 4, src := clusterUnit (clusterOf core), dst := u, closed := closed, more := true, data := BitVec.ofNat 512 v.toNat }) s1

/-- MMU_INV (R211). -/
def execMmuInv (ag : Agent) (core : Nat) (v : Word) (s : State) : Host.Outcome State Fault Refusal :=
  atCore core s (fun s => regCmd .mmu (R.MMU_INV core) ag s (mmuInv ag.closed core v))

/-- A walk that is discarded starts again with a new lookup of the L2 TLB (R211). -/
def Walk.restart (w : Walk) : Walk := { w with ans := [], l2 := false, sent := none, got := none }

/-- A core removes what a predicate of each cache names; a walk in progress starts again (R211). -/
def Core.dropTr (k : Core) (t : TlbEnt → Bool) (w1 : Wc1Ent → Bool) (r : RootEnt → Bool) (w2 : Wc2Ent → Bool) : Core :=
  { k with itlb := k.itlb.filter (fun x => !t x), dtlb := k.dtlb.filter (fun x => !t x), l2tlb := k.l2tlb.filter (fun x => !t x),
           wc1 := k.wc1.filter (fun x => !w1 x), wcr := k.wcr.filter (fun x => !r x), wc2 := k.wc2.filter (fun x => !w2 x),
           walkI := k.walkI.map Walk.restart, walkD := k.walkD.map Walk.restart }

/-- The walks of a core leave the reads they wait for: an answer under way is discarded (R211). -/
def State.leaveWalks (s : State) (c : Nat) : State :=
  let ports := [2 * (c % 8), 2 * (c % 8) + 1]
  let s1 := ((s.core c).walkI.toList ++ (s.core c).walkD.toList).foldl (fun s w => (w.sent.map (fun t => s.loseTag (clusterUnit (clusterOf c)) t.1)).getD s) s
  s1.updCluster (clusterOf c) (fun q => { q with mshr := q.mshr.map (fun m => { m with walks := m.walks.filter (fun p => !ports.contains p) }) })

/-- The transactions of a bank, or of a whole core, have ended without their answers. -/
def State.loseBank (s : State) (c bi : Nat) : State :=
  let u := clusterUnit (clusterOf c)
  let b := s.bank c bi
  let s1 := (b.loads.filter (fun l => l.mt ≠ .wb && l.sent && !l.complete)).foldl (fun s l =>
    let s1 := s.loseTag u l.tag
    if l.hi.isSome then s1.loseTag u l.tag2 else s1) s
  (b.fsent.map (fun f => s1.loseTag u f.1)).getD s1

def State.loseCore (s : State) (c : Nat) : State :=
  let s1 := (List.range 8).foldl (fun s bi => s.loseBank c bi) (s.leaveWalks c)
  ((s1.core c).wb.filter (fun e => e.sent)).foldl (fun s e => s.loseTag (clusterUnit (clusterOf c)) e.tag) s1

/-- The unperformed accesses of a core that an invalidation's removed entries have translated, by bank and number (R211). -/
def invMarks (s : State) (c : Nat) (v : Word) : List (Nat × Nat × Nat) :=
  (List.range 8).flatMap (fun bi => ((s.bank c bi).loads.filter (fun l => !l.complete && l.ents.any (invTlb v))).map (fun l => (c, bi, l.seq))) ++
    ((s.core c).wb.filter (fun e => e.ent.any (invTlb v))).map (fun e => (c, e.bank, e.seq))

def State.pcie (s : State) (j : Nat) : Pcie := mget {} s.pcies j
def State.setPcie (s : State) (j : Nat) (x : Pcie) : State := { s with pcies := mset s.pcies j x }
def State.updPcie (s : State) (j : Nat) (f : Pcie → Pcie) : State := s.setPcie j (f (s.pcie j))

/-- Whether an invalidation removes a controller's translation of a tenant's intermediate page (R239). -/
def invPcie (v : Word) (tenant page : Nat) : Bool :=
  match invScope v with
  | 0 => true
  | 1 => tenant = invTenant v
  | 4 => tenant = invTenant v && page = invPage v % 2 ^ 32
  | _ => false

/-- An invalidation reaches a target, which removes the matching entries; what it still waits for there is noted. For a
sleeping core its cluster records it (R506). -/
def State.invAt (s : State) (target : Nat) (v : Word) : State × List (Nat × Nat × Nat) :=
  if target < 128 then
    if s.on (R.PWR_CORE target) F.PWR_CORE_asleep then
      ({ s with hub := { s.hub with tlbRec := target :: s.hub.tlbRec.filter (· ≠ target) } }, [])
    else ((s.leaveWalks target).updCore target (fun k => k.dropTr (invTlb v) (invWc1 v) (invRoot v) (invWc2 v)), invMarks s target v)
  else
    let j := target - 128
    (s.updPcie j (fun p => { p with cache := p.cache.filter (fun x => !invWc2 v x) }),
     ((s.pcie j).inb.filter (fun t => t.pages.any (fun p => invPcie v t.tenant p))).map (fun t => (target, 0, t.seq)))

/-- The packet of a core's broadcast that has reached a unit. -/
def invPkt (s : State) (i : Inval) (u : Nat) : Option Pkt :=
  s.inbox.find? (fun p => p.net = 2 && p.typ = 4 && p.dst = u && p.src = clusterUnit (clusterOf i.by_) && p.data.toNat = i.v.toNat)

/-- The broadcast of a core's invalidation reaches a target from its unit, where the packet waits until each target there has it (R211,
R212, R239); the core of the block reaches itself. -/
def invReceive (by_ target : Nat) (s : State) : State :=
  match s.invals.find? (fun i => i.by_ = by_ && i.todo.contains target) with
  | none => s
  | some i =>
    let u := targetOf target
    match invPkt s i u, bit i.v 3 with
    | none, true => s
    | p, _ =>
      let r := s.invAt target i.v
      let todo := i.todo.filter (· ≠ target)
      let s1 := { r.1 with invals := r.1.invals.map (fun x => if x = i then { i with todo := todo, marks := i.marks ++ r.2 } else x) }
      match p with
      | some p => if todo.any (fun t => targetOf t = u) then s1 else s1.take p
      | none => s1

/-- TLB_INVALIDATION_RECEIVE (R211). -/
def execTlbInvalidationReceive (by_ target : Nat) (s : State) : Host.Outcome State Fault Refusal :=
  if by_ < 128 ∧ target < 130 then .next (invReceive by_ target s) else .fault .noSuchUnit

/-- Whether the access that a mark names is performed, closed or lost. -/
def markClear (s : State) (m : Nat × Nat × Nat) : Bool :=
  if m.1 < 128 then
    !(s.bank m.1 m.2.1).loads.any (fun l => l.seq = m.2.2 && !l.complete) && !(s.core m.1).wb.any (fun e => e.bank = m.2.1 && e.seq = m.2.2)
  else !(s.pcie (m.1 - 128)).inb.any (fun t => t.seq = m.2.2)

/-- Whether a target of an invalidation has power; one that has lost it holds no translation. -/
def targetOn (s : State) (t : Nat) : Bool := if t < 128 then domOn s t else domOn s (pcieDom (t - 128))

/-- Whether a unit is done with an invalidation: each of its powered targets was reached, and their accesses by removed entries are over
(R211, R239). -/
def unitDone (s : State) (i : Inval) (u : Nat) : Bool :=
  i.todo.all (fun t => targetOf t ≠ u || !targetOn s t) && i.marks.all (fun m => targetOf m.1 ≠ u || markClear s m)

/-- Whether a unit still has a powered target of a broadcast. -/
def unitOn (s : State) (u : Nat) : Bool := (List.range 130).any (fun t => targetOf t = u && targetOn s t)

/-- The units of a broadcast that are done send their acknowledgements (R213, R279). -/
def State.sendAcks (s : State) (i : Inval) : State × Inval :=
  let due := i.units.filter (fun u => unitDone s i u)
  let j := { i with units := i.units.filter (fun u => !due.contains u), await := i.await.filter (fun u => unitOn s u) }
  (due.foldl (fun s u => s.inject { net := 1, typ := 0xB, src := u, dst := clusterUnit (clusterOf i.by_), data := BitVec.ofNat 512 i.v.toNat })
    { s with invals := s.invals.map (fun x => if x = i then j else x) }, j)

/-- The acknowledgements of an invalidation arrive; with the last busy clears (R211, R239). -/
def invDone (by_ : Nat) (s : State) : State :=
  match s.invals.find? (fun i => i.by_ = by_) with
  | none => s
  | some i =>
    let r : State × Inval := s.sendAcks i
    let home := clusterUnit (clusterOf by_)
    let acks := r.1.inbox.filter (fun p => p.net = 1 && p.typ = 0xB && p.dst = home && r.2.await.contains p.src && p.data.toNat = i.v.toNat)
    let s1 := acks.foldl (fun s p => s.take p) r.1
    let j : Inval := { r.2 with await := r.2.await.filter (fun u => !acks.any (fun p => p.src = u)) }
    if j.todo.all (fun t => !targetOn s t) && j.marks.all (markClear s) && j.await = [] then
      { s1.setF (R.MMU_INVS by_) F.MMU_INVS_busy 0 with invals := dropFirst (fun x => x = r.2) s1.invals }
    else { s1 with invals := s1.invals.map (fun x => if x = r.2 then j else x) }

/-- TLB_INVALIDATION_ACKNOWLEDGED (R211). -/
def execTlbInvalidationAcknowledged (by_ : Nat) (s : State) : Host.Outcome State Fault Refusal := atCore by_ s (invDone by_)

/-! ## The decode map (R581) -/

/-- The map in force reaches a holder: cores are 0 to 127, routers 128 to 157, PCIe controllers 158 and 159. A core and
a controller empty their translation caches. -/
def mapChange (target : Nat) (s : State) : State :=
  if target < 128 then
    (s.leaveWalks target).updCore target (fun k => { k.dropTr (fun _ => true) (fun _ => true) (fun _ => true) (fun _ => true) with map := s.map })
  else if target < 158 then s.updRouter (target - 128) (fun r => { r with map := s.map })
  else s.updPcie (target - 158) (fun p => { p with cache := [], map := s.map })

/-- Whether every powered core, every router and every powered PCIe controller holds the map in force (R581). -/
def mapEverywhere (s : State) : Bool :=
  (List.range 128).all (fun c => !domOn s c || (s.core c).map = s.map) &&
  (List.range 30).all (fun r => (s.router r).map = s.map) &&
  (List.range 2).all (fun j => !domOn s (pcieDom j) || (s.pcie j).map = s.map)

end Sys2Proof.Machine
end

