-- ==== Sys2Proof/Machine/Bridge.lean ====
section
/-! DEFINITION. The bridge of a half: the steps a frame passes from its port, a queue pair or the gateway to the queues it
ends in (R387 to R411). -/

namespace Sys2Proof.Machine

/-- The half of a port. -/
def portHalf (p : Nat) : Nat := p / 20

/-- Whether a port is RUNNING with its link up; a PCS loopback stands for the link (R384, R385). -/
def portUp (s : State) (p : Nat) : Bool :=
  s.f (R.ETH_STAT p) F.ETH_STAT_state = 1 && (s.on (R.ETH_STAT p) F.ETH_STAT_link || s.f (R.ETH_PHY p) F.ETH_PHY_lpbk = 1)

/-- The rate, [pcs] period and corrections of a port at the speed code in force. -/
def portSpeed (s : State) (p : Nat) : Nat × Nat × Nat × Nat :=
  (Config.speedRow (p % 20) (s.f (R.ETH_STAT p) F.ETH_STAT_speed)).getD (25000000, 256, 0, 0)

/-- The rate of a port in kbit/s. -/
def portRate (s : State) (p : Nat) : Nat := (portSpeed s p).1

/-- Bytes of some frames. -/
def frameBytes (l : List EFrame) : Nat := (l.map (fun f => f.size)).sum

/-- Packet SRAM in use in a half, in bytes (R396): egress queues and what waits for receive channels. -/
def sramUsed (s : State) (half : Nat) : Nat :=
  ((s.ports.filter (fun p => portHalf p.1 = half)).map (fun p => (p.2.queues.map (fun q => frameBytes q.2)).sum)).sum
    + ((s.qps.filter (fun q => decide (q.1 < 2048) = decide (half = 0))).map (fun q => (q.2.arr.map (fun a => a.bytes.length)).sum)).sum

/-- Whether the packet SRAM of a half has room for `n` more bytes: it holds 16 MiB (R396). -/
def sramRoom (s : State) (half n : Nat) : Bool := decide (sramUsed s half + n ≤ 16777216)

/-- Whether an egress queue takes a frame (R396). -/
def queueHasRoom (s : State) (p tc n : Nat) : Bool :=
  decide (frameBytes (mget [] (s.port p).queues tc) < s.f (R.TSN_QCFG p tc) F.TSN_QCFG_limit * 1024) && sramRoom s (portHalf p) n

/-- A frame joins an egress queue. -/
def State.putFrame (s : State) (p tc : Nat) (f : EFrame) : State :=
  s.updPort p (fun x => { x with queues := mset x.queues tc (mget [] x.queues tc ++ [f]) })

/-- A switched frame at an egress port: queued, or discarded into counter 16 (R384, R396). -/
def State.egressEnqueue (s : State) (p tc : Nat) (f : EFrame) : State :=
  if portUp s p && queueHasRoom s p tc f.size then s.putFrame p tc f else s.ethCount p 16 1

/-- A discard counted at the ingress port, where the frame came from a port (R387). -/
def State.ingressCount (s : State) (half bp i : Nat) : State := if bp < 20 then s.ethCount (20 * half + bp) i 1 else s

/-! ## MACsec verification and protection (R407, R408; the tag's layout is IEEE 802.1AE's: PRESUMED, log 33) -/

/-- The bytes in clear that the confidentiality offset leaves (R413). -/
def clearBytes (s : State) (p : Nat) : Nat :=
  match s.f (R.ETH_MSCFG p) F.ETH_MSCFG_coff with
  | 1 => 30
  | 2 => 50
  | _ => 0

/-- The initial vector of a frame: SCI and PN, or with extended numbering SSCI and PN under the salt. -/
def macsecIv (xpn : Bool) (key sci pn : Nat) : Nat :=
  if xpn then (key / 2 ^ 352 * 2 ^ 64 + pn) ^^^ (key / 2 ^ 256 % 2 ^ 96) else sci * 2 ^ 32 + pn % 2 ^ 32

/-- The full packet number from the 32 bits a frame carries (802.1AE, extended numbering). -/
def recoverPn (xpn : Bool) (lpn low : Nat) : Nat :=
  if !xpn then low
  else
    let hi := lpn / 2 ^ 32
    if lpn % 2 ^ 32 ≤ low then hi * 2 ^ 32 + low
    else if 2 ^ 31 ≤ lpn % 2 ^ 32 ∧ low < 2 ^ 31 then (hi + 1) * 2 ^ 32 + low
    else hi * 2 ^ 32 + low

/-- What verification makes of a received frame: the state with its counts, and the bytes that pass (R407). -/
def macsecIn (s : State) (p : Nat) (bs : List Byte) : State × Option (List Byte) :=
  let et := beAt bs 12 2
  let mode := s.f (R.ETH_MSCFG p) F.ETH_MSCFG_validate
  if !s.on (R.ETH_MSCFG p) F.ETH_MSCFG_en || et = 0x888E || et = 0x88F7 then (s, some bs)
  else
    let bad (i : Nat) (pass : List Byte) : State × Option (List Byte) :=
      if mode = 0 then (s, some pass)
      else (s.ethCount p i 1, if mode = 2 then none else some pass)
    if et ≠ 0x88E5 then bad 6 bs
    else
      let tci := beAt bs 14 1
      let an := tci % 4
      let hasSci := (tci / 32) % 2 = 1
      let h := if hasSci then 28 else 20
      let sci := if hasSci then beAt bs 20 8 else beAt bs 6 6 * 65536 + 1
      let xpn := s.on (R.ETH_MSCFG p) F.ETH_MSCFG_xpn
      let plainOut := bs.take 12 ++ (bs.drop h).take (bs.length - h - 16)
      match (List.range 16).find? (fun r => s.f (R.ETH_MSRXSC p r) F.ETH_MSRXSC_sci = sci && bit (s.reg (R.ETH_MSRXEN p)) (4 * r + an)) with
      | none => bad 6 plainOut
      | some r =>
        let lpn := s.f (R.ETH_MSRXSA p r an) F.ETH_MSRXSA_lpn
        let pn := recoverPn xpn lpn (beAt bs 16 4)
        if s.on (R.ETH_MSCFG p) F.ETH_MSCFG_replay && decide (pn < lpn) then bad 7 plainOut
        else if mode = 0 then (s, some plainOut)
        else
          let key := mget 0 (s.port p).rxKey (4 * r + an)
          let c := clearBytes s p
          match gcmOpen (s.f (R.ETH_MSCFG p) F.ETH_MSCFG_cipher) key (macsecIv xpn key sci pn) (bs.take (h + c)) (bs.drop (h + c)) with
          | none => bad 6 plainOut
          | some plain =>
            let s1 := if s.on (R.ETH_MSCFG p) F.ETH_MSCFG_replay then
                s.setF (R.ETH_MSRXSA p r an) F.ETH_MSRXSA_lpn (max lpn (pn + 1 - s.f (R.ETH_MSWIN p) F.ETH_MSWIN_win))
              else s
            (s1, some (bs.take 12 ++ sub bs h c ++ plain))

/-- What protection makes of a frame to be sent: the bytes for the wire, or none with the frame discarded into counter 18,
when the selected SA is not enabled or has no packet number left (R407, R408). -/
def macsecOut (s : State) (p : Nat) (bs : List Byte) : State × Option (List Byte) :=
  let et := beAt bs 12 2
  if !s.on (R.ETH_MSCFG p) F.ETH_MSCFG_en || et = 0x888E || et = 0x88F7 then (s, some bs)
  else
    let an := s.f (R.ETH_MSTX p) F.ETH_MSTX_an
    let x := s.port p
    if !(s.f (R.ETH_MSTX p) F.ETH_MSTX_txen).testBit an || x.spent.contains an then (s.ethCount p 18 1, none)
    else
      let xpn := s.on (R.ETH_MSCFG p) F.ETH_MSCFG_xpn
      let pn := s.f (R.ETH_MSTXSA p an) F.ETH_MSTXSA_pn
      let top := if xpn then 2 ^ 64 - 1 else 2 ^ 32 - 1
      let sci := s.f (R.ETH_MSSCI p) F.ETH_MSSCI_sci
      let withSci := s.on (R.ETH_MSCFG p) F.ETH_MSCFG_sci_tx
      let key := mget 0 x.txKey an
      let user := bs.drop 12
      let c := min (clearBytes s p) user.length
      let tag := beBytes 2 0x88E5 ++ beBytes 1 ((if withSci then 32 else 0) + 12 + an)
        ++ beBytes 1 (if user.length < 48 then user.length else 0) ++ beBytes 4 pn ++ (if withSci then beBytes 8 sci else [])
      let head := bs.take 12 ++ tag ++ user.take c
      let out := head ++ gcmSeal (s.f (R.ETH_MSCFG p) F.ETH_MSCFG_cipher) key (macsecIv xpn key sci pn) head (user.drop c)
      let s1 := if pn < top then s.setF (R.ETH_MSTXSA p an) F.ETH_MSTXSA_pn (pn + 1)
        else (s.updPort p (fun x => { x with spent := an :: x.spent })).setF (R.ETH_IRQ p) F.ETH_IRQ_pn_out 1
      let s2 := if s.f (R.ETH_MSTHR p) F.ETH_MSTHR_pn_thr ≤ pn + 1 then s1.setF (R.ETH_IRQ p) F.ETH_IRQ_pn_thr 1 else s1
      (s2, some out)

/-! ## Stream filters, gates, meters and recovery (R401 to R406) -/

/-- The stream entry that applies to a frame: the lowest that matches (R401). -/
def streamOf (s : State) (half bp : Nat) (f : EFrame) : Option Nat :=
  let k := brBlock half
  (List.range 512).find? (fun i =>
    s.on (R.TSN_SID k i) F.TSN_SID_v && (s.f (R.TSN_SID k i + 8) F.TSN_SID_in_ports).testBit bp
      && decide ((if s.on (R.TSN_SID k i) F.TSN_SID_sa then f.src else f.dst) = s.f (R.TSN_SID k i) F.TSN_SID_addr)
      && (s.on (R.TSN_SID k i) F.TSN_SID_anyvid || decide (f.vid = s.f (R.TSN_SID k i) F.TSN_SID_vid)))

/-- Bits of a frame in 1/1,250,000 bit. -/
def meterCost (f : EFrame) : Nat := f.size * 8 * 1250000

/-- A flow meter's colour for a frame, 0 green, 1 yellow, 2 red, and its effect (R404; the two-rate marker is IEEE
802.1Q's: PRESUMED, log 35). -/
def meter (s : State) (half m : Nat) (f : EFrame) : State × Nat :=
  let k := brBlock half
  let hi := R.TSN_FMTR k m + 8
  let b := s.bridge half
  let n := meterCost f
  if s.on hi F.TSN_FMTR_mared_en && s.on hi F.TSN_FMTR_mared then (s, 2)
  else if n ≤ mget 0 b.commit m then (s.setBridge half { b with commit := mset b.commit m (mget 0 b.commit m - n) }, 0)
  else if n ≤ mget 0 b.excess m then (s.setBridge half { b with excess := mset b.excess m (mget 0 b.excess m - n) }, 1)
  else (if s.on hi F.TSN_FMTR_mared_en then s.setF hi F.TSN_FMTR_mared 1 else s, 2)

/-- Step 6: the stream filter, gate and meter of an entry; none: the frame is discarded (R402). -/
def streamFilter (s : State) (half bp flt : Nat) (f : EFrame) : State × Option EFrame :=
  let k := brBlock half
  let a := R.TSN_SFLT k flt
  if !(s.f a F.TSN_SFLT_pcp).testBit f.pcp then (s, some f)
  else if s.on a F.TSN_SFLT_blocked then (s.ingressCount half bp 8, none)
  else
    let m := s.f a F.TSN_SFLT_maxsdu
    if m ≠ 0 ∧ m < f.size then
      ((if s.on a F.TSN_SFLT_blk then s.setF a F.TSN_SFLT_blocked 1 else s).ingressCount half bp 8, none)
    else
      let g := mget {} (s.bridge half).gates (s.f a F.TSN_SFLT_gate)
      if s.on a F.TSN_SFLT_gate_en && !g.isOpen then (s.ingressCount half bp 8, none)
      else
        let f1 := if s.on a F.TSN_SFLT_gate_en then { f with tc := g.ipv.getD f.tc } else f
        if s.on a F.TSN_SFLT_met_en then
          let n := s.f a F.TSN_SFLT_meter
          let r := meter s half n f1
          if r.2 = 2 then (r.1.ingressCount half bp 9, none)
          else if r.2 = 1 then
            (if r.1.on (R.TSN_FMTR k n + 8) F.TSN_FMTR_dropy then (r.1.ingressCount half bp 8, none) else (r.1, some { f1 with dei := true }))
          else (r.1, some f1)
        else (s, some f1)

/-- The history length of a recovery function: 0 acts as 32 and 1 as 2 (R415). -/
def histLen (s : State) (half n : Nat) : Nat :=
  let h := s.f (R.TSN_FRREC (brBlock half) n) F.TSN_FRREC_hist
  if h = 0 then 32 else if h = 1 then 2 else h

/-- What a recovery function decides of a sequence number: the function after, whether the frame passes, and the counter of
a discard (R406; the algorithms are IEEE 802.1CB's clauses 7.4.3.4 and 7.4.3.5: PRESUMED, log 36). -/
def recover1 (vector : Bool) (len : Nat) (now : Nat) (r : Recov) (q : Nat) : Recov × Bool × Nat :=
  if r.any then ({ seq := q, hist := true :: List.replicate (len - 1) false, any := false, since := now }, true, 0)
  else
    let u := (q + 65536 - r.seq) % 65536
    let d : Int := if u < 32768 then u else (u : Int) - 65536
    if !vector then
      if d = 0 then (r, false, 10) else ({ r with seq := q, since := now }, true, 0)
    else if (len : Int) ≤ d ∨ d ≤ -(len : Int) then (r, false, 11)
    else if d ≤ 0 then
      let i := (-d).toNat
      if r.hist.getD i false then (r, false, 10) else ({ r with hist := replaceAt r.hist i true, since := now }, true, 0)
    else
      ({ r with seq := q, hist := (true :: List.replicate (d.toNat - 1) false ++ r.hist).take len, since := now }, true, 0)

/-- Recovery of a frame that carries an R-TAG (R406). -/
def State.recoverFrame (s : State) (half bp n : Nat) (f : EFrame) : State × Option EFrame :=
  if !f.rtag then (s, some f)
  else
    let a := R.TSN_FRREC (brBlock half) n
    let b := s.bridge half
    let r := recover1 (!s.on a F.TSN_FRREC_alg) (histLen s half n) s.ref (mget {} b.recov n) (beAt f.body 4 2)
    let s1 := s.setBridge half { b with recov := mset b.recov n r.1 }
    if r.2.1 then
      (s1.incSat (a + 8) F.TSN_FRREC_passed 1, some (if s.on a F.TSN_FRREC_strip then { f with body := f.body.drop 6 } else f))
    else ((s1.incSat (a + 8) F.TSN_FRREC_discarded 1).ingressCount half bp r.2.2, none)

/-- Sequence generation: the R-TAG is put in and the number advances (R405). -/
def State.generate (s : State) (half n : Nat) (f : EFrame) : State × EFrame :=
  let a := R.TSN_FRGEN (brBlock half) n
  let q := s.f a F.TSN_FRGEN_seq
  (s.setF a F.TSN_FRGEN_seq (q + 1), { f with body := beBytes 2 0xF1C1 ++ zeros 2 ++ beBytes 2 q ++ f.body })

/-- Steps 5 to 7 (R401 to R406). -/
def streamSteps (s : State) (half bp : Nat) (f : EFrame) : State × Option EFrame :=
  match streamOf s half bp f with
  | none => (s, some f)
  | some i =>
    let hi := R.TSN_SID (brBlock half) i + 8
    let r := if s.on hi F.TSN_SID_flt_en then streamFilter s half bp (s.f hi F.TSN_SID_flt) f else (s, some f)
    match r.2 with
    | none => r
    | some f1 =>
      let r1 := if r.1.on hi F.TSN_SID_rec_en then r.1.recoverFrame half bp (r.1.f hi F.TSN_SID_rec) f1 else (r.1, some f1)
      match r1.2 with
      | none => r1
      | some f2 =>
        if r1.1.on hi F.TSN_SID_gen_en then
          let g := r1.1.generate half (r1.1.f hi F.TSN_SID_gen) f2
          (g.1, some g.2)
        else (r1.1, some f2)

/-! ## Forwarding (R388 to R391) -/

/-- The set of the forwarding database that holds a VID and address (R390). -/
def fdbSet (vid mac : Nat) : Nat := crc32c (beBytes 2 vid ++ beBytes 6 mac) % 4096

/-- The entries in the set of a key. -/
def fdbWays (b : Bridge) (vid mac : Nat) : List FdbEnt := b.fdb.filter (fun e => fdbSet e.vid e.mac = fdbSet vid mac)

def fdbFind (b : Bridge) (vid mac : Nat) : Option FdbEnt := b.fdb.find? (fun e => e.vid = vid && e.mac = mac)

def fdbDrop (b : Bridge) (vid mac : Nat) : Bridge := { b with fdb := b.fdb.filter (fun e => e.vid ≠ vid || e.mac ≠ mac) }

/-- A source address is learned (R390). -/
def State.learn (s : State) (half bp : Nat) (f : EFrame) : State :=
  let k := brBlock half
  if !s.on (R.ETH_BR_PORT k bp) F.ETH_BR_PORT_learn || (f.src / 2 ^ 40) % 2 = 1 then s
  else
    let b := s.bridge half
    match fdbFind b f.vid f.src with
    | some e =>
      if e.fixed then s
      else s.setBridge half { b with fdb := { e with ports := 2 ^ bp, seen := s.ref } :: (fdbDrop b f.vid f.src).fdb }
    | none =>
      if (fdbWays b f.vid f.src).length < 4 then s.setBridge half { b with fdb := ⟨f.vid, f.src, false, 2 ^ bp, s.ref⟩ :: b.fdb }
      else s

/-- Whether a bridge port can take a frame: an external port is RUNNING with its link up (R389). -/
def bridgePortUp (s : State) (half bp : Nat) : Bool := if bp < 20 then portUp s (20 * half + bp) else true

/-- The forwarding set of a frame, as bridge ports; none: the VLAN filter discards it (R389). -/
def forwardSet (s : State) (half bp : Nat) (f : EFrame) : Option (List Nat) :=
  let v := R.ETH_BR_VLAN (brBlock half) f.vid
  let member := s.f v F.ETH_BR_VLAN_member
  if !s.on v F.ETH_BR_VLAN_v || !member.testBit bp then none
  else
    let want := if f.dst / 16 = 0x0180C200000 then 2 ^ 20
      else match fdbFind (s.bridge half) f.vid f.dst with
        | some e => e.ports
        | none => member
    some ((List.range 22).filter (fun p => want.testBit p && p ≠ bp && member.testBit p && bridgePortUp s half p))

/-! ## The host port (R364, R378, R411) -/

/-- The queue pairs whose match kinds are written, in ascending order of tenant and queue pair. -/
def matchQps (s : State) (half : Nat) : List (Nat × Nat) :=
  s.regs.filterMap (fun e =>
    let o := e.1 - 0x6000000
    if 0x6000000 ≤ e.1 ∧ e.1 < 0x8000000 ∧ o % 0x1000 = 0x30 ∧ 1 ≤ o % 0x10000 / 0x1000 ∧ o % 0x10000 / 0x1000 ≤ 8
      ∧ (o / 0x10000 < 256 ↔ half = 0) then some (o / 0x10000, o % 0x10000 / 0x1000 - 1) else none)

/-- The kind of match entry `k` of a queue pair. -/
def entryKind (s : State) (t q k : Nat) : Nat := s.f (R.MEQ_QP_MKIND t q) F.MEQ_QP_MKIND_kinds / 4 ^ k % 4

/-- Whether match entry `k` of a queue pair matches a frame. -/
def entryMatches (s : State) (t q : Nat) (f : EFrame) (k : Nat) : Bool :=
  match kindKey f (entryKind s t q k) with
  | none => false
  | some v =>
    let m := s.reg (R.MEQ_QP_MMSK t q k)
    (BitVec.ofNat 64 v &&& m) = (s.reg (R.MEQ_QP_MVAL t q k) &&& m)

/-- The receive channel and entry that a frame from bridge port `bp` goes to (R378). -/
def classify (s : State) (half bp : Nat) (f : EFrame) : Option (Nat × Nat × Nat) :=
  (matchQps s half).findSome? (fun (t, q) =>
    if s.on (R.MEQ_QP_CFG t q) F.MEQ_QP_CFG_dir && decide (bp < 20) && (s.f (R.MEQ_QP_PORT t q) F.MEQ_QP_PORT_ports).testBit bp then
      ((List.range 4).find? (entryMatches s t q f)).map (fun k => (t, q, k))
    else none)

/-- What a receive channel sees of a frame: the whole frame in mode RAW, in mode MSG what follows the header that the match
kind names (R411). -/
def hostBytes (s : State) (t q k : Nat) (f : EFrame) : List Byte :=
  if s.on (R.MEQ_QP_CFG t q) F.MEQ_QP_CFG_mode then f.body.drop (kindEnd f (entryKind s t q k)) else if f.tagged then beBytes 6 f.dst ++ beBytes 6 f.src ++ beBytes 2 0x8100 ++ beBytes 2 f.tci ++ f.body else f.bytes false

/-- Step 9 at the host port: the checksum check, then classification (R387, R411). -/
def State.toHost (s : State) (half bp : Nat) (f : EFrame) : State :=
  if decide (bp < 20) && s.on (R.ETH_CFG (20 * half + bp)) F.ETH_CFG_csum && badChecksum f then s.ingressCount half bp 5
  else
    match classify s half bp f with
    | none => s.ingressCount half bp 12
    | some (t, q, k) =>
      let bs := hostBytes s t q k f
      if sramRoom s half bs.length then
        s.updQp t q (fun x => { x with arr := x.arr ++ [⟨bs, 20 * half + bp, f.ts⟩] })
      else s.ingressCount half bp 13

/-- Step 9 for one destination (R387). -/
def State.toPort (s : State) (half bp : Nat) (f : EFrame) (d : Nat) : State :=
  if d = 20 then s.toHost half bp f
  else if d = 21 then s.updGw half (fun g => { g with streams := g.streams ++ [f.body] })
  else s.egressEnqueue (20 * half + d) f.tc f

/-- Step 4: the VLAN and priority of a frame at its ingress port, and the acceptance filter (R388). -/
def classifyVlan (s : State) (half bp : Nat) (f : EFrame) : EFrame × Bool :=
  let a := R.ETH_BR_PORT (brBlock half) bp
  let isTagged := f.tagged && f.vid ≠ 0
  let f1 := if isTagged then f else { f with vid := s.f a F.ETH_BR_PORT_pvid, pcp := s.f a F.ETH_BR_PORT_dpcp }
  let tc := s.f (R.ETH_BR_PCPMAP (brBlock half) bp) F.ETH_BR_PCPMAP_tc / 8 ^ f1.pcp % 8
  let ok := match s.f a F.ETH_BR_PORT_accept with
    | 0 => true
    | 1 => isTagged
    | 2 => !isTagged
    | _ => false
  ({ f1 with tc := tc }, ok)

/-- Steps 4 to 9 of a frame from a port or the gateway (R387). -/
def State.ingress (s : State) (half bp : Nat) (f : EFrame) : State :=
  let c := classifyVlan s half bp f
  if !c.2 then s.ingressCount half bp 12
  else
    let r := streamSteps s half bp c.1
    match r.2 with
    | none => r.1
    | some f1 =>
      match forwardSet r.1 half bp f1 with
      | none => r.1.ingressCount half bp 12
      | some ds =>
        let s1 := r.1.learn half bp f1
        if ds = [] then s1.ingressCount half bp 12 else ds.foldl (fun s d => s.toPort half bp f1 d) s1

/-- Steps 5 to 7 and 9 of a queue pair's frame, bridge port 20: it is queued on every port given, in the class given unless
an internal priority is assigned; an NTSCF frame is also copied to the gateway (R387, R431). -/
def State.hostFrame (s : State) (half tc ports : Nat) (f : EFrame) : State :=
  let c := (classifyVlan s half 20 f).1
  let s0 := if f.ntscf then s.updGw half (fun g => { g with streams := g.streams ++ [f.body] }) else s
  let r := streamSteps s0 half 20 { c with tc := tc }
  match r.2 with
  | none => r.1
  | some f1 => ((List.range 20).filter (fun p => ports.testBit p)).foldl (fun s p =>
      if portUp s (20 * half + p) then s.putFrame (20 * half + p) f1.tc f1 else s.ethCount (20 * half + p) 16 1) r.1

end Sys2Proof.Machine
end

