-- ==== Sys2Proof/Machine/Pcie.lean ====
section
/-! DEFINITION. The PCI Express controllers (R229 to R242). -/

namespace Sys2Proof.Machine

/-- A command of one unit out of `n`. -/
def atUnit (n u : Nat) (s : State) (f : State → State) : Host.Outcome State Fault Refusal :=
  if u < n then .next (f s) else .fault .noSuchUnit

/-! ## Registers of a controller -/

def pcieState (s : State) (j : Nat) : Nat := s.f (R.PCIE_STAT j) F.PCIE_STAT_state
def pcieRunning (s : State) (j : Nat) : Bool := pcieState s j = 1
/-- Whether the controller is an endpoint. -/
def pcieEndpoint (s : State) (j : Nat) : Bool := s.on (R.PCIE_CFG j) F.PCIE_CFG_role
def pcieLink (s : State) (j : Nat) : Bool := s.on (R.PCIE_STAT j) F.PCIE_STAT_link

/-- A bit of PCIE_IRQ is set. -/
def State.pcieIrq (s : State) (j b : Nat) : State := s.setF (R.PCIE_IRQ j) ⟨b, 1⟩ 1

/-- An event that has a kind is recorded in PCIE_ERR, or sets over (R237). -/
def State.pcieErr (s : State) (j kind addr tenant : Nat) : State :=
  if s.on (R.PCIE_ERR j) F.PCIE_ERR_valid then s.setF (R.PCIE_ERR j) F.PCIE_ERR_over 1
  else (((s.setF (R.PCIE_ERR j) F.PCIE_ERR_addr addr).setF (R.PCIE_ERR j) F.PCIE_ERR_kind kind).setF (R.PCIE_ERR j)
    F.PCIE_ERR_tenant tenant).setF (R.PCIE_ERR j) F.PCIE_ERR_valid 1

/-- A counter of the controller gains `n`. -/
def State.pcieCount (s : State) (j i n : Nat) : State := s.incWrap (R.PCIE_CNT j i) F.PCIE_CNT_count n

/-- The packets that a command hands to the link, counted as sent. -/
def State.pcieSend (s : State) (j : Nat) (l : List LinkTx) : State :=
  (s.updPcie j (fun p => { p with tx := l })).pcieCount j 1 l.length

/-! ## The translation table (R231) -/

def attV (s : State) (j e : Nat) : Bool := s.on (R.PCIE_ATT0 j e) F.PCIE_ATT0_v
def attIn (s : State) (j e : Nat) : Bool := s.on (R.PCIE_ATT0 j e) F.PCIE_ATT0_dir
def attTenant (s : State) (j e : Nat) : Nat := s.f (R.PCIE_ATT0 j e) F.PCIE_ATT0_tenant
def attLg (s : State) (j e : Nat) : Nat := s.f (R.PCIE_ATT0 j e) F.PCIE_ATT0_log2
def attKind (s : State) (j e : Nat) : Bool := s.on (R.PCIE_ATT0 j e) F.PCIE_ATT0_kind
def attLocal (s : State) (j e : Nat) : Nat := s.f (R.PCIE_ATT1 j e) F.PCIE_ATT1_local * 4096
def attRemote (s : State) (j e : Nat) : Nat := s.f (R.PCIE_ATT2 j e) F.PCIE_ATT2_remote * 4096

/-- Whether two ranges of powers of two overlap. -/
def rangesMeet (a la b lb : Nat) : Bool := decide (a < b + 2 ^ lb) && decide (b < a + 2 ^ la)

/-- The valid entries of the table. -/
def attValid (s : State) (j : Nat) : List Nat := (List.range 512).filter (attV s j)

/-- Whether an entry meets the conditions of R231 against the other valid entries. -/
def attOk (s : State) (j e : Nat) : Bool :=
  let g := attLg s j e
  decide (12 ≤ g) && decide (g ≤ 36) && attLocal s j e % 2 ^ g = 0 && attRemote s j e % 2 ^ g = 0 &&
  (attIn s j e || decide (attLocal s j e + 2 ^ g ≤ 2 ^ 39)) &&
  (!attKind s j e || (!attIn s j e && !pcieEndpoint s j)) &&
  (attValid s j).all (fun x => x = e || attIn s j x ≠ attIn s j e ||
    (if attIn s j e then !rangesMeet (attRemote s j e) g (attRemote s j x) (attLg s j x)
     else attTenant s j x ≠ attTenant s j e || !rangesMeet (attLocal s j e) g (attLocal s j x) (attLg s j x)))

/-- PCIE_ATT_ENTRY_WRITE (R231): a write of the entry's first register. The other fields change only while the
controller is STOPPED or the entry is not valid; outside STOPPED a valid entry is checked, and refused with v 0. -/
def attWrite (j e : Nat) (v : Word) (s : State) : State :=
  let a := R.PCIE_ATT0 j e
  let w := BitVec.ofNat 64 (v.toNat % 2 ^ 22)
  if pcieState s j = 0 then s.setReg a w
  else if attV s j e then s.setF a F.PCIE_ATT0_v (fld v 0 1)
  else
    let s1 := s.setReg a w
    if fld v 0 1 = 0 ∨ attOk s1 j e then s1
    else ((s1.setF a F.PCIE_ATT0_v 0).setF (R.PCIE_STAT j) F.PCIE_STAT_att_err 1).setF (R.PCIE_STAT j) F.PCIE_STAT_att_idx e

/-- PCIE_ATT_ENTRY_WRITE (R231). -/
def execPcieAttEntryWrite (ag : Agent) (pcie entry : Nat) (v : Word) (s : State) : Host.Outcome State Fault Refusal :=
  if pcie < 2 ∧ entry < 512 then .next (regCmd .pcie (R.PCIE_ATT0 pcie entry) ag s (attWrite pcie entry v)) else .fault .noSuchUnit

/-! ## States (R230) -/

/-- The first failing check of a resume; 0 when none fails (R230). -/
def pcieReason (s : State) (j : Nat) : Nat :=
  let cfg := R.PCIE_CFG j
  let sp := s.f cfg F.PCIE_CFG_maxspeed
  let bar := fun i => s.f (R.PCIE_BAR j i) F.PCIE_BAR_log2
  let badBar := fun i => bar i ≠ 0 && (decide (bar i < 12) || decide (40 < bar i))
  let inb := (attValid s j).filter (attIn s j)
  let msi := s.f (R.PCIE_MSIADDR j) F.PCIE_MSIADDR_addr * 4
  if !domOn s (pcieDom j) then 1
  else if sp = 0 ∨ 5 < sp ∨ s.f cfg F.PCIE_CFG_maxwidth = 3 ∨ s.f cfg F.PCIE_CFG_mps = 3 ∨ 5 < s.f cfg F.PCIE_CFG_mrrs then 2
  else if pcieEndpoint s j && (badBar 0 || badBar 1 || (bar 0 = 0 && bar 1 = 0)) then 3
  else if !(attValid s j).all (attOk s j) then 4
  else if inb ≠ [] ∧ s.f (R.PCIE_TENT j) F.PCIE_TENT_base = 0 then 5
  else if !pcieEndpoint s j && inb.any (fun e => decide (attRemote s j e ≤ msi) && decide (msi < attRemote s j e + 2 ^ attLg s j e)) then 6
  else 0

/-- Whether a controller drives its reference clock: as root port, while it is RUNNING (R230). -/
def refclkDriven (s : State) (j : Nat) : Bool := pcieRunning s j && !pcieEndpoint s j

/-- Whether a controller drives CLKREQ_n low: as endpoint, while it is RUNNING (R230). -/
def clkreqLow (s : State) (j : Nat) : Bool := pcieRunning s j && pcieEndpoint s j

/-- PCIE_RESUME (R230): the validation; a controller that passes is RUNNING, and as root port holds PERST_n low for
2,500,000 [ref] more. -/
def pcieResume (j : Nat) (s : State) : State :=
  if pcieState s j ≠ 0 then s
  else
    let r := pcieReason s j
    if r ≠ 0 then s.setF (R.PCIE_STAT j) F.PCIE_STAT_reason r
    else (s.setF (R.PCIE_STAT j) F.PCIE_STAT_state 1).updPcie j (fun p =>
      if pcieEndpoint s j then p else { p with perst := false, perstAt := s.ref + 2500000 })

/-- PCIE_RESUME (R230): the block is served by its router's island, also while the controller's domain is OFF. -/
def execPcieResume (ag : Agent) (pcie : Nat) (s : State) : Host.Outcome State Fault Refusal :=
  atRunning 2 pcie (routerRuns s (pcieUnit pcie / 4)) s (fun s => regCmd .pcie (R.PCIE_CTL pcie) ag s (pcieResume pcie))

/-- Outbound requests that meet `p` are answered with a decode error (R230, R237). -/
def State.dropOut (s : State) (j : Nat) (p : OutReq → Bool) : State :=
  ((s.pcie j).out.filter p).foldl (fun s o => s.answer o.req .decodeError)
    (s.updPcie j (fun x => { x with out := x.out.filter (fun o => !p o) }))

/-- What a stop makes of an inbound TLP: unsent lines go, and a TLP with none left is over. -/
def InTlp.stopped (t : InTlp) : InTlp := { t with lines := t.lines.filter (fun l => l.tag.isSome && !l.done), cut := true }

/-- The controller begins to stop (R230). -/
def pcieStop (j : Nat) (s : State) : State :=
  if !pcieRunning s j then s
  else
    let reads := ((s.pcie j).inb.map (·.tlp) ++ (s.pcie j).rxq).filter (fun t => !t.write)
    let s1 := (s.setF (R.PCIE_STAT j) F.PCIE_STAT_state 2).dropOut j (fun _ => true)
    let s2 := s1.updPcie j (fun p => { p with inb := (p.inb.map InTlp.stopped).filter (fun t => t.lines ≠ []), rxq := [] })
    if reads = [] then s2 else s2.pcieSend j (reads.map (fun t => .completion t.tag 4 false []))

/-- PCIE_STOP (R230). -/
def execPcieStop (ag : Agent) (pcie : Nat) (s : State) : Host.Outcome State Fault Refusal :=
  atPcie pcie s (fun s => regCmd .pcie (R.PCIE_CTL pcie) ag s (pcieStop pcie))

/-- PCIE_STOP_COMPLETE (R230): with every mesh transaction over, the link goes to Detect; the configuration header that
the host set is gone with the link (PRESUMED, log 20). -/
def pcieStopped (j : Nat) (s : State) : State :=
  if pcieState s j ≠ 2 ∨ (s.pcie j).inb ≠ [] then s
  else
    let s1 := if pcieLink s j then s.pcieIrq j 0 else s
    ((((s1.setF (R.PCIE_STAT j) F.PCIE_STAT_state 0).setF (R.PCIE_STAT j) F.PCIE_STAT_link 0).setF (R.PCIE_STAT j)
      F.PCIE_STAT_speed 0).setF (R.PCIE_STAT j) F.PCIE_STAT_width 0).updPcie j (fun p =>
        { p with perst := false, command := 0, bars := [], msiEn := false, msiLog := 0, msiAddr := 0, msiData := 0, power := 0, caps := [] })

/-- PCIE_STOP_COMPLETE (R230). -/
def execPcieStopComplete (pcie : Nat) (s : State) : Host.Outcome State Fault Refusal := atPcie pcie s (pcieStopped pcie)

/-- PERST_RELEASE (R230). -/
def perstRelease (j : Nat) (s : State) : State :=
  if pcieRunning s j && !pcieEndpoint s j && decide ((s.pcie j).perstAt ≤ s.ref) then s.updPcie j (fun p => { p with perst := true })
  else s

/-- PERST_RELEASE (R230). -/
def execPerstRelease (pcie : Nat) (s : State) : Host.Outcome State Fault Refusal := atPcie pcie s (perstRelease pcie)

/-- PERST_FALL (R230): as endpoint, the fall acts as a stop. -/
def perstFall (j : Nat) (s : State) : State :=
  let s1 := s.updPcie j (fun p => { p with perstIn := false })
  if pcieRuns s j && pcieEndpoint s j then pcieStop j s1 else s1

/-- PERST_FALL (R230). -/
def execPerstFall (pcie : Nat) (s : State) : Host.Outcome State Fault Refusal := atUnit 2 pcie s (perstFall pcie)

/-- PERST_RISE (R230): an endpoint may train from here on. -/
def execPerstRise (pcie : Nat) (s : State) : Host.Outcome State Fault Refusal :=
  atUnit 2 pcie s (fun s => s.updPcie pcie (fun p => { p with perstIn := true }))

/-- WAKE_FALL (R230). -/
def execWakeFall (pcie : Nat) (s : State) : Host.Outcome State Fault Refusal :=
  atPcie pcie s (fun s => if pcieEndpoint s pcie then s else s.pcieIrq pcie 0)

/-- PCIE_LINK_CHANGE (R230, R237): a running controller whose PERST_n is high brings its link up, at a speed and width it
allows; at a fall the outbound requests in flight are answered with a decode error. -/
def linkChange (j : Nat) (up : Bool) (speed width : Nat) (s : State) : State :=
  if up then
    let cfg := R.PCIE_CFG j
    let ready := pcieRunning s j && (if pcieEndpoint s j then (s.pcie j).perstIn else (s.pcie j).perst)
    if ready && !pcieLink s j && decide (1 ≤ speed) && decide (speed ≤ s.f cfg F.PCIE_CFG_maxspeed) && decide (width ≤ s.f cfg F.PCIE_CFG_maxwidth) then
      (((s.setF (R.PCIE_STAT j) F.PCIE_STAT_link 1).setF (R.PCIE_STAT j) F.PCIE_STAT_speed speed).setF (R.PCIE_STAT j)
        F.PCIE_STAT_width width).pcieIrq j 0
    else s
  else if pcieLink s j then
    ((((s.setF (R.PCIE_STAT j) F.PCIE_STAT_link 0).setF (R.PCIE_STAT j) F.PCIE_STAT_speed 0).setF (R.PCIE_STAT j)
      F.PCIE_STAT_width 0).pcieIrq j 0).dropOut j (fun _ => true)
  else s

/-- PCIE_LINK_CHANGE (R237). -/
def execPcieLinkChange (pcie : Nat) (up : Bool) (speed width : Nat) (s : State) : Host.Outcome State Fault Refusal :=
  atPcie pcie s (linkChange pcie up speed width)

/-! ## Outbound requests (R232) -/

/-- The offset of a window access in its controller's window. -/
def windowOff (j pa : Nat) : Nat := pa - (0xC0000000000 + j * 0x8000000000)

/-- The outbound entry that serves a tenant's offset. -/
def outEntry (s : State) (j tenant o : Nat) : Option Nat :=
  (attValid s j).find? (fun e => !attIn s j e && attTenant s j e = tenant && decide (attLocal s j e ≤ o) && decide (o < attLocal s j e + 2 ^ attLg s j e))

/-- The bytes that a write request writes, as runs: the address of each run's first byte and its bytes. -/
def writtenRuns (p : Pkt) : List (Nat × List Byte) :=
  let byte := fun (i : Nat) => (BitVec.ofNat 8 (lineField p.data i 1) : Byte)
  let line := p.pa / 64 * 64
  (List.range 64).foldr (fun i runs =>
    if !p.mask.getLsbD i then runs
    else match runs with
      | (a, l) :: rest => if a = line + i + 1 then (line + i, byte i :: l) :: rest else (line + i, [byte i]) :: runs
      | [] => [(line + i, [byte i])]) []

/-- The first byte that a write request writes, and the bytes from it to the end of their run. -/
def writtenBytes (p : Pkt) : Nat × List Byte := (writtenRuns p).headD (p.pa / 64 * 64, [])

/-- The bytes that a read request asks for: those of its mask, else its size (log 83). -/
def readLen (p : Pkt) : Nat := if p.mask = 0 then 2 ^ p.size else ((List.range 64).filter (fun i => p.mask.getLsbD i)).length

/-- The data of a read as its answer carries it: a line holds the bytes read at their place. -/
def atPlace (p : Pkt) (v : Nat) : Nat := if p.size = 6 then v <<< (8 * (p.pa % 64)) else v

/-- Whether another window access that reached the controller earlier still waits there (R232). -/
def outWaits (s : State) (j : Nat) (p : Pkt) : Bool :=
  (s.inbox.takeWhile (fun q => q ≠ p)).any (fun q => q.net = 0 && q.dst = pcieUnit j && addrClass q.pa = addrClass p.pa)

/-- Whether a request packet is a write. -/
def isWrite (p : Pkt) : Bool := p.typ = 8 || p.typ = 9 || p.typ = 0xB

/-- PCIE_OUTBOUND_REQUEST (R232): the entry, the TLP and, for a posted write, the acknowledgement; a non-posted request
beyond the 32 outstanding waits, and the requests after it behind it. -/
def outbound (j : Nat) (p : Pkt) (s : State) : State :=
  let o := windowOff j p.pa
  if !pcieRunning s j then (s.take p).answer p .decodeError
  else
    match outEntry s j p.tenant o with
    | none => (((s.take p).answer p .decodeError).pcieIrq j 3).pcieErr j 4 o p.tenant
    | some e =>
      if pcieEndpoint s j && (!(s.pcie j).command.getLsbD 2 || (s.pcie j).power = 3) then (s.take p).answer p .decodeError
      else if outWaits s j p then s
      else
        let off := o - attLocal s j e
        let n := 2 ^ p.size
        let late := s.ref + max 1 (s.f (R.PCIE_CFG j) F.PCIE_CFG_cto) * 64
        let keep := fun (cfg : Bool) (l : LinkTx) => ((s.take p).updPcie j (fun x => { x with out := x.out ++ [⟨p, o, cfg, late, l⟩] })).pcieSend j [l]
        if attKind s j e then
          if 2 < p.size ∨ off % n ≠ 0 then (s.take p).answer p .decodeError
          else if 32 ≤ (s.pcie j).out.length then s
          else
            let d := if isWrite p then bytesNat (writtenBytes p).2 else 0
            keep true (.config (isWrite p) ((off >>> 20) % 256 ≠ s.f (R.PCIE_CFG j) F.PCIE_CFG_secbus) (off % 2 ^ 28) ((2 ^ n - 1) <<< (off % 4)) d)
        else
          let ro := s.on (R.PCIE_ATT0 j e) F.PCIE_ATT0_ro
          let tc := s.f (R.PCIE_ATT0 j e) F.PCIE_ATT0_tc
          if isWrite p then
            ((s.take p).pcieSend j ((writtenRuns p).map (fun w =>
              .memory { write := true, addr := attRemote s j e + (windowOff j w.1 - attLocal s j e), len := w.2.length, ro := ro, data := w.2, poisoned := p.poison } ro tc))).answer p (.data 0)
          else if 32 ≤ (s.pcie j).out.length then s
          else keep false (.memory { write := false, addr := attRemote s j e + off, len := readLen p, ro := ro, tag := p.tag } ro tc)

/-- PCIE_OUTBOUND_REQUEST (R232). -/
def execPcieOutboundRequest (pcie : Nat) (p : Pkt) (s : State) : Host.Outcome State Fault Refusal :=
  atPcie pcie s (outbound pcie p)

/-- PCIE_COMPLETION_RECEIVE (R232, R237): a completion for the outstanding request at place `k`. A successful one is
answered; after a retry status a configuration request is sent again; any other, or a poisoned one, is answered with a decode error
and recorded. With no such request it is discarded. -/
def completion (j k status : Nat) (poisoned : Bool) (data : Nat) (s : State) : State :=
  let s := s.pcieCount j 0 1
  match (s.pcie j).out[k]? with
  | none => s
  | some o =>
    let gone := s.updPcie j (fun x => { x with out := x.out.eraseIdx k })
    if status = 0 ∧ !poisoned then gone.answer o.req (.data (if isWrite o.req then 0 else atPlace o.req data))
    else if status = 2 ∧ !poisoned ∧ o.cfg then s.pcieSend j [o.tlp]
    else ((gone.answer o.req .decodeError).pcieIrq j 4).pcieErr j 6 o.off o.req.tenant

/-- PCIE_COMPLETION_RECEIVE (R232). -/
def execPcieCompletionReceive (pcie k status : Nat) (poisoned : Bool) (data : Nat) (s : State) : Host.Outcome State Fault Refusal :=
  atPcie pcie s (completion pcie k status poisoned data)

/-- PCIE_COMPLETION_TIMEOUT (R232). -/
def completionTimeout (j k : Nat) (s : State) : State :=
  match (s.pcie j).out[k]? with
  | none => s
  | some o =>
    if o.late ≤ s.ref then
      (((s.updPcie j (fun x => { x with out := x.out.eraseIdx k })).answer o.req .decodeError).pcieIrq j 4).pcieErr j 5 o.off o.req.tenant
    else s

/-- PCIE_COMPLETION_TIMEOUT (R232). -/
def execPcieCompletionTimeout (pcie k : Nat) (s : State) : Host.Outcome State Fault Refusal :=
  atPcie pcie s (completionTimeout pcie k)

/-! ## Inbound requests (R233, R234) -/

/-- The inbound entry whose remote range holds the whole TLP. -/
def inEntry (s : State) (j : Nat) (t : Tlp) : Option Nat :=
  (attValid s j).find? (fun e => attIn s j e && decide (attRemote s j e ≤ t.addr) && decide (t.addr + t.len ≤ attRemote s j e + 2 ^ attLg s j e))

/-- Whether an endpoint's TLP lies in an enabled BAR, with Memory Space Enable set (R236); in D3hot it answers none (R229; log 84). -/
def inBars (s : State) (j : Nat) (t : Tlp) : Bool :=
  (s.pcie j).command.getLsbD 1 && (s.pcie j).power ≠ 3 && (List.range 2).any (fun i =>
    let g := s.f (R.PCIE_BAR j i) F.PCIE_BAR_log2
    let b := (mget 0 (s.pcie j).bars i).toNat / 2 ^ g * 2 ^ g
    g ≠ 0 && decide (b ≤ t.addr) && decide (t.addr + t.len ≤ b + 2 ^ g))

/-- Stage 2 of a controller's inbound access (R233, R340): the physical address; none: it fails. -/
def pcieStage2 (s : State) (j tenant ipa : Nat) (write : Bool) : Option (Nat × S2Out) :=
  let e : WalkEnv := { ans := [], map := (s.pcie j).map, closed := false, wc2 := (s.pcie j).cache }
  let base := s.f (R.PCIE_TENT j) F.PCIE_TENT_base * 8192
  let r := walkNow s e (fun e =>
    if e.wc2.any (fun c => c.tenant = tenant && c.page = ipa / 4096) then stage2 e tenant 0 ipa false
    else (wreadOr e (base + 16 * tenant) 4 true 0 false).bind (fun w0 =>
      if !bit w0 0 || fld w0 2 6 ≠ 0 || fld w0 44 20 ≠ 0 then .fault ⟨4, true, 1, false, 0⟩
      else stage2 e tenant (fld w0 8 36 * 256) ipa false)) 8
  match r with
  | .ok o => if o.r && (!write || o.w) && o.mt ≠ .device && !forcedDevice o.pa then some (o.pa, o) else none
  | _ => none

/-- The pages of a TLP translated: each page's intermediate number and result; none: one of them fails. -/
def pciePages (s : State) (j tenant : Nat) (write : Bool) : List Nat → Option (List (Nat × S2Out))
  | [] => some []
  | p :: ps =>
    match pcieStage2 s j tenant (p * 4096) write, pciePages s j tenant write ps with
    | some o, some l => some ((p, o.2) :: l)
    | _, _ => none

/-- The physical address of an intermediate address by translated pages. -/
def pagePa (l : List (Nat × S2Out)) (ipa : Nat) : Nat :=
  match l.find? (fun q => q.1 = ipa / 4096) with
  | some q => q.2.pa / 4096 * 4096 + ipa % 4096
  | none => 0

/-- The numbers of the 64-byte pieces that `n` bytes from `a` touch, and of the aligned doublewords. -/
def piecesOf (u a n : Nat) : List Nat := if n = 0 then [] else (List.range ((a + n - 1) / u - a / u + 1)).map (a / u + ·)

/-- The requests of a TLP's line that starts at intermediate address `l * 64` (R233). -/
def lineReqs (t : Tlp) (ipa : Nat) (pages : List (Nat × S2Out)) (l : Nat) : List PLine :=
  let base := l * 64
  let lo := max ipa base
  let hi := min (ipa + t.len) (base + 64)
  let pa := pagePa pages base
  if !t.write then [{ pa := pa, n := 64 }]
  else
    let d : Line := (List.range (hi - lo)).foldl (fun d i => setLineField d (lo - base + i) 1 (t.data.getD (lo - ipa + i) 0).toNat) 0
    if hi - lo = 64 then [{ pa := pa, n := 64, full := true, data := d, mask := BitVec.allOnes 64 }]
    else (piecesOf 8 (lo - base) (hi - lo)).map (fun w =>
      let a := max (lo - base) (8 * w)
      let b := min (hi - base) (8 * w + 8)
      { pa := pa + 8 * w, n := 8, data := d, mask := byteMask a (b - a) })

/-- The lines of a TLP. -/
def tlpLines (t : Tlp) (ipa : Nat) (pages : List (Nat × S2Out)) : List PLine :=
  (piecesOf 64 ipa t.len).flatMap (lineReqs t ipa pages)

/-- The request packet of a line of an inbound TLP; the data of a poisoned write is poisoned (R229, R289; log 84). -/
def pcieReq (s : State) (j : Nat) (t : InTlp) (l : PLine) : Pkt :=
  { net := 0, typ := if !t.tlp.write then 7 else if l.full then 9 else 8, src := pcieUnit j, dst := targetUnit (s.pcie j).map l.pa,
    tenant := t.tenant, size := if l.n = 64 then 6 else 3, mt := MType.nc.code, pa := l.pa, data := l.data, mask := l.mask, poison := t.tlp.write && t.tlp.poisoned }

/-- A mesh transaction of an inbound TLP ended badly (R237). -/
def State.lineBad (s : State) (j : Nat) (t : InTlp) : State := (s.pcieIrq j 2).pcieErr j 3 t.tlp.addr t.tenant

/-- One line of a TLP is sent; the router's decode error closes it at once (R43). -/
def State.sendLine (s : State) (j : Nat) (t : InTlp) (l : PLine) : State × PLine :=
  if decodeFails (s.router (pcieUnit j / 4)).map false t.tlp.write l.pa then (s.lineBad j t, { l with tag := some 256, done := true, bad := true })
  else (s.request (pcieReq s j t l), { l with tag := some (s.nextTag (pcieUnit j)), late := rtoLate s (pcieUnit j / 4) })

/-- The lines of a TLP are sent. -/
def State.sendLines (s : State) (j : Nat) (t : InTlp) : List PLine → State × List PLine
  | [] => (s, [])
  | l :: ls =>
    let r := if l.tag.isSome then (s, l) else s.sendLine j t l
    let q := r.1.sendLines j t ls
    (q.1, r.2 :: q.2)

/-- Every waiting TLP sends what the ordering of R234 allows: with relaxed ordering clear, nothing while an earlier write
is unacknowledged. -/
def State.pumpTlps (s : State) (j : Nat) (earlierWrite : Bool) : List InTlp → State × List InTlp
  | [] => (s, [])
  | t :: ts =>
    let r := if !t.cut && (t.tlp.ro || !earlierWrite) then s.sendLines j t t.lines else (s, t.lines)
    let q := r.1.pumpTlps j (earlierWrite || (t.tlp.write && r.2.any (fun l => !l.done))) ts
    (q.1, { t with lines := r.2 } :: q.2)

/-- The bytes that a completion of one line of a read carries (R234). -/
def lineBytes (t : Tlp) (ipa : Nat) (l : PLine) (i : Nat) : List Byte :=
  let base := (ipa / 64 + i) * 64
  let lo := max ipa base
  let hi := min (ipa + t.len) (base + 64)
  (List.range (hi - lo)).map (fun x => BitVec.ofNat 8 (lineField l.got (lo - base + x) 1))

/-- The completions of a read, one for each 64-byte boundary, in address order; a bad line's has the poisoned bit. -/
def readCompletions (t : InTlp) : List LinkTx :=
  (t.lines.zipIdx).map (fun q => .completion t.tlp.tag 0 q.1.bad (lineBytes t.tlp (t.tlp.addr % 64) q.1 q.2))

/-- A TLP whose lines are all answered leaves: a read's completions go to the link (R234). -/
def State.finishTlp (s : State) (j : Nat) (t : InTlp) : State :=
  let s1 := s.updPcie j (fun p => { p with inb := p.inb.filter (fun x => x.seq ≠ t.seq) })
  if t.cut || t.tlp.write then s1 else s1.pcieSend j (readCompletions t)

/-- What can be sent is sent, and what is over leaves. -/
def State.pciePump (s : State) (j : Nat) : State :=
  let r := s.pumpTlps j false (s.pcie j).inb
  let s1 := r.1.updPcie j (fun p => { p with inb := r.2 })
  (r.2.filter (fun t => t.lines.all (·.done))).foldl (fun s t => s.finishTlp j t) s1

/-- An inbound TLP is refused: a read is completed with a status, a write discarded (R233, R237). -/
def State.refuseTlp (s : State) (j : Nat) (t : Tlp) (status kind tenant : Nat) : State :=
  let s1 := ((s.pcieIrq j 1).pcieErr j kind t.addr tenant).pcieCount j 7 1
  if t.write then s1 else s1.pcieSend j [.completion t.tag status false []]

/-- An MSI write as root port (R235). -/
def State.msi (s : State) (j data : Nat) : State :=
  if 1 ≤ data ∧ data < 32 then s.setF (R.PCIE_MSI j) F.PCIE_MSI_pend (s.f (R.PCIE_MSI j) F.PCIE_MSI_pend ||| 2 ^ (data - 1))
  else s.pcieIrq j 7

/-- Whether a TLP is an MSI write of a root port. -/
def isMsi (s : State) (j : Nat) (t : Tlp) : Bool :=
  !pcieEndpoint s j && t.kind = .memory && t.write && decide (t.len ≤ 4) && t.addr = s.f (R.PCIE_MSIADDR j) F.PCIE_MSIADDR_addr * 4

/-- A TLP that leaves the receive buffer is handled (R229, R233 to R237): its entry, its pages, and its lines sent as the ordering allows.
A message is only counted, and one whose ECRC is bad is discarded as an uncorrectable error where ECRC is checked (log 84). -/
def State.admitTlp (s : State) (j : Nat) (t : Tlp) : State :=
  if t.badEcrc && s.on (R.PCIE_CFG j) F.PCIE_CFG_ecrc then ((s.pcieCount j 0 1).pcieCount j 6 1).pcieIrq j 6
  else if t.kind = .message then s.pcieCount j 0 1
  else if t.kind = .unsupported then ((s.pcieCount j 0 1).pcieCount j 7 1).pcieSend j [.completion t.tag 1 false []]
  else if isMsi s j t then (s.pcieCount j 0 1).msi j (bytesNat t.data)
  else if pcieEndpoint s j && !inBars s j t then (s.pcieCount j 0 1).refuseTlp j t 1 1 0
  else
    match inEntry s j t with
    | none => (s.pcieCount j 0 1).refuseTlp j t 1 1 0
    | some e =>
      let ten := attTenant s j e
      let ipa := attLocal s j e + (t.addr - attRemote s j e)
      match pciePages s j ten t.write (piecesOf 4096 ipa t.len) with
      | none => (s.pcieCount j 0 1).refuseTlp j t 4 2 ten
      | some pages =>
        let put := (pages.map (fun q => wc2Of ten (q.1 * 4096) q.2)).reverse
        (((s.pcieCount j 0 1).pcieCount j (if t.write then 2 else 3) t.len).updPcie j (fun p =>
          { p with cache := (put ++ p.cache.filter (fun c => !put.any (fun x => x.tenant = c.tenant && x.page = c.page))).take 64,
                   inb := p.inb ++ [{ seq := p.next, tlp := t, tenant := ten, lines := tlpLines t ipa pages, pages := pages.map (·.1) }],
                   next := p.next + 1 })).pciePump j

/-- The TLPs of the receive buffer are handled in order, until 32 are in progress (R234). -/
def State.drainRx (s : State) (j : Nat) : State :=
  (s.pcie j).rxq.foldl (fun s t => if (s.pcie j).rxq = [] ∧ (s.pcie j).inb.length < 32 then s.admitTlp j t else s.updPcie j (fun p => { p with rxq := p.rxq ++ [t] }))
    (s.updPcie j (fun p => { p with rxq := [] }))

/-- PCIE_INBOUND_TLP (R233 to R237): the TLP enters the receive buffer, and leaves it at once while fewer than 32 are in progress and none
waits before it. -/
def inboundTlp (j : Nat) (t : Tlp) (s : State) : State :=
  if !pcieRunning s j || !pcieLink s j then s
  else (s.updPcie j (fun p => { p with rxq := p.rxq ++ [t] })).drainRx j

/-- PCIE_INBOUND_TLP (R233). -/
def execPcieInboundTlp (pcie : Nat) (t : Tlp) (s : State) : Host.Outcome State Fault Refusal :=
  atPcie pcie s (inboundTlp pcie t)

/-- An answer to a line: data or an acknowledgement, or a bad end. -/
def PLine.answered (l : PLine) (a : MemAns) : PLine :=
  match a with
  | .data v => { l with done := true, got := BitVec.ofNat 512 v }
  | _ => { l with done := true, bad := true }

/-- The packet that answers a unit's request with a tag. -/
def findReply (s : State) (u tag : Nat) : Option Pkt := s.inbox.find? (fun p => p.dst = u && p.tag = tag && (p.net = 1 || p.net = 3))

/-- The line that was sent with a tag is closed by an answer, and what that lets go goes; a bad end is recorded (R234, R237). -/
def State.closeLine (s : State) (j tag : Nat) (ans : MemAns) : State :=
  let open_ := fun (l : PLine) => l.tag = some tag && !l.done
  let bad := (s.pcie j).inb.filter (fun t => t.lines.any (fun l => open_ l && (l.answered ans).bad))
  let s1 := s.updPcie j (fun p => { p with inb := p.inb.map (fun t => { t with lines := t.lines.map (fun l => if open_ l then l.answered ans else l) }) })
  ((bad.foldl (fun s t => s.lineBad j t) s1).pciePump j).drainRx j

/-- PCIE_INBOUND_LINE_ANSWER (R234, R237, R240, R291): the packet that waits closes the line sent with a tag; a request that has reached a
unit outside DRAM is served there; one that is late ends. -/
def lineAnswer (j tag : Nat) (ans : MemAns) (s : State) : State :=
  match (s.pcie j).inb.findSome? (fun t => t.lines.find? (fun l => l.tag = some tag && !l.done)) with
  | none => s
  | some l =>
    match findReply s (pcieUnit j) tag with
    | some p => (s.take p).closeLine j tag ((ansOf p).getD .poison)
    | none =>
      if ans ≠ .timeout then s.serveRead (pcieUnit j) tag ans
      else if s.ref < l.late then s
      else (s.loseTag (pcieUnit j) tag).closeLine j tag ans

/-- PCIE_INBOUND_LINE_ANSWER (R240). -/
def execPcieInboundLineAnswer (pcie tag : Nat) (ans : MemAns) (s : State) : Host.Outcome State Fault Refusal :=
  atPcie pcie s (lineAnswer pcie tag ans)

/-! ## Message-signalled interrupts, configuration, link events (R235 to R237) -/

/-- PCIE_MSI_RECEIVE (R235): a write of at most 4 bytes to the MSI address of a root port. -/
def msiReceive (j addr data : Nat) (s : State) : State :=
  if pcieRunning s j && pcieLink s j && !pcieEndpoint s j && addr = s.f (R.PCIE_MSIADDR j) F.PCIE_MSIADDR_addr * 4 then
    (s.pcieCount j 0 1).msi j data
  else s

/-- PCIE_MSI_RECEIVE (R235). -/
def execPcieMsiReceive (pcie addr data : Nat) (s : State) : Host.Outcome State Fault Refusal :=
  atPcie pcie s (msiReceive pcie addr data)

/-- PCIE_MSIGEN (R235): as endpoint, one MSI is sent where the host allows it; else msi_off is set. -/
def msiGen (j vec : Nat) (s : State) : State :=
  let p := s.pcie j
  if !pcieEndpoint s j then s
  else if p.msiEn && p.command.getLsbD 2 && p.power ≠ 3 && decide (vec % 32 < 2 ^ p.msiLog) then
    s.pcieSend j [.msi p.msiAddr.toNat (p.msiData + vec % 32)]
  else s.pcieIrq j 8

/-- PCIE_MSIGEN (R235). -/
def execPcieMsigen (ag : Agent) (pcie vec : Nat) (s : State) : Host.Outcome State Fault Refusal :=
  atPcie pcie s (fun s => regCmd .pcie (R.PCIE_MSIGEN pcie) ag s (msiGen pcie vec))

/-- The mask of the writable address bits of a BAR; 0 where it is disabled (R236). -/
def barMask (s : State) (j i : Nat) : Word :=
  let g := s.f (R.PCIE_BAR j i) F.PCIE_BAR_log2
  if g = 0 then 0 else BitVec.ofNat 64 (2 ^ 64 - 2 ^ g)

/-- The value that the host reads from a register of the header (R236): a 64-bit prefetchable memory BAR carries 0xC in
its low bits, and the MSI capability shows 64-bit addressing and 32 vectors (PRESUMED, log 20); a register whose contents the spec
leaves to the PCI Express specification is free, and keeps the value it has. -/
def cfgRead (s : State) (j : Nat) (r : CfgReg) : Nat :=
  let p := s.pcie j
  let bar := fun i => if barMask s j i = 0 then 0 else (mget 0 p.bars i).toNat + 0xC
  match r with
  | .id => (s.reg (R.PCIE_EPID j)).toNat
  | .command => p.command.toNat
  | .classCode => 0x0B4000
  | .barLo i => bar i % 2 ^ 32
  | .barHi i => bar i / 2 ^ 32
  | .headerType => 0
  | .power => p.power
  | .msiControl => (if p.msiEn then 1 else 0) + 2 * 5 + 16 * p.msiLog + 128
  | .msiAddrLo => p.msiAddr.toNat % 2 ^ 32
  | .msiAddrHi => p.msiAddr.toNat / 2 ^ 32
  | .msiData => p.msiData
  | .other o => mget (Config.pcieCap j o).toNat p.caps o

/-- The host writes a register of the header (R236): the power state takes D0 and D3hot (R229); what a write makes of a register that the
spec leaves to the PCI Express specification is free (log 20). -/
def cfgWrite (s : State) (j : Nat) (r : CfgReg) (v : Nat) : State :=
  let put := fun i (w : Word) => s.updPcie j (fun p => { p with bars := mset p.bars i (w &&& barMask s j i) })
  let old := fun i => mget 0 (s.pcie j).bars i
  match r with
  | .command => s.updPcie j (fun p => { p with command := BitVec.ofNat 16 v })
  | .barLo i => if i < 2 then put i (setFld (old i) 0 32 v) else s
  | .barHi i => if i < 2 then put i (setFld (old i) 32 32 v) else s
  | .msiControl => s.updPcie j (fun p => { p with msiEn := v % 2 = 1, msiLog := min 5 (v / 16 % 8) })
  | .msiAddrLo => s.updPcie j (fun p => { p with msiAddr := setFld p.msiAddr 0 32 (v / 4 * 4) })
  | .msiAddrHi => s.updPcie j (fun p => { p with msiAddr := setFld p.msiAddr 32 32 v })
  | .msiData => s.updPcie j (fun p => { p with msiData := v % 2 ^ 16 })
  | .id => s
  | .classCode => s
  | .headerType => s
  | .power => if v % 4 = 0 ∨ v % 4 = 3 then s.updPcie j (fun p => { p with power := v % 4 }) else s
  | .other o => (s.draw).updPcie j (fun p => { p with caps := mset p.caps o ((Config.freeWord s.draws).toNat % 2 ^ 32) })

/-- PCIE_CONFIG_REQUEST (R236): an endpoint answers each configuration request of the host; other controllers receive
none, and answer it Unsupported Request (R229). -/
def configRequest (j : Nat) (write : Bool) (r : CfgReg) (v : Nat) (s : State) : State :=
  if !pcieRunning s j || !pcieLink s j then s
  else
    let s := s.pcieCount j 0 1
    if !pcieEndpoint s j then s.pcieSend j [.configAnswer 1 0]
    else if write then (cfgWrite s j r v).pcieSend j [.configAnswer 0 0]
    else s.pcieSend j [.configAnswer 0 (cfgRead s j r)]

/-- PCIE_CONFIG_REQUEST (R236). -/
def execPcieConfigRequest (pcie : Nat) (write : Bool) (reg : CfgReg) (v : Nat) (s : State) : Host.Outcome State Fault Refusal :=
  atPcie pcie s (configRequest pcie write reg v)

/-- INTX_MESSAGE (R237). -/
def execIntxMessage (pcie : Nat) (s : State) : Host.Outcome State Fault Refusal :=
  atPcie pcie s (fun s => if pcieRunning s pcie && pcieLink s pcie then (s.pcieCount pcie 0 1).pcieIrq pcie 9 else s)

/-- PCIE_LINK_ERROR (R237): a correctable error is counted, with the replay that corrected it if there was one; an
uncorrectable one retrains the link, and the outbound reads in flight are answered with a decode error. -/
def linkError (j : Nat) (correctable replay : Bool) (s : State) : State :=
  if !pcieLink s j then s
  else if correctable then
    let s1 := (s.pcieCount j 5 1).pcieIrq j 5
    if replay then s1.pcieCount j 4 1 else s1
  else ((s.pcieCount j 6 1).pcieIrq j 6).dropOut j (fun o => !isWrite o.req)

/-- PCIE_LINK_ERROR (R237). -/
def execPcieLinkError (pcie : Nat) (correctable replay : Bool) (s : State) : Host.Outcome State Fault Refusal :=
  atPcie pcie s (linkError pcie correctable replay)

end Sys2Proof.Machine
end

