-- ==== Sys2Proof/Machine/Ethernet.lean ====
section
/-! DEFINITION. The commands of the Ethernet ports, their bridges, time, schedules and MACsec keys (R382 to R415). -/

namespace Sys2Proof.Machine

def portState (s : State) (p : Nat) : Nat := s.f (R.ETH_STAT p) F.ETH_STAT_state

/-- A bit of ETH_IRQ is set: 0 link, 1 pn_thr, 2 pn_out, 3 gate, 4 diag, 5 sa (R413). -/
def State.ethIrq (s : State) (p i : Nat) : State := s.setReg (R.ETH_IRQ p) (setBit (s.reg (R.ETH_IRQ p)) i true)

/-! ## The port function (R382 to R385) -/

/-- The first check of a resume that fails; 0: none does (R382). -/
def ethReason (s : State) (p : Nat) : Nat :=
  let a := R.ETH_CFG p
  let m := R.ETH_MSCFG p
  let maxf := s.f a F.ETH_CFG_maxf
  let role := s.f a F.ETH_CFG_role
  if (Config.speedRow (p % 20) (s.f a F.ETH_CFG_speed)).isNone then 1
  else if maxf < 60 ∨ 9212 < maxf then 2
  else if !domOn s (portDom p) then 3
  else if s.on m F.ETH_MSCFG_en && (s.f m F.ETH_MSCFG_cipher = 3 || s.f m F.ETH_MSCFG_coff = 3 || s.f m F.ETH_MSCFG_validate = 3
      || (s.on m F.ETH_MSCFG_xpn && s.f m F.ETH_MSCFG_cipher = 2)) then 4
  else if (role = 0 ∧ !s.on a F.ETH_CFG_an) ∨ role = 3 then 5
  else 0

/-- ETH_CTL.resume (R382); at SAFE-STATE the port stays stopped (R477). -/
def ethResume (p : Nat) (s : State) : State :=
  if portState s p ≠ 0 || heldInReset s (p / 20) then s
  else
    let r := ethReason s p
    if r ≠ 0 then s.setF (R.ETH_STAT p) F.ETH_STAT_reason r else s.setF (R.ETH_STAT p) F.ETH_STAT_state 1

/-- ETH_RESUME (R382). -/
def execEthResume (ag : Agent) (port : Nat) (s : State) : Host.Outcome State Fault Refusal :=
  atPort port s (fun s => regCmd .eth (R.ETH_CTL port) ag s (ethResume port))

/-- Frames that wait for egress. -/
def queuedFrames (x : EthPort) : Nat := (x.queues.map (fun q => q.2.length)).sum

/-- ETH_CTL.stop: the queued frames are discarded into counter 16 (R382). -/
def ethStop (p : Nat) (s : State) : State :=
  if portState s p ≠ 1 then s
  else ((s.ethCount p 16 (queuedFrames (s.port p))).updPort p (fun x => { x with queues := [] })).setF (R.ETH_STAT p) F.ETH_STAT_state 2

/-- ETH_STOP (R382). -/
def execEthStop (ag : Agent) (port : Nat) (s : State) : Host.Outcome State Fault Refusal :=
  atPort port s (fun s => regCmd .eth (R.ETH_CTL port) ag s (ethStop port))

/-- A port's link goes down (R384, R385, R412). -/
def State.linkGone (s : State) (p : Nat) : State :=
  if s.on (R.ETH_STAT p) F.ETH_STAT_link then
    (((s.setF (R.ETH_STAT p) F.ETH_STAT_link 0).setF (R.ETH_STAT p) F.ETH_STAT_sqi 0).ethCount p 20 1).ethIrq p 0
  else s

/-- ETH_STOP_COMPLETE (R382). -/
def ethStopComplete (p : Nat) (s : State) : State :=
  if portState s p ≠ 2 then s
  else ((s.updPort p (fun x => { x with tx := none })).linkGone p).setF (R.ETH_STAT p) F.ETH_STAT_state 0

/-- ETH_STOP_COMPLETE (R382). -/
def execEthStopComplete (port : Nat) (s : State) : Host.Outcome State Fault Refusal := atPort port s (ethStopComplete port)

/-- ETH_LINK_CHANGE (R384, R394): a RUNNING port's link comes up at a speed its type has, or drops. -/
def ethLinkChange (p : Nat) (up : Bool) (speed : Nat) (isMaster : Bool) (sqi : Nat) (s : State) : State :=
  if portState s p ≠ 1 ∨ s.on (R.ETH_STAT p) F.ETH_STAT_link = up then s
  else if !up then s.linkGone p
  else if (Config.speedRow (p % 20) speed).isNone then s
  else
    let a := R.ETH_STAT p
    let s1 := (((s.setF a F.ETH_STAT_link 1).setF a F.ETH_STAT_master (if isMaster then 1 else 0)).setF a F.ETH_STAT_speed speed).setF a F.ETH_STAT_sqi sqi
    (if s.on (R.ETH_CFG p) F.ETH_CFG_tsc_man then s1 else s1.setReg (R.ETH_TSC p) (BitVec.ofNat 64 (Config.tscOf p speed))).ethIrq p 0

/-- ETH_LINK_CHANGE (R384). -/
def execEthLinkChange (port : Nat) (up : Bool) (speed : Nat) (isMaster : Bool) (sqi : Nat) (s : State) : Host.Outcome State Fault Refusal :=
  atPort port s (ethLinkChange port up speed isMaster sqi)

/-! ## Frames in and out (R383, R387, R393, R396) -/

/-- Bytes of SecTAG and ICV in a received frame (R383, R407). -/
def secBytes (s : State) (p : Nat) (bs : List Byte) : Nat :=
  if s.on (R.ETH_MSCFG p) F.ETH_MSCFG_en && beAt bs 12 2 = 0x88E5 then (if (beAt bs 14 1 / 32) % 2 = 1 then 32 else 24) else 0

/-- A frame that passed the PHY, without its FCS, with whether that was right and the wait its timestamp measured (R387,
R393). -/
def State.received (s : State) (p : Nat) (bs : List Byte) (fcs : Bool) (wait : Nat) : State :=
  if !fcs then s.ethCount p 2 1
  else if bs.length < 60 ∨ s.f (R.ETH_CFG p) F.ETH_CFG_maxf < bs.length - secBytes s p bs then s.ethCount p 3 1
  else if beAt bs 12 2 = 0x8808 then s.ethCount p 4 1
  else
    let h := portHalf p
    let ts := stamp (gptp s h) (-(wait : Int)) 80 (-(s.f (R.ETH_TSC p) F.ETH_TSC_rx_corr : Int))
    let s1 := (((s.ethCount p 0 1).ethCount p 1 bs.length).ethCount p 23 1).passed 3 p 0 0 0 (bs.length + 4)
    let r := macsecIn s1 p bs
    match r.2 with
    | none => r.1
    | some b => r.1.ingress h (p % 20) { parseFrame b with ts := ts }

/-- RECEIVE_FRAME (R387). In remote loopback the frame is sent back out (R385). -/
def receiveFrame (p : Nat) (bs : List Byte) (fcs : Bool) (wait : Nat) (s : State) : State :=
  if !portUp s p then s
  else
    let s1 := if s.f (R.ETH_PHY p) F.ETH_PHY_lpbk = 2 then s.updPort p (fun x => { x with wire := bs }) else s
    if s.f (R.ETH_PHY p) F.ETH_PHY_lpbk = 1 then s else s1.received p bs fcs wait

/-- RECEIVE_FRAME (R387). -/
def execReceiveFrame (port : Nat) (bytes : List Byte) (fcs : Bool) (wait : Nat) (s : State) : Host.Outcome State Fault Refusal :=
  atPort port s (receiveFrame port bytes fcs wait)

/-- The operative gate entries of a port: gates and interval, 0 acting as 1 (R398, R415). -/
def operEnts (x : EthPort) : List (Nat × Nat) :=
  (List.range (x.oper.len + 1)).map (fun i =>
    let w := mget 0xFF x.bank i
    (fld w 0 8, max 1 (fld w 8 24)))

/-- The segments of a cycle, as start, end and gates from entry number `i` at instant `t`: cut at the cycle's end, the last
one running to it (R398). -/
def segments (cycle : Nat) : List (Nat × Nat) → Nat → Nat → List (Nat × Nat × Nat × Nat)
  | [], _, _ => []
  | [(g, _)], i, t => if t < cycle then [(i, t, cycle, g)] else []
  | (g, n) :: rest, i, t => if t < cycle then (i, t, min cycle (t + n), g) :: segments cycle rest (i + 1) (t + n) else []

/-- The place of time `t` in cycles from a base. -/
def cycleOff (t base cycle : Nat) : Nat := (((t : Int) - base) % cycle).toNat

/-- The entry in force at time `t` and its gates; a cycle that the extension keeps from starting leaves the last entry in
force (R398, R400). -/
def gateAt (x : EthPort) (t : Nat) : Nat × Nat :=
  if x.oper.cycle = 0 then (0, 0xFF)
  else
    let segs := segments x.oper.cycle (operEnts x) 0 0
    let off := cycleOff t x.oper.base x.oper.cycle
    let held := match x.ct with
      | some ct => decide (t < ct ∧ ct < t - off + x.admin.ext)
      | none => false
    let s := if held then segs.getLast? else segs.find? (fun g => decide (g.2.1 ≤ off) && decide (off < g.2.2.1))
    match s with
    | some g => (g.1, g.2.2.2)
    | none => (0, 0xFF)

/-- The ns until class `c`'s gate closes, from time `t`; none: it stays open (R399). -/
def closesIn (x : EthPort) (t c : Nat) : Option Nat :=
  if x.oper.cycle = 0 then none
  else
    let off := cycleOff t x.oper.base x.oper.cycle
    let segs := segments x.oper.cycle (operEnts x) 0 0
    match segs.find? (fun g => decide (off < g.2.1) && !g.2.2.2.testBit c) with
    | some g => some (g.2.1 - off)
    | none => (segs.find? (fun g => !g.2.2.2.testBit c)).map (fun g => g.2.1 + x.oper.cycle - off)

/-- The [me] edges until a frame of `n` wire bytes is sent at a rate in kbit/s (R399). -/
def sendEdges (n rate : Nat) : Nat := (10 * (n + 20) * 1000000 + rate - 1) / rate

/-- Whether a frame of class `c` fits before its gate closes (R399). -/
def gateFits (s : State) (p c n : Nat) : Bool :=
  if !s.on (R.TSN_GCTL p) F.TSN_GCTL_en then true
  else
    let h := portHalf p
    let t := gptp s h
    match closesIn (s.port p) (t / 2 ^ 32) c with
    | none => true
    | some ns =>
      let left := (t / 2 ^ 32 + ns) * 2 ^ 32 - t
      let add := s.f (R.TSN_TADD (brBlock h)) F.TSN_TADD_add
      decide (sendEdges n (portRate s p) * add ≤ left + add - 1)

/-- The bytes of a frame after its tag is edited (R389). -/
def egressBytes (s : State) (p : Nat) (f : EFrame) : List Byte :=
  f.bytes (!(s.f (R.ETH_BR_VLAN (brBlock (portHalf p)) f.vid) F.ETH_BR_VLAN_untag).testBit (p % 20))

/-- Whether protection applies, and the bytes a frame has on the wire with its FCS (R399, R407). -/
def wireLen (s : State) (p : Nat) (bs : List Byte) : Nat :=
  let et := beAt bs 12 2
  let sec := if s.on (R.ETH_MSCFG p) F.ETH_MSCFG_en && et ≠ 0x888E && et ≠ 0x88F7 then (if s.on (R.ETH_MSCFG p) F.ETH_MSCFG_sci_tx then 32 else 24) else 0
  max 60 (bs.length + sec) + 4

/-- Whether the head of a class may be selected (R396). -/
def classEligible (s : State) (p c : Nat) : Bool :=
  let x := s.port p
  match (mget [] x.queues c).head? with
  | none => false
  | some f =>
    (!s.on (R.TSN_GCTL p) F.TSN_GCTL_en || x.gates.testBit c) && gateFits s p c (wireLen s p (egressBytes s p f))
      && (!s.on (R.TSN_QCFG p c) F.TSN_QCFG_cbs || decide (0 ≤ mget 0 x.credit c))

/-- The first frame of a chain records its port and timestamp (R353, R393). -/
def State.firstFrame (s : State) (p ts : Nat) (o : Option (Nat × Nat × Nat)) : State :=
  match o with
  | none => s
  | some (t, q, asn) => s.updQp t q (fun x => { x with chains := x.chains.map (fun c =>
      if c.port = 63 && (c.descs.head?.map (fun d => d.asn)) = some asn then { c with port := p, ts := ts } else c) })

/-- A selected frame is sent, or discarded above maxf or for its packet number (R383, R387, R408); in PCS loopback it is
received again (R385). -/
def State.sendFrame (s : State) (p wait : Nat) (f : EFrame) : State :=
  let bs := egressBytes s p f
  if s.f (R.ETH_CFG p) F.ETH_CFG_maxf < bs.length then s.ethCount p 17 1
  else
    let r := macsecOut s p bs
    match r.2 with
    | none => r.1
    | some b =>
      let w := b ++ zeros (60 - b.length)
      let sp := portSpeed s p
      let ts := stamp (gptp s (portHalf p)) (wait : Int) sp.2.1 (s.f (R.ETH_TSC p) F.ETH_TSC_tx_corr)
      let s1 := ((((r.1.ethCount p 14 1).ethCount p 15 w.length).ethCount p 23 1).passed 3 p 0 0 1 (w.length + 4)).updPort p (fun x => { x with tx := some f, wire := w })
      let s2 := s1.firstFrame p ts f.owner
      if s.f (R.ETH_PHY p) F.ETH_PHY_lpbk = 1 then s2.received p w true 0 else s2

/-- EGRESS_SELECT (R396): the port is idle, so what it was sending has ended, and the head of the highest eligible class
goes. -/
def egressSelect (p wait : Nat) (s : State) : State :=
  if !portUp s p then s
  else
    let s1 := s.updPort p (fun x => { x with tx := none })
    match ((List.range 8).reverse.find? (classEligible s1 p)) with
    | none => s1
    | some c =>
      let x := s1.port p
      match mget [] x.queues c with
      | [] => s1
      | f :: rest => (s1.setPort p { x with queues := mset x.queues c rest }).sendFrame p wait f

/-- EGRESS_SELECT (R396). -/
def execEgressSelect (port wait : Nat) (s : State) : Host.Outcome State Fault Refusal := atPort port s (egressSelect port wait)

/-! ## The forwarding database (R390, R391) -/

/-- FDB_AGING (R390): a dynamic entry not seen for its age is removed. -/
def fdbAging (half vid mac : Nat) (s : State) : State :=
  let age := s.f (R.ETH_BR_CTL (brBlock half)) F.ETH_BR_CTL_age
  let b := s.bridge half
  match fdbFind b vid mac with
  | none => s
  | some e => if !e.fixed ∧ age ≠ 0 ∧ age * 2 ^ 20 ≤ s.ref - e.seen then s.setBridge half (fdbDrop b vid mac) else s

/-- FDB_AGING (R390). -/
def execFdbAging (half vid mac : Nat) (s : State) : Host.Outcome State Fault Refusal := atPipe half s (fdbAging half vid mac)

/-- The result of a command (R391, R414). -/
def State.fdbRes (s : State) (half : Nat) (found fixed full : Bool) (ports : Nat) : State :=
  s.setReg (R.ETH_BR_FDBRES (brBlock half)) (BitVec.ofNat 64
    (1 + (if found then 4 else 0) + (if fixed then 8 else 0) + (if full then 16 else 0) + ports % 2 ^ 22 * 32))

/-- The key of a command. -/
def fdbKey (s : State) (half : Nat) : Nat × Nat :=
  let a := R.ETH_BR_FDBKEY (brBlock half)
  (s.f a F.ETH_BR_FDBKEY_vid, s.f a F.ETH_BR_FDBKEY_mac)

/-- A command's result for the entry it met. -/
def State.fdbMet (s : State) (half : Nat) (e : Option FdbEnt) : State :=
  match e with
  | none => s.fdbRes half false false false 0
  | some e => s.fdbRes half true e.fixed false e.ports

/-- FDB command 0 (R391). -/
def fdbRead (half : Nat) (s : State) : State :=
  let k := fdbKey s half
  s.fdbMet half (fdbFind (s.bridge half) k.1 k.2)

/-- The entry a write displaces in a set with no free way: the dynamic one seen longest ago (DESIGN CHOICE, log 37). -/
def fdbVictim (b : Bridge) (vid mac : Nat) : Option FdbEnt := argMin (fun e => e.seen) ((fdbWays b vid mac).filter (fun e => !e.fixed))

/-- FDB commands 1 and 2 (R391). -/
def fdbWrite (fixed : Bool) (half ports : Nat) (s : State) : State :=
  let k := fdbKey s half
  let b := s.bridge half
  let e := fdbFind b k.1 k.2
  let b1 := fdbDrop b k.1 k.2
  let put (b : Bridge) : State :=
    let b2 := { b with fdb := ⟨k.1, k.2, fixed, ports % 2 ^ 22, s.ref⟩ :: b.fdb }
    (s.setBridge half b2).fdbRes half e.isSome fixed false ports
  if (fdbWays b1 k.1 k.2).length < 4 then put b1
  else match fdbVictim b1 k.1 k.2 with
    | some v => put (fdbDrop b1 v.vid v.mac)
    | none => s.fdbRes half false false true 0

/-- FDB command 3 (R391). -/
def fdbDelete (half : Nat) (s : State) : State :=
  let k := fdbKey s half
  let b := s.bridge half
  (s.setBridge half (fdbDrop b k.1 k.2)).fdbMet half (fdbFind b k.1 k.2)

/-- FDB commands 4 and 5 (R391): dynamic entries, all or those of one port, are flushed. -/
def fdbFlush (mask : Option Nat) (half : Nat) (s : State) : State :=
  (s.updBridge half (fun b => { b with fdb := b.fdb.filter (fun e => e.fixed || match mask with
    | none => false
    | some m => (e.ports &&& m) = 0) })).fdbRes half false false false 0

/-- A command register write of a bridge. -/
def fdbCmd (ag : Agent) (half : Nat) (s : State) (f : State → State) : Host.Outcome State Fault Refusal :=
  atPipe half s (fun s => regCmd .eth (R.ETH_BR_FDBCMD (brBlock half)) ag s f)

/-- FDB_READ (R391). -/
def execFdbRead (ag : Agent) (half : Nat) (s : State) : Host.Outcome State Fault Refusal := fdbCmd ag half s (fdbRead half)
/-- FDB_WRITE_STATIC (R391). -/
def execFdbWriteStatic (ag : Agent) (half ports : Nat) (s : State) : Host.Outcome State Fault Refusal := fdbCmd ag half s (fdbWrite true half ports)
/-- FDB_WRITE_DYNAMIC (R391). -/
def execFdbWriteDynamic (ag : Agent) (half ports : Nat) (s : State) : Host.Outcome State Fault Refusal := fdbCmd ag half s (fdbWrite false half ports)
/-- FDB_DELETE (R391). -/
def execFdbDelete (ag : Agent) (half : Nat) (s : State) : Host.Outcome State Fault Refusal := fdbCmd ag half s (fdbDelete half)
/-- FDB_FLUSH_DYNAMIC (R391). -/
def execFdbFlushDynamic (ag : Agent) (half : Nat) (s : State) : Host.Outcome State Fault Refusal := fdbCmd ag half s (fdbFlush none half)
/-- FDB_FLUSH_DYNAMIC_PORT (R391): the port is the lowest set bit. -/
def execFdbFlushDynamicPort (ag : Agent) (half ports : Nat) (s : State) : Host.Outcome State Fault Refusal :=
  fdbCmd ag half s (fdbFlush (some (if ports % 2 ^ 22 = 0 then 0 else 2 ^ ctzFrom (BitVec.ofNat 64 ports) 0 22)) half)

/-! ## Time (R392) -/

/-- A write of TSN_TSTEP adds its signed ns. -/
def tsnTstep (half : Nat) (v : Word) (s : State) : State :=
  s.setGptp half ((((gptp s half : Int) + v.toInt * 2 ^ 32) % 2 ^ 96).toNat)

/-- TSN_TSTEP (R392). -/
def execTsnTstep (ag : Agent) (half : Nat) (v : Word) (s : State) : Host.Outcome State Fault Refusal :=
  atPipe half s (fun s => regCmd .tsn (R.TSN_TSTEP (brBlock half)) ag s (tsnTstep half v))

/-- A write of TSN_TSET sets the time, its fraction 0. -/
def tsnTset (half : Nat) (v : Word) (s : State) : State := s.setGptp half (v.toNat * 2 ^ 32)

/-- TSN_TSET (R392). -/
def execTsnTset (ag : Agent) (half : Nat) (v : Word) (s : State) : Host.Outcome State Fault Refusal :=
  atPipe half s (fun s => regCmd .tsn (R.TSN_TSET (brBlock half)) ag s (tsnTset half v))

/-- A read of TSN_TNS captures the fraction in TSN_TFR. -/
def tsnTnsRead (half : Nat) (s : State) : State := s.setF (R.TSN_TFR (brBlock half)) F.TSN_TFR_frac (s.bridge half).frac

/-- TSN_TNS_READ (R392). -/
def execTsnTnsRead (half : Nat) (s : State) : Host.Outcome State Fault Refusal := atPipe half s (tsnTnsRead half)

/-! ## Gate lists (R398 to R400, R403) -/

/-- GATE_STATE_CHANGE (R398, R399): the gates take the state of the entry in force; a frame in transmission whose gate
closes is counted. -/
def gateStateChange (p : Nat) (s : State) : State :=
  let x := s.port p
  if !s.on (R.TSN_GCTL p) F.TSN_GCTL_en then s
  else
    let g := gateAt x (gptpNs s (portHalf p))
    let overrun := match x.tx with
      | some f => x.gates.testBit f.tc && !g.2.testBit f.tc
      | none => false
    let s1 := (s.setPort p { x with gates := g.2 }).setF (R.TSN_GSTAT p) F.TSN_GSTAT_entry g.1
    if overrun then s1.ethCount p 19 1 else s1

/-- GATE_STATE_CHANGE (R398). -/
def execGateStateChange (port : Nat) (s : State) : Host.Outcome State Fault Refusal := atPort port s (gateStateChange port)

/-- The change time of a list: its base if that lies at least 1,000 ns ahead, else its first cycle start that does (R400). -/
def changeTime (now base cycle : Nat) : Nat :=
  let t := (now + 1000 * 2 ^ 32 + 2 ^ 32 - 1) / 2 ^ 32
  if t ≤ base then base else base + (t - base + cycle - 1) / cycle * cycle

/-- A write of TSN_GCTL with go = 1 (R400). -/
def gateListGo (p : Nat) (v : Word) (s : State) : State :=
  let a := R.TSN_GCTL p
  let s1 := (s.setF a F.TSN_GCTL_en (fld v 0 1)).setF a F.TSN_GCTL_len (fld v 2 8)
  let cyc := s.f (R.TSN_GCYC p) F.TSN_GCYC_ns
  if cyc = 0 then s1.setF (R.TSN_GSTAT p) F.TSN_GSTAT_err 1
  else
    let g : GateList := ⟨s.f (R.TSN_GBASE p) F.TSN_GBASE_base, cyc, s.f (R.TSN_GEXT p) F.TSN_GEXT_ns, fld v 2 8⟩
    (s1.updPort p (fun x => { x with admin := g, ct := some (changeTime (gptp s (portHalf p)) g.base cyc) })).setF (R.TSN_GSTAT p) F.TSN_GSTAT_pend 1

/-- GATE_LIST_GO (R400). -/
def execGateListGo (ag : Agent) (port : Nat) (v : Word) (s : State) : Host.Outcome State Fault Refusal :=
  atPort port s (fun s => regCmd .tsn (R.TSN_GCTL port) ag s (gateListGo port v))

/-- One word of the two banks of a port's gate list changes places. -/
def State.swapGcl (s : State) (p i : Nat) : State :=
  let a := s.reg (R.TSN_GCL p i)
  let x := s.port p
  let b := mget 0xFF x.bank i
  if a = b then s else (s.setReg (R.TSN_GCL p i) b).setPort p { x with bank := mset x.bank i a }

/-- GATE_CONFIG_CHANGE (R400): at the change time the banks swap. -/
def gateConfigChange (p : Nat) (s : State) : State :=
  match (s.port p).ct with
  | none => s
  | some ct =>
    if gptpNs s (portHalf p) < ct then s
    else
      let s1 := (List.range 256).foldl (fun s i => s.swapGcl p i) s
      let s2 := s1.updPort p (fun x => { x with oper := x.admin, ct := none })
      let b := 1 - s.f (R.TSN_GSTAT p) F.TSN_GSTAT_bank
      gateStateChange p (((s2.setF (R.TSN_GSTAT p) F.TSN_GSTAT_pend 0).setF (R.TSN_GSTAT p) F.TSN_GSTAT_bank b).ethIrq p 3)

/-- GATE_CONFIG_CHANGE (R400). -/
def execGateConfigChange (port : Nat) (s : State) : Host.Outcome State Fault Refusal := atPort port s (gateConfigChange port)

/-- The written list of a stream gate: state, internal priority and interval of each entry (R403, R415). -/
def sgWritten (s : State) (half g : Nat) : List (Bool × Option Nat × Nat) :=
  let k := brBlock half
  (List.range (s.f (R.TSN_SGCTL k g) F.TSN_SGCTL_len + 1)).map (fun e =>
    let a := R.TSN_SGCL k g e
    (s.on a F.TSN_SGCL_open, if s.on a F.TSN_SGCL_ipv_en then some (s.f a F.TSN_SGCL_ipv) else none, max 1 (s.f a F.TSN_SGCL_interval)))

def sgLen (l : List (Bool × Option Nat × Nat)) : Nat := (l.map (fun e => e.2.2)).sum

/-- The entry of a stream gate's list at an offset in its cycle. -/
def sgAt : List (Bool × Option Nat × Nat) → Nat → Option (Bool × Option Nat)
  | [], _ => none
  | e :: l, o => if o < e.2.2 then some (e.1, e.2.1) else sgAt l (o - e.2.2)

/-- STREAM_GATE_CHANGE (R403): the gate takes the state of its entry in force; at a cycle start it takes the written list. -/
def streamGateChange (half g : Nat) (s : State) : State :=
  let b := s.bridge half
  let x := mget {} b.gates g
  let t : Int := gptpNs s half
  let base : Int := s.f (R.TSN_SGBASE (brBlock half)) F.TSN_SGBASE_base
  let k := ((t - base) / max 1 (sgLen x.ents)).toNat
  let ents := if x.ents = [] || k ≠ x.cycle then sgWritten s half g else x.ents
  let n : Int := max 1 (sgLen ents)
  let e := (sgAt ents ((t - base) % n).toNat).getD (true, none)
  s.setBridge half { b with gates := mset b.gates g ⟨ents, ((t - base) / n).toNat, e.1, e.2⟩ }

/-- STREAM_GATE_CHANGE (R403). -/
def execStreamGateChange (half gate : Nat) (s : State) : Host.Outcome State Fault Refusal :=
  if gate < 32 then atPipe half s (streamGateChange half gate) else .fault .noSuchUnit

/-- RECOVERY_RESET_TIMEOUT (R406): with no frame passed for its reset time the function takes the next as it comes. -/
def recoveryTimeout (half n : Nat) (s : State) : State :=
  let b := s.bridge half
  let r := mget {} b.recov n
  if !r.any ∧ max 1 (s.f (R.TSN_FRREC (brBlock half) n) F.TSN_FRREC_reset) * 1024 ≤ s.ref - r.since then
    s.setBridge half { b with recov := mset b.recov n { r with any := true, hist := [] } }
  else s

/-- RECOVERY_RESET_TIMEOUT (R406). -/
def execRecoveryResetTimeout (half fn : Nat) (s : State) : Host.Outcome State Fault Refusal :=
  if fn < 256 then atPipe half s (recoveryTimeout half fn) else .fault .noSuchUnit

/-! ## Cable diagnostics (R385) -/

/-- A write of ETH_DIAG.start: NOT_READY, or refused on a SerDes port or with the link up. -/
def diagStart (p : Nat) (s : State) : State :=
  s.setReg (R.ETH_DIAGR p) (if p % 20 < 16 ∧ !s.on (R.ETH_STAT p) F.ETH_STAT_link then 0 else 3)

/-- CABLE_DIAG_START (R385). -/
def execCableDiagStart (ag : Agent) (port : Nat) (s : State) : Host.Outcome State Fault Refusal :=
  atPort port s (fun s => regCmd .eth (R.ETH_DIAG port) ag s (diagStart port))

/-- The measurement ends (R385). -/
def diagComplete (p fault dist : Nat) (s : State) : State :=
  if s.f (R.ETH_DIAGR p) F.ETH_DIAGR_rstat ≠ 0 then s
  else (s.setReg (R.ETH_DIAGR p) (BitVec.ofNat 64 (1 + fault % 4 * 4 + dist % 65536 * 16))).ethIrq p 4

/-- CABLE_DIAG_COMPLETE (R385). -/
def execCableDiagComplete (port fault dist : Nat) (s : State) : Host.Outcome State Fault Refusal := atPort port s (diagComplete port fault dist)

/-! ## MACsec keys (R409) -/

/-- Whether the SA a command names is enabled. -/
def saEnabled (s : State) (p : Nat) (v : Word) : Bool :=
  let an := fld v 6 2
  if bit v 1 then bit (s.reg (R.ETH_MSRXEN p)) (4 * fld v 2 4 + an) else (s.f (R.ETH_MSTX p) F.ETH_MSTX_txen).testBit an

/-- The key, with salt and SSCI above it, that a command takes: from the registers, or from a slot released to the port. -/
def saKey (s : State) (p : Nat) (v : Word) : Option Nat :=
  let w (i : Nat) : Nat := mget 0 (s.port p).sak i
  let salt := if s.on (R.ETH_MSCFG p) F.ETH_MSCFG_xpn then (w 8 + w 9 * 2 ^ 32 + w 10 * 2 ^ 64) * 2 ^ 256 + w 11 * 2 ^ 352 else 0
  if bit v 8 then
    let k := mget {} s.sec.slots (fld v 9 4)
    if k.consumer = some p then some (k.key % 2 ^ 256 + salt) else none
  else
    let n := if s.f (R.ETH_MSCFG p) F.ETH_MSCFG_cipher = 1 then 8 else 4
    some (((List.range n).map (fun i => w i * 2 ^ (32 * i))).sum + salt)

/-- ETH_SASTAT reports VALID with a result. -/
def State.saResult (s : State) (p r : Nat) : State := (s.setReg (R.ETH_SASTAT p) (BitVec.ofNat 64 (1 + 4 * r))).ethIrq p 5

/-- ETH_SACMD installs a key: refused with 1 for an enabled SA, with 2 for a slot not released; else the key registers are
zeroed and the subkey is being derived (R409). -/
def saInstall (p : Nat) (v : Word) (s : State) : State :=
  if saEnabled s p v then s.saResult p 1
  else match saKey s p v with
    | none => s.saResult p 2
    | some k =>
      (s.updPort p (fun x => { x with sak := [], saBusy := some (bit v 1, fld v 2 4, fld v 6 2, some k) })).setReg (R.ETH_SASTAT p) 0

/-- SA_KEY_INSTALL (R409). -/
def execSaKeyInstall (ag : Agent) (port : Nat) (v : Word) (s : State) : Host.Outcome State Fault Refusal :=
  atPort port s (fun s => regCmd .eth (R.ETH_SACMD port) ag s (saInstall port v))

/-- ETH_SACMD with clear zeroes an SA's key (R409). -/
def saClear (p : Nat) (v : Word) (s : State) : State :=
  if saEnabled s p v then s.saResult p 1
  else (s.updPort p (fun x => { x with sak := [], saBusy := some (bit v 1, fld v 2 4, fld v 6 2, none) })).setReg (R.ETH_SASTAT p) 0

/-- SA_KEY_CLEAR (R409). -/
def execSaKeyClear (ag : Agent) (port : Nat) (v : Word) (s : State) : Host.Outcome State Fault Refusal :=
  atPort port s (fun s => regCmd .eth (R.ETH_SACMD port) ag s (saClear port v))

/-- An SA's key becomes `k`, or none. -/
def EthPort.setKey (x : EthPort) (rx : Bool) (sc an : Nat) (k : Option Nat) : EthPort :=
  let put (m : SMap Nat) (i : Nat) : SMap Nat :=
    match k with
    | some k => mset m i k
    | none => mdel m i
  if rx then { x with rxKey := put x.rxKey (4 * sc + an) } else { x with txKey := put x.txKey an, spent := x.spent.filter (· ≠ an) }

/-- SA_SUBKEY_READY (R409): the command ends. -/
def saReady (p : Nat) (s : State) : State :=
  match (s.port p).saBusy with
  | none => s
  | some (rx, sc, an, k) => (s.updPort p (fun x => { x.setKey rx sc an k with saBusy := none })).saResult p 0

/-- SA_SUBKEY_READY (R409). -/
def execSaSubkeyReady (port : Nat) (s : State) : Host.Outcome State Fault Refusal := atPort port s (saReady port)

end Sys2Proof.Machine
end

