-- ==== Sys2Proof/Machine/Meq.lean ====
section
/-! DEFINITION. The message engine: doorbells, descriptors, completions, channel states, buffers and messages (R337 to
R378). -/

namespace Sys2Proof.Machine

/-! ## Numbers, settings and memory (R337 to R343) -/

/-- The distance from `a` to `b` modulo 2^32. -/
def dist (a b : Nat) : Nat := (b + 2 ^ 32 - a % 2 ^ 32) % 2 ^ 32

/-- A number modulo 2^32. -/
def num32 (a : Nat) : Nat := a % 2 ^ 32

def qpState (s : State) (t q : Nat) : Nat := s.f (R.MEQ_QP_STAT t q) F.MEQ_QP_STAT_state
def State.setQpState (s : State) (t q v : Nat) : State := s.setF (R.MEQ_QP_STAT t q) F.MEQ_QP_STAT_state v
def qpValid (s : State) (t q : Nat) : Bool := s.on (R.MEQ_QP_STAT t q) F.MEQ_QP_STAT_valid
def isRx (s : State) (t q : Nat) : Bool := s.on (R.MEQ_QP_CFG t q) F.MEQ_QP_CFG_dir
def isMsg (s : State) (t q : Nat) : Bool := s.on (R.MEQ_QP_CFG t q) F.MEQ_QP_CFG_mode
def sqSize (s : State) (t q : Nat) : Nat := 2 ^ s.f (R.MEQ_QP_CFG t q) F.MEQ_QP_CFG_sq_log2
def cqSize (s : State) (t q : Nat) : Nat := 2 ^ s.f (R.MEQ_QP_CFG t q) F.MEQ_QP_CFG_cq_log2

/-- A command of a tenant's block: the pipeline that holds it serves it. -/
def atTenant (t : Nat) (s : State) (f : State → State) : Host.Outcome State Fault Refusal := atRunning 512 t (pipeRuns s (pipeOf t)) s f

/-- The slot of a descriptor or completion number in its ring (R341). -/
def sqSlot (s : State) (t q n : Nat) : Nat := s.f (R.MEQ_QP_SQB t q) F.MEQ_QP_SQB_base * 64 + n % sqSize s t q * 64
def cqSlot (s : State) (t q n : Nat) : Nat := s.f (R.MEQ_QP_CQB t q) F.MEQ_QP_CQB_base * 64 + n % cqSize s t q * 64

/-- The physical place of an intermediate address of a tenant, through its stage 2 from the tenant table at MEQ_PTENT; none: a
fault of R340. -/
def tenantPa (s : State) (t ipa : Nat) (write : Bool) : Option Nat :=
  let pipe := pipeOf t
  let m := (s.router (pipeUnit pipe / 4)).map
  let e : WalkEnv := { ans := [], map := m, closed := false }
  let r := walkNow s e (fun e =>
    (wreadOr e (s.f (R.MEQ_PTENT pipe) F.MEQ_PTENT_base * 8192 + 16 * t) 4 true 0 false).bind (fun w0 =>
      if !bit w0 0 || fld w0 2 6 ≠ 0 || fld w0 44 20 ≠ 0 then .fault ⟨4, true, 1, false, 0⟩
      else stage2 e t (fld w0 8 36 * 256) ipa false)) 8
  match r with
  | .ok o =>
    if o.r && (!write || o.w) && o.mt ≠ .device && addrClass o.pa = .dram && !decodeFails m false write o.pa then some o.pa else none
  | _ => none

/-- Whether a unit has a tag that no open transaction holds. -/
def freeTag (s : State) (u : Nat) : Bool := (List.range 256).any (fun t => !s.openTags.contains (u, t))

/-- A full-line access is launched when its unit has a free tag; one whose translation fails is answered at once (R340). -/
def State.launchAcc (s : State) (t : Nat) (a : LineAcc) : State × LineAcc :=
  let u := pipeUnit (pipeOf t)
  if a.sent || a.got.isSome || !freeTag s u then (s, a)
  else match tenantPa s t a.addr a.write.isSome with
    | none => (s, { a with got := some .decodeError })
    | some pa =>
      (s.request { net := 0, typ := if a.write.isSome then 9 else 7, src := u, dst := targetUnit s.map pa, tenant := t, size := 6, mt := 1,
                   pa := pa, data := a.write.getD 0, mask := if a.write.isSome then BitVec.allOnes 64 else 0 },
       { a with pa := pa, tag := s.nextTag u, late := rtoLate s (u / 4), sent := true })

/-- The answer that waits for a full-line access is taken. -/
def State.takeAcc (s : State) (t : Nat) (a : LineAcc) : State × LineAcc :=
  if !a.sent || a.got.isSome then (s, a)
  else match s.inbox.find? (fun p => p.dst = pipeUnit (pipeOf t) && p.tag = a.tag && (p.net = 1 || p.net = 3) && p.pa = a.pa) with
    | some p => (s.take p, { a with got := some ((ansOf p).getD .poison) })
    | none => (s, a)

/-- Accesses of a tenant go on, in order: answers are taken and what is not launched is launched. -/
def State.runAccs (s : State) (t : Nat) : List LineAcc → State × List LineAcc
  | [] => (s, [])
  | a :: l =>
    let r1 := s.takeAcc t a
    let r2 := r1.1.launchAcc t r1.2
    let r3 := r2.1.runAccs t l
    (r3.1, r2.2 :: r3.2)

/-- Whether every access is answered; whether one failed, other than by poison. -/
def accsDone (l : List LineAcc) : Bool := l.all (fun a => a.got.isSome)
def accsFault (l : List LineAcc) : Bool := l.any (fun a => a.got = some .decodeError || a.got = some .fenced || a.got = some .timeout)
def accsPoison (l : List LineAcc) : Bool := l.any (fun a => a.got = some .poison)

/-- The bytes that accesses read. -/
def accBytes (l : List LineAcc) : List Byte :=
  l.flatMap (fun a => match a.got with
    | some (.data v) => wordBytes 64 v
    | _ => [])

/-- The accesses are given up: their answers are discarded when they come. -/
def State.dropAccs (s : State) (t : Nat) (l : List LineAcc) : State :=
  l.foldl (fun s a => if a.sent && a.got.isNone then s.loseTag (pipeUnit (pipeOf t)) a.tag else s) s

/-- The full-line accesses of a queue pair that are under way. -/
def Qp.accs (x : Qp) : List LineAcc :=
  x.chains.flatMap (fun c => c.loads) ++ x.fills.flatMap (fun f => f.accs) ++ (x.scan.map (fun y => [y.acc])).getD []

/-- The descriptor reads behind the first are given up (R352). -/
def State.dropReads (s : State) (t q : Nat) : State :=
  (s.qp t q).reads.tail.foldl (fun s r => if r.2.2.1.isSome then s.loseTag (pipeUnit (pipeOf t)) r.2.1 else s) s

/-- The buffers that a message in reassembly has taken stand at the front of the free list again. -/
def Qp.giveBack (x : Qp) : Qp := { x with free := (x.rx.map (fun r => r.bufs)).getD [] ++ x.free, rx := none }

/-- A channel counter gains `n`: 0 messages completed OK, 1 payload bytes, 2 messages dropped, 3 descriptors consumed (R378). -/
def State.qpCount (s : State) (t q i n : Nat) : State :=
  s.updQp t q (fun x => { x with cnt := mset x.cnt i ((mget 0 x.cnt i + n) % 2 ^ 48) })

/-! ## Completions (R341, R343, R353, R355) -/

/-- The 64 bytes of a completion: its number, the inverse of bit log2(C) of it as phase, and the drops reported (R353). -/
def cqeLine (c : Cqe) (casn cqLog drops cause : Nat) : Line :=
  let d0 := casn + (if casn.testBit cqLog then 0 else 2 ^ 32) + c.status * 2 ^ 40 + c.reason * 2 ^ 48 + c.ncons * 2 ^ 56
  let d1 := c.asn + c.tag * 2 ^ 32
  let d2 := c.length + c.nbuf * 2 ^ 17 + c.port * 2 ^ 24 + drops * 2 ^ 32 + cause * 2 ^ 48
  BitVec.ofNat 512 (d0 + d1 * 2 ^ 64 + d2 * 2 ^ 128 + c.macc * 2 ^ 192 + c.ts % 2 ^ 64 * 2 ^ 256)

/-- The channel is FAULTED: the ring-state entry and MEQ_PSTAT record it (R356, R361, R377). -/
def State.recordFault (s : State) (t q asn status : Nat) : State :=
  let a := R.MEQ_PSTAT (pipeOf t)
  (((((s.setQpState t q 4).updQp t q (fun x => { x with faultAsn := num32 asn, faultStatus := status, startAt := none })).setF a
    F.MEQ_PSTAT_fault 1).setF a F.MEQ_PSTAT_tenant t).setF a F.MEQ_PSTAT_qp q)

/-- The completion of a chain with a status (R353, R366). -/
def TxChain.cqe (c : TxChain) (status : Nat) : Cqe :=
  let d := c.descs.head?
  { status, ncons := c.descs.length, nbuf := c.descs.length, asn := (d.map (fun d => d.asn)).getD 0,
    tag := (d.map (fun d => d.tag)).getD 0, length := (c.descs.map (fun d => fld d.b 0 14 + 1)).sum % 2 ^ 17, port := c.port,
    macc := (d.map (fun d => fld d.b 32 32)).getD 0, ts := c.ts }

/-- The completions of posted buffers returned unused, at most 64 in each (R360). -/
def flushBufs (l : List RxBuf) : Nat → List Cqe
  | 0 => []
  | n + 1 =>
    match l with
    | [] => []
    | b :: _ => { status := 5, asn := b.asn, tag := b.tag, nbuf := min 64 l.length } :: flushBufs (l.drop 64) n

/-- A message in a channel is dropped for a cause, counted from bit 48 of the completion (R365). -/
def State.dropMessage (s : State) (t q cause : Nat) : State :=
  (s.updQp t q (fun x => { x with pendDrops := min 0xFFFF (x.pendDrops + 1), pendCause := x.pendCause ||| 2 ^ (cause - 48),
                                   drops := (x.drops + 1) % 2 ^ 48 })).qpCount t q 2 1

/-- The pending work of a channel is flushed: chains not started and the posted buffers are FLUSHED, a message in
reassembly is dropped (R360, R361). -/
def State.flushWork (s : State) (t q : Nat) : State :=
  let x := (s.qp t q).giveBack
  let last := if x.part = [] then [] else [({ descs := x.part } : TxChain)]
  let y := { x with chains := (x.chains ++ last).map (fun c =>
                          if (c.started && c.loads = []) || c.status.isSome then c else { c with loads := [], status := some 5 }),
                    part := [], free := [], cq := x.cq ++ flushBufs x.free (x.free.length / 64 + 1) }
  let s1 := (s.dropAccs t (x.chains.flatMap (fun c => c.loads))).setQp t q y
  if (s.qp t q).rx.isSome then s1.dropMessage t q 54 else s1

/-- The write of the next completion is launched when none is open and a slot is free; one that cannot be written moves the
channel to FAULTED (R343, R355, R361). -/
def State.postNext (s : State) (t q : Nat) : State :=
  let x := s.qp t q
  match x.posting, x.cq with
  | none, c :: rest =>
    let casn := num32 (x.posted + 1)
    if cqSize s t q < dist x.acked casn || !freeTag s (pipeUnit (pipeOf t)) then s
    else match tenantPa s t (cqSlot s t q casn) true with
      | none => ((s.setQp t q { x with cq := rest }).recordFault t q c.asn 6).flushWork t q
      | some pa =>
        let u := pipeUnit (pipeOf t)
        let tag := s.nextTag u
        let s1 := s.setQp t q { x with cq := rest, posting := some (c, casn, tag, pa, rtoLate s (u / 4)), pendDrops := 0, pendCause := 0 }
        s1.request { net := 0, typ := 9, src := u, dst := targetUnit s.map pa, tenant := t, size := 6, mt := 1, pa,
                     data := cqeLine c casn (s.f (R.MEQ_QP_CFG t q) F.MEQ_QP_CFG_cq_log2) x.pendDrops x.pendCause,
                     mask := BitVec.allOnes 64 }
  | _, _ => s

/-- A completion joins those that wait; messages completed OK and their bytes are counted (R355, R378). -/
def State.emit (s : State) (t q : Nat) (c : Cqe) : State :=
  (s.updQp t q (fun x => { x with cq := x.cq ++ [c] })).postNext t q

/-- The chains at the front that are refused complete in order; when none is left, the completion that ends a fault's flush
follows (R358, R361). -/
def State.settleChains (s : State) (t q : Nat) : Nat → State
  | 0 => s
  | n + 1 =>
    let x := s.qp t q
    match x.chains with
    | c :: rest =>
      match c.status with
      | some st => ((s.setQp t q { x with chains := rest }).emit t q (c.cqe st)).settleChains t q n
      | none => s
    | [] =>
      match x.stopC with
      | some c => if qpState s t q = 4 ∧ x.fills = [] then (s.setQp t q { x with stopC := none }).emit t q c else s
      | none => s

/-- All refused chains at the front complete. -/
def State.settleTx (s : State) (t q : Nat) : State := s.settleChains t q ((s.qp t q).chains.length + 1)

/-- A channel enters FAULTED, flushes its work and then posts the fault's completion, if it has one (R361). -/
def State.chanFault (s : State) (t q asn status : Nat) (c : Option Cqe) : State :=
  let s1 := (s.recordFault t q asn status).flushWork t q
  ((s1.updQp t q (fun x => { x with stopC := c })).settleTx t q).postNext t q

/-! ## Descriptor reads (R342, R352, R371) -/

/-- The read of one descriptor is launched. -/
def State.launchRead (s : State) (t q n : Nat) : State :=
  match tenantPa s t (sqSlot s t q n) false with
  | none => s.updQp t q (fun x => { x with reads := x.reads ++ [(n, 0, none, 0)] })
  | some pa =>
    let u := pipeUnit (pipeOf t)
    let tag := s.nextTag u
    (s.updQp t q (fun x => { x with reads := x.reads ++ [(n, tag, some pa, rtoLate s (u / 4))] })).request
      { net := 0, typ := 7, src := u, dst := targetUnit s.map pa, tenant := t, size := 6, mt := 1, pa }

/-- The number of the last descriptor whose read is launched. -/
def lastRead (x : Qp) : Nat := (x.reads.getLast?.map (fun r => r.1)).getD x.consumed

/-- The next reads up to sq_doorbell are launched while the pipeline has a free tag, at most `n` of them (R371). -/
def State.launchMore (s : State) (t q : Nat) : Nat → State
  | 0 => s
  | n + 1 =>
    let x := s.qp t q
    if x.stall || dist (lastRead x) x.doorbell = 0 || !freeTag s (pipeUnit (pipeOf t)) then s
    else (s.launchRead t q (num32 (lastRead x + 1))).launchMore t q n

/-- The reads up to sq_doorbell that are not launched yet are launched (R371). -/
def State.launchReads (s : State) (t q : Nat) : State := s.launchMore t q 256

/-- Whether the channel consumes its next descriptor; a suspended tenant's does not (R342, R343, R357 to R359, R478). -/
def consumes (s : State) (t q : Nat) : Bool :=
  let x := s.qp t q
  x.cur.isNone && x.cq = [] && x.stopC.isNone && !x.stall && x.startAt.isNone && qpState s t q ≠ 3 && tenantRuns s (pipeOf t) t

/-- A field of a descriptor's doubleword `i`. -/
def dfld (l : Line) (i lo w : Nat) : Nat := (l.toNat >>> (64 * i + lo)) % 2 ^ w

/-- Whether a descriptor is malformed: its operation is reserved or a field shown as zero is not (R350 to R352). -/
def badFormat (first : Bool) (l : Line) : Bool :=
  let op := dfld l 0 32 4
  let a0 := dfld l 1 0 64
  let b0 := dfld l 2 0 64
  let operands := match op with
    | 1 => decide (2 ^ 44 ≤ a0) || dfld l 2 14 18 ≠ 0 || (!first && dfld l 2 32 32 ≠ 0)
    | 2 => dfld l 1 0 6 ≠ 0 || decide (2 ^ 44 ≤ a0) || b0 ≠ 0
    | 8 => dfld l 1 48 15 ≠ 0 || b0 ≠ 0
    | 0xA => decide (2 ^ 12 ≤ a0) || decide (2 ^ 32 ≤ b0)
    | _ => a0 ≠ 0 || b0 ≠ 0
  !(op = 0 || op = 1 || op = 2 || op = 8 || op = 9 || op = 0xA || op = 0xB) || dfld l 0 37 27 ≠ 0 || (op ≠ 1 && dfld l 0 36 1 ≠ 0)
    || dfld l 3 32 32 ≠ 0 || decide (2 ^ 256 ≤ l.toNat) || operands

/-- The descriptor numbered `n` in a line. -/
def descOfLine (n : Nat) (l : Line) : SqDesc :=
  { asn := n, op := dfld l 0 32 4, more := dfld l 0 36 1 = 1, a := BitVec.ofNat 64 (dfld l 1 0 64), b := BitVec.ofNat 64 (dfld l 2 0 64),
    tag := dfld l 3 0 32 }

/-- A descriptor that is not consumed: the channel faults and fetches again only after a new SQ_DB write (R352, R357). -/
def State.notConsumed (s : State) (t q n status tag : Nat) : State :=
  ((s.dropReads t q).updQp t q (fun x => { x with reads := [], stall := true })).chanFault t q n status (some { status, asn := n, tag })

/-- DESCRIPTOR_READ (R352): the data of the next descriptor, from the packet that waits or the answer given, is checked and
the descriptor consumed. -/
def descRead (t q : Nat) (ans : MemAns) (s : State) : State :=
  let x := s.qp t q
  match x.reads with
  | [] => s
  | (n, tag, pa, late) :: rest =>
    if !consumes s t q then s
    else
      let u := pipeUnit (pipeOf t)
      let r := match s.inbox.find? (fun p => p.dst = u && p.tag = tag && (p.net = 1 || p.net = 3) && pa = some p.pa) with
        | some p => (s.take p, (ansOf p).getD .poison)
        | none => (s, ans)
      if tooEarly s late r.2 then s
      else match pa, r.2 with
      | some _, .data v =>
        let l : Line := BitVec.ofNat 512 v
        if dfld l 0 0 32 ≠ n then r.1.notConsumed t q n 3 (dfld l 3 0 32)
        else
          let s1 := (r.1.updQp t q (fun y => { y with reads := rest, consumed := n })).qpCount t q 3 1
          if badFormat (x.part = []) l then s1.chanFault t q n 2 (some { status := 2, ncons := 1, asn := n, tag := dfld l 3 0 32 })
          else s1.updQp t q (fun y => { y with cur := some (descOfLine n l) })
      | _, a => (if a = .timeout then r.1.loseTag u tag else r.1).notConsumed t q n 6 0

/-- DESCRIPTOR_READ (R352). -/
def execDescriptorRead (tenant qp : Nat) (ans : MemAns) (s : State) : Host.Outcome State Fault Refusal :=
  if qp < 8 then atTenant tenant s (descRead tenant qp ans) else .fault .noSuchUnit

/-! ## Doorbells (R345 to R349) -/

/-- A doorbell store is ignored and recorded (R345, R377). -/
def State.badDoorbell (s : State) (t q : Nat) : State :=
  let a := R.MEQ_TSTAT t
  ((s.setF a F.MEQ_TSTAT_bad_db 1).setF a F.MEQ_TSTAT_bad_qp q).setF (R.MEQ_PSTAT (pipeOf t)) F.MEQ_PSTAT_bad_db 1

/-- SQ_DB (R346). -/
def sqDoorbell (s : State) (t q d : Nat) : State :=
  let x := s.qp t q
  let n := sqSize s t q
  let e := dist x.doorbell d
  if (1 ≤ e ∧ e ≤ n ∧ dist x.consumed d ≤ n) ∨ (qpState s t q = 4 ∧ e = 0) then
    (s.setQp t q { x with doorbell := d, stall := false }).launchReads t q
  else s.badDoorbell t q

/-- CQ_ACK (R347). -/
def cqAck (s : State) (t q k : Nat) : State :=
  let x := s.qp t q
  if dist x.acked k ≤ dist x.acked x.posted then (s.setQp t q { x with acked := k }).postNext t q else s.badDoorbell t q

/-- The frames of a queue pair that have not started leave the egress queues (R348). -/
def State.dropOwned (s : State) (t q : Nat) : State :=
  { s with ports := s.ports.map (fun p => (p.1, { p.2 with queues := p.2.queues.map (fun c => (c.1, c.2.filter (fun f =>
      match f.owner with
      | some (a, b, _) => a ≠ t || b ≠ q
      | none => true))) })) }

/-- ABORT (R348). -/
def abortQp (t q : Nat) (s : State) : State :=
  let x := s.qp t q
  ((((s.dropAccs t x.accs).setQp t q { x with cur := none, part := [], chains := [], free := [], cq := [], rx := none, fills := [], scan := none,
                                              startAt := none, stopC := none, stall := false, completed := x.consumed,
                                              aborted := true }).setQpState t q 0).dropOwned t q).launchReads t q

/-- An entry of a completion ring in slot `i`: its number, its asn and its ncons, when it stands in its slot with its phase
(R374). -/
def cqEntry (s : State) (t q i : Nat) (l : Line) : Option (Nat × Nat × Nat) :=
  let n := s.f (R.MEQ_QP_CFG t q) F.MEQ_QP_CFG_cq_log2
  let casn := dfld l 0 0 32
  if casn % 2 ^ n = i ∧ (dfld l 0 32 1 = 1 ↔ !casn.testBit n) then some (casn, dfld l 1 0 32, dfld l 0 56 7) else none

/-- The break between an entry and the one in the slot after it (R374). -/
def cqBreak (e f : Option (Nat × Nat × Nat)) : List (Nat × Nat × Nat) :=
  match e, f with
  | some x, some y => if y.1 ≠ num32 (x.1 + 1) then [x] else []
  | some x, none => [x]
  | none, _ => []

/-- The whole completion ring is read: the one break gives the numbers (R374). -/
def State.rebuilt (s : State) (t q : Nat) (breaks : List (Nat × Nat × Nat)) : State :=
  match breaks with
  | [e] =>
    let last := num32 (e.2.1 + (if e.2.2 = 0 then 1 else e.2.2) + 2 ^ 32 - 1)
    (s.updQp t q (fun x => { x with scan := none, posted := e.1, acked := num32 (e.1 + 2 ^ 32 - cqSize s t q), completed := last, consumed := last,
                                    doorbell := last, reads := [], stall := false })).setF (R.MEQ_QP_STAT t q) F.MEQ_QP_STAT_valid 1
  | _ => s.updQp t q (fun x => { x with scan := none, lastReason := 0x12 })

/-- A REBUILD goes on: the slot that was read is judged with the one before it, and the next is read; a failed read ends it
(R374). -/
def State.runScan (s : State) (t q : Nat) : State :=
  match (s.qp t q).scan with
  | none => s
  | some y =>
    let r := s.takeAcc t y.acc
    match r.2.got with
    | none =>
      let r2 := r.1.launchAcc t r.2
      r2.1.updQp t q (fun x => { x with scan := some { y with acc := r2.2 } })
    | some (.data v) =>
      let e := cqEntry s t q y.next (BitVec.ofNat 512 v)
      let first := if y.next = 0 then e else y.first
      let breaks := y.breaks ++ (if y.next = 0 then [] else cqBreak y.last e)
      if y.next + 1 = cqSize s t q then r.1.rebuilt t q (breaks ++ cqBreak e first)
      else
        let r2 := r.1.launchAcc t { addr := cqSlot s t q (y.next + 1) }
        r2.1.updQp t q (fun x => { x with scan := some { next := y.next + 1, first := first, last := e, breaks := breaks, acc := r2.2 } })
    | some _ => r.1.updQp t q (fun x => { x with scan := none, lastReason := 0x11 })

/-- REBUILD (R374): the numbers are derived from the completion ring, which is read slot by slot. -/
def rebuildQp (t q : Nat) (s : State) : State :=
  if qpState s t q ≠ 0 ∨ qpValid s t q then s.badDoorbell t q
  else
    let s1 := s.dropAccs t (((s.qp t q).scan.map (fun y => [y.acc])).getD [])
    (s1.updQp t q (fun x => { x with scan := some { acc := { addr := cqSlot s t q 0 } } })).runScan t q

/-- The place of a doorbell in the address space (R44). -/
def doorbellPa (t off : Nat) : Nat := 0xE0000000000 + t * 0x1000 + off

/-- A store to a tenant's doorbell page is acknowledged: the packet that carries it leaves the inbox. -/
def State.ackStore (s : State) (pa : Nat) : State :=
  match s.inbox.find? (fun p => p.net = 0 && p.typ = 0xB && p.pa = pa) with
  | none => s
  | some p => (s.take p).answer p (.data 0)

/-- A store to a doorbell page (R345): accepted by the rule of its doorbell, or ignored and recorded, as every
one of a suspended tenant is (R478). -/
def doorbell (t off size : Nat) (v : Word) (s0 : State) : State :=
  let s := s0.ackStore (doorbellPa t off)
  let q := off / 0x40 % 8
  if size ≠ 8 ∨ 0x200 ≤ off ∨ !s.on (R.MEQ_TCTL t) F.MEQ_TCTL_en ∨ !tenantRuns s (pipeOf t) t then s.badDoorbell t q
  else match off % 0x40 with
    | 0 => if v.toNat < 2 ^ 32 then sqDoorbell s t q v.toNat else s.badDoorbell t q
    | 8 => if v.toNat < 2 ^ 32 then cqAck s t q v.toNat else s.badDoorbell t q
    | 0x10 => if v = 1 then abortQp t q s else if v = 2 then rebuildQp t q s else s.badDoorbell t q
    | _ => s.badDoorbell t q

/-- SQ_DB (R346), and any other store to the page by its offset (R345). -/
def execSqDb (tenant off size : Nat) (v : Word) (s : State) : Host.Outcome State Fault Refusal := atTenant tenant s (doorbell tenant off size v)
/-- CQ_ACK (R347). -/
def execCqAck (tenant qp size : Nat) (v : Word) (s : State) : Host.Outcome State Fault Refusal :=
  if qp < 8 then atTenant tenant s (doorbell tenant (qp * 0x40 + 8) size v) else .fault .noSuchUnit
/-- ABORT (R348). -/
def execAbort (tenant qp : Nat) (s : State) : Host.Outcome State Fault Refusal :=
  if qp < 8 then atTenant tenant s (doorbell tenant (qp * 0x40 + 0x10) 8 1) else .fault .noSuchUnit
/-- REBUILD (R374). -/
def execRebuild (tenant qp : Nat) (s : State) : Host.Outcome State Fault Refusal :=
  if qp < 8 then atTenant tenant s (doorbell tenant (qp * 0x40 + 0x10) 8 2) else .fault .noSuchUnit

/-! ## Transmission (R366 to R369, R410) -/

/-- The ports of a queue pair, as port numbers of the part. -/
def qpPorts (s : State) (t q : Nat) : List Nat :=
  ((List.range 20).filter (fun p => (s.f (R.MEQ_QP_PORT t q) F.MEQ_QP_PORT_ports).testBit p)).map (20 * pipeOf t + ·)

/-- The lines that a SEND's buffer lies in. -/
def descLines (d : SqDesc) : Nat := (fld d.a 0 44 % 64 + (fld d.b 0 14 + 1) + 63) / 64

/-- The reads of a chain's data (R340). -/
def chainLoads (ds : List SqDesc) : List LineAcc :=
  ds.flatMap (fun d => (List.range (descLines d)).map (fun i => { addr := fld d.a 0 44 / 64 * 64 + 64 * i }))

/-- The payload of a chain in order, from the lines read. -/
def chainBytes : List SqDesc → List LineAcc → List Byte
  | [], _ => []
  | d :: ds, l => sub (accBytes (l.take (descLines d))) (fld d.a 0 44 % 64) (fld d.b 0 14 + 1) ++ chainBytes ds (l.drop (descLines d))

/-- The bytes of a queue pair's header template (R378). -/
def templateBytes (s : State) (t q : Nat) : List Byte :=
  ((List.range 16).flatMap (fun i => wordBytes 4 (s.reg (R.MEQ_QP_HDR t q i)).toNat)).take (s.f (R.MEQ_QP_HLEN t q) F.MEQ_QP_HLEN_len)

/-- A UDP checksum over a pseudo header's sum and the segment from the UDP header on; 0 is sent as 0xFFFF (R410). -/
def udpSum (pseudo : Nat) (seg : List Byte) : Nat :=
  let c := inetSum (pseudo + 17 + seg.length + sum16 seg)
  if c = 0 then 0xFFFF else c

/-- A segment frame: the template with the fields of its kind filled, and what follows it (R410). `n` is the queue pair's
identification or sequence number. -/
def fillTemplate (kind n : Nat) (tpl rest : List Byte) : List Byte :=
  let l2 := if beAt tpl 12 2 = 0x8100 then 18 else 14
  let len := rest.length
  let withUdp (h : List Byte) (o : Nat) (pseudo : List Byte) : List Byte :=
    if o + 8 ≤ h.length then
      let h0 := bePut h (o + 6) 2 0
      bePut h0 (o + 6) 2 (udpSum (sum16 pseudo) (h0.drop o ++ rest))
    else h
  let head := match kind with
    | 1 =>
      let ip := if l2 + 20 ≤ tpl.length ∧ beAt tpl l2 1 % 16 = 5 then
          let h := bePut (bePut (bePut tpl (l2 + 2) 2 (28 + len)) (l2 + 4) 2 n) (l2 + 10) 2 0
          bePut h (l2 + 10) 2 (inetSum (sum16 (sub h l2 20)))
        else tpl
      let u := if l2 + 28 ≤ tpl.length then bePut ip (l2 + 24) 2 (8 + len) else ip
      withUdp u (l2 + 20) (sub u (l2 + 12) 8)
    | 2 =>
      let ip := if l2 + 40 ≤ tpl.length then bePut tpl (l2 + 4) 2 (8 + len) else tpl
      withUdp ip (l2 + 40) (sub ip (l2 + 8) 32)
    | 3 =>
      let st := beAt tpl l2 1
      if st = 0x82 ∧ l2 + 12 ≤ tpl.length then
        bePut (bePut tpl (l2 + 1) 2 (beAt tpl (l2 + 1) 2 / 2048 * 2048 + len % 2048)) (l2 + 3) 1 n
      else if st = 5 ∧ l2 + 24 ≤ tpl.length then bePut (bePut tpl (l2 + 20) 2 len) (l2 + 2) 1 n
      else tpl
    | _ => tpl
  head ++ rest

/-- What follows the template in the segment from byte `o` of a payload (R368, R369). -/
def segmentBytes (macc : Nat) (payload : List Byte) (o n : Nat) : List Byte :=
  let last := decide (payload.length ≤ o + n)
  beBytes 4 macc ++ beBytes 2 ((if last then 0x8000 else 0) + o / 8 % 8192) ++ beBytes 2 (payload.length - 1) ++ sub payload o n
    ++ (if last then beBytes 4 (crc32c (beBytes 4 macc ++ payload)) else [])

/-- The frames of a message (R367): one in mode RAW, one for each segment in mode MSG; the identification of kind 1 and the
sequence number of kind 3 count up from the queue pair's. -/
def messageFrames (s : State) (t q macc : Nat) (payload : List Byte) : List (List Byte) :=
  if !isMsg s t q then [payload]
  else
    let n := 8 * s.f (R.MEQ_QP_MSG t q) F.MEQ_QP_MSG_seg8
    let kind := s.f (R.MEQ_QP_HLEN t q) F.MEQ_QP_HLEN_kind
    let x := s.qp t q
    let base := if kind = 3 then x.avtpSeq else x.ipId
    (List.range (max 1 ((payload.length + n - 1) / max 1 n))).map (fun i =>
      fillTemplate kind (base + i) (templateBytes s t q) (segmentBytes macc payload (n * i) n))

/-- A chain of a queue pair is replaced. -/
def State.setChain (s : State) (t q : Nat) (c d : TxChain) : State :=
  s.updQp t q (fun x => { x with chains := x.chains.map (fun y => if y = c then d else y) })

/-- The data of a chain is read: the channel faults, or the chain is refused as POISON, or its frames stand ready (R361,
R366). -/
def State.loadedChain (s : State) (t q : Nat) (c : TxChain) : State :=
  let d := c.descs.head?
  if accsFault c.loads then
    (s.updQp t q (fun x => { x with chains := x.chains.filter (fun y => y ≠ c) })).chanFault t q ((d.map (fun d => d.asn)).getD 0) 6 (some (c.cqe 6))
  else if accsPoison c.loads then (s.setChain t q c { c with loads := [], status := some 8 }).settleTx t q
  else
    let fs := messageFrames s t q ((d.map (fun d => fld d.b 32 32)).getD 0) (chainBytes c.descs c.loads)
    let s1 := s.setChain t q c { c with loads := [], frames := fs }
    if isMsg s t q then s1.updQp t q (fun x => { x with ipId := (x.ipId + fs.length) % 65536, avtpSeq := (x.avtpSeq + fs.length) % 256 }) else s1

/-- The reads of a chain's data go on; the flag says that all are answered. -/
def State.loadChain (s : State) (t q : Nat) (c : TxChain) : State × Bool :=
  let r := s.runAccs t c.loads
  let c1 := { c with loads := r.2 }
  let s1 := r.1.setChain t q c c1
  if accsDone r.2 then (s1.loadedChain t q c1, true) else (s1, false)

/-- Whether the queues of a queue pair's ports have room for a frame and its bucket holds the frame's length (R378, R396). -/
def frameMayGo (s : State) (t q n : Nat) : Bool :=
  (qpPorts s t q).all (fun p => queueHasRoom s p (s.f (R.MEQ_QP_CFG t q) F.MEQ_QP_CFG_tc) n)
    && (s.f (R.MEQ_QP_RATE t q) F.MEQ_QP_RATE_rate = 0 || decide (16 * n ≤ (s.qp t q).bucket))

/-- The next frame of the first chain that has frames left is queued if it may go. -/
def State.feedFrame (s : State) (t q : Nat) : State × Bool :=
  let x := s.qp t q
  match x.chains.find? (fun c => c.started && c.frames ≠ []) with
  | none => (s, false)
  | some c =>
    match c.frames with
    | [] => (s, false)
    | b :: rest =>
      if !frameMayGo s t q b.length then (s, false)
      else
        let y := { x with chains := x.chains.map (fun d => if d = c then { c with frames := rest } else d),
                          bucket := if s.f (R.MEQ_QP_RATE t q) F.MEQ_QP_RATE_rate = 0 then x.bucket else x.bucket - 16 * b.length }
        let f := { parseFrame b with owner := some (t, q, (c.descs.head?.map (fun d => d.asn)).getD 0) }
        ((s.setQp t q y).hostFrame (pipeOf t) (s.f (R.MEQ_QP_CFG t q) F.MEQ_QP_CFG_tc) (s.f (R.MEQ_QP_PORT t q) F.MEQ_QP_PORT_ports) f, true)

/-- Transmission goes on: frames are queued while they may go, the reads of a started chain go on, and in RUNNING the next
chain starts (R357, R366). -/
def State.pumpTx (s : State) (t q : Nat) : Nat → State
  | 0 => s
  | n + 1 =>
    let r := s.feedFrame t q
    if r.2 then r.1.pumpTx t q n
    else if (s.qp t q).chains.any (fun c => c.started && c.frames ≠ []) then s
    else match (s.qp t q).chains.find? (fun c => c.loads ≠ []) with
      | some c =>
        let l := s.loadChain t q c
        if l.2 then l.1.pumpTx t q n else l.1
      | none =>
        if qpState s t q ≠ 2 then s
        else match (s.qp t q).chains.find? (fun c => !c.started && c.status.isNone) with
          | none => s
          | some c => (s.setChain t q c { c with started := true, loads := chainLoads c.descs }).pumpTx t q n

/-- Enough turns for the frames and chains that wait. -/
def State.transmit (s : State) (t q : Nat) : State := s.pumpTx t q 8192

/-- SEND_CHAIN_COMPLETE (R366): the first chain's last frame has left its port. -/
def chainComplete (t q : Nat) (s : State) : State :=
  let x := s.qp t q
  match x.chains with
  | [] => s
  | c :: rest =>
    let asn := (c.descs.head?.map (fun d => d.asn)).getD 0
    let waits := s.ports.any (fun p => p.2.queues.any (fun m => m.2.any (fun f => f.owner = some (t, q, asn))))
    if !c.started || c.loads ≠ [] || c.frames ≠ [] || waits then s
    else
      let e := c.cqe 0
      let s1 := ((s.setQp t q { x with chains := rest }).qpCount t q 0 1).qpCount t q 1 e.length
      ((s1.emit t q e).settleTx t q).transmit t q

/-- SEND_CHAIN_COMPLETE (R366). -/
def execSendChainComplete (tenant qp : Nat) (s : State) : Host.Outcome State Fault Refusal :=
  if qp < 8 then atTenant tenant s (chainComplete tenant qp) else .fault .noSuchUnit

/-! ## What a consumed descriptor does (R357 to R363) -/

/-- The descriptor that is consumed and not executed, if it has the operation. -/
def curOp (s : State) (t q op : Nat) : Option SqDesc := (s.qp t q).cur.filter (fun d => d.op = op)

/-- The consumed descriptor completes with a status and reason. -/
def State.finish (s : State) (t q : Nat) (d : SqDesc) (status reason : Nat) : State :=
  let s1 := s.updQp t q (fun x => { x with cur := none, lastReason := if status = 4 then reason else x.lastReason })
  s1.emit t q { status, reason, ncons := 1, asn := d.asn, tag := d.tag }

/-- Whether earlier SEND chains hold a command's completion (R358). -/
def behindChains (s : State) (t q : Nat) : Bool := (s.qp t q).chains ≠ []

/-- A command that is not valid while the channel is ARMED or RUNNING: STATE after every earlier chain (R358). -/
def State.stateError (s : State) (t q : Nat) (d : SqDesc) : State :=
  if (qpState s t q = 1 ∨ qpState s t q = 2) ∧ behindChains s t q then s else s.finish t q d 1 0

/-- NOP_DESCRIPTOR (R358). -/
def nopDesc (t q : Nat) (s : State) : State :=
  match curOp s t q 0 with
  | none => s
  | some d =>
    match qpState s t q with
    | 0 => s.finish t q d 0 0
    | 4 => s.finish t q d 1 0
    | _ => if behindChains s t q then s else s.finish t q d 0 0

/-- NOP_DESCRIPTOR (R358). -/
def execNopDescriptor (tenant qp : Nat) (s : State) : Host.Outcome State Fault Refusal :=
  if qp < 8 then atTenant tenant s (nopDesc tenant qp) else .fault .noSuchUnit

/-- A chain that is complete: refused with TOOLONG above the channel's limits (R366, R383). -/
def State.joinChain (s : State) (t q : Nat) (ds : List SqDesc) (cut : Bool) : State :=
  let total := (ds.map (fun d => fld d.b 0 14 + 1)).sum
  let tooLong := cut || decide (s.f (R.MEQ_QP_MSG t q) F.MEQ_QP_MSG_max_msg < total)
    || (!isMsg s t q && (qpPorts s t q).any (fun p => decide (s.f (R.ETH_CFG p) F.ETH_CFG_maxf < total)))
  let c : TxChain := { descs := ds, status := if tooLong then some 7 else none }
  ((s.updQp t q (fun x => { x with chains := x.chains ++ [c], part := [] })).settleTx t q).transmit t q

/-- SEND (R358, R366). A SEND on a receive channel completes with STATE (DESIGN CHOICE, log 39). -/
def sendDesc (t q : Nat) (s : State) : State :=
  match curOp s t q 1 with
  | none => s
  | some d =>
    if qpState s t q = 0 ∨ qpState s t q = 4 ∨ isRx s t q then s.finish t q d 1 0
    else
      let ds := (s.qp t q).part ++ [d]
      let s1 := s.updQp t q (fun x => { x with cur := none, part := ds })
      if !d.more then s1.joinChain t q ds false
      else if s.f (R.MEQ_QP_CFG t q) F.MEQ_QP_CFG_max_chain ≤ ds.length then s1.joinChain t q ds true
      else s1

/-- SEND (R366). -/
def execSend (tenant qp : Nat) (s : State) : Host.Outcome State Fault Refusal :=
  if qp < 8 then atTenant tenant s (sendDesc tenant qp) else .fault .noSuchUnit

/-- POST (R358, R364). A POST on a transmit channel completes with STATE (DESIGN CHOICE, log 39). -/
def postDesc (t q : Nat) (s : State) : State :=
  match curOp s t q 2 with
  | none => s
  | some d =>
    if qpState s t q = 0 ∨ qpState s t q = 4 ∨ !isRx s t q then s.finish t q d 1 0
    else s.updQp t q (fun x => { x with cur := none, free := x.free ++ [⟨d.asn, fld d.a 0 44, d.tag⟩] })

/-- POST (R364). -/
def execPost (tenant qp : Nat) (s : State) : Host.Outcome State Fault Refusal :=
  if qp < 8 then atTenant tenant s (postDesc tenant qp) else .fault .noSuchUnit

/-- The channel becomes RUNNING and the START completes (R358, R359). -/
def State.startNow (s : State) (t q : Nat) (d : SqDesc) : State :=
  ((s.setQpState t q 2).finish t q d 0 0).transmit t q

/-- START (R358, R359). -/
def startDesc (t q : Nat) (s : State) : State :=
  match curOp s t q 8 with
  | none => s
  | some d =>
    if qpState s t q = 1 then
      if bit d.a 63 && decide (gptpNs s (pipeOf t) < fld d.a 0 48) then
        s.updQp t q (fun x => { x with cur := none, startAt := some (fld d.a 0 48, d) })
      else s.startNow t q d
    else s.stateError t q d

/-- START (R359). -/
def execStart (tenant qp : Nat) (s : State) : Host.Outcome State Fault Refusal :=
  if qp < 8 then atTenant tenant s (startDesc tenant qp) else .fault .noSuchUnit

/-- TIMED_START (R359): the time of a timed START is reached. -/
def timedStart (t q : Nat) (s : State) : State :=
  match (s.qp t q).startAt with
  | none => s
  | some (ns, d) =>
    if qpState s t q = 1 ∧ ns ≤ gptpNs s (pipeOf t) then (s.updQp t q (fun x => { x with startAt := none })).startNow t q d else s

/-- TIMED_START (R359). -/
def execTimedStart (tenant qp : Nat) (s : State) : Host.Outcome State Fault Refusal :=
  if qp < 8 then atTenant tenant s (timedStart tenant qp) else .fault .noSuchUnit

/-- STOP (R358, R360). -/
def stopDesc (t q : Nat) (s : State) : State :=
  match curOp s t q 9 with
  | none => s
  | some d =>
    match qpState s t q with
    | 0 => s.finish t q d 0 0
    | 4 => (s.setQpState t q 0).finish t q d 0 0
    | _ =>
      let s1 := (s.setQpState t q 3).updQp t q (fun x => { x with cur := none, stopC := some { status := 0, ncons := 1, asn := d.asn, tag := d.tag } })
      ((s1.flushWork t q).settleTx t q).postNext t q

/-- STOP (R360). -/
def execStop (tenant qp : Nat) (s : State) : Host.Outcome State Fault Refusal :=
  if qp < 8 then atTenant tenant s (stopDesc tenant qp) else .fault .noSuchUnit

/-- CHANNEL_DRAIN_END (R360): with no message left the channel is STOPPED and the STOP completes last. -/
def drainEnd (t q : Nat) (s : State) : State :=
  let x := s.qp t q
  match x.stopC with
  | none => s
  | some c =>
    if qpState s t q = 3 ∧ x.chains = [] ∧ x.fills = [] then ((s.setQpState t q 0).setQp t q { x with stopC := none }).emit t q c else s

/-- CHANNEL_DRAIN_END (R360). -/
def execChannelDrainEnd (tenant qp : Nat) (s : State) : Host.Outcome State Fault Refusal :=
  if qp < 8 then atTenant tenant s (drainEnd tenant qp) else .fault .noSuchUnit

/-- Whether EDIT may write the word at a page offset (R362). -/
def editable (o : Nat) : Bool :=
  o % 4 = 0 && (o = 4 || o = 0x20 || o = 0x24 || o = 0x28 || o = 0x2C || o = 0x30 || (decide (0x80 ≤ o) && decide (o < 0xC0))
    || (decide (0x100 ≤ o) && decide (o < 0x140)))

/-- The low or high 32 bits of a register replaced, reserved bits staying 0. -/
def State.editWord (s : State) (a v : Nat) : State :=
  match findReg a with
  | some r => s.setReg a (BitVec.ofNat 64 v &&& (r.d.fields.foldl (fun m f => m ||| fmask f.lo f.w) 0))
  | none =>
    match findReg (a - 4) with
    | some _ => s.setReg (a - 4) (setFld (s.reg (a - 4)) 32 32 v)
    | none => s

/-- The EDIT of a word of a 64-bit register keeps its other half. -/
def State.editSet (s : State) (t q o v : Nat) : State :=
  let a := R.MEQ_QP_CFG t q + o
  if 0x100 ≤ o ∧ o % 8 = 0 then s.setReg a (setFld (s.reg a) 0 32 v) else s.editWord a v

/-- EDIT (R358, R362). -/
def editDesc (t q : Nat) (s : State) : State :=
  match curOp s t q 0xA with
  | none => s
  | some d =>
    if qpState s t q = 0 then
      if editable (fld d.a 0 12) then (s.editSet t q (fld d.a 0 12) (fld d.b 0 32)).finish t q d 0 0 else s.finish t q d 4 0x10
    else s.stateError t q d

/-- EDIT (R362). -/
def execEdit (tenant qp : Nat) (s : State) : Host.Outcome State Fault Refusal :=
  if qp < 8 then atTenant tenant s (editDesc tenant qp) else .fault .noSuchUnit

/-- Whether a page of a ring fails the permission it needs (R363). -/
def badRing (s : State) (t base bytes : Nat) (write : Bool) : Bool :=
  (List.range ((base % 4096 + bytes + 4095) / 4096)).any (fun i => (tenantPa s t (base / 4096 * 4096 + 4096 * i) write).isNone)

/-- Whether a match entry of the channel equals one of another active channel of its pipeline (R363). -/
def clashes (s : State) (t q : Nat) : Bool :=
  (matchQps s (pipeOf t)).any (fun (u, r) =>
    (u ≠ t || r ≠ q) && isRx s u r && (qpState s u r = 1 || qpState s u r = 2)
      && (List.range 4).any (fun i => (List.range 4).any (fun j =>
        entryKind s t q i ≠ 0 && entryKind s t q i = entryKind s u r j
          && ((s.reg (R.MEQ_QP_MVAL t q i) ^^^ s.reg (R.MEQ_QP_MVAL u r j)) &&& s.reg (R.MEQ_QP_MMSK t q i) &&& s.reg (R.MEQ_QP_MMSK u r j)) = 0)))

/-- The first check of a RESUME that fails; 0: none does (R363). -/
def resumeReason (s : State) (t q : Nat) : Nat :=
  let c := R.MEQ_QP_CFG t q
  let rx := isRx s t q
  let sl := s.f c F.MEQ_QP_CFG_sq_log2
  let cl := s.f c F.MEQ_QP_CFG_cq_log2
  let sqb := s.f (R.MEQ_QP_SQB t q) F.MEQ_QP_SQB_base * 64
  let cqb := s.f (R.MEQ_QP_CQB t q) F.MEQ_QP_CQB_base * 64
  let bl := s.f c F.MEQ_QP_CFG_buf_log2
  let mc := s.f c F.MEQ_QP_CFG_max_chain
  let mm := s.f (R.MEQ_QP_MSG t q) F.MEQ_QP_MSG_max_msg
  let seg := 8 * s.f (R.MEQ_QP_MSG t q) F.MEQ_QP_MSG_seg8
  let hl := s.f (R.MEQ_QP_HLEN t q) F.MEQ_QP_HLEN_len
  let ports := s.f (R.MEQ_QP_PORT t q) F.MEQ_QP_PORT_ports
  let allowed := if rx then s.f (R.MEQ_TLIM t q) F.MEQ_TLIM_in_ports else s.f (R.MEQ_TLIM t q) F.MEQ_TLIM_eg_ports
  if !s.on (R.MEQ_TCTL t) F.MEQ_TCTL_en then 1
  else if !qpValid s t q then 2
  else if sl < 6 ∨ 16 < sl ∨ cl < 6 ∨ 16 < cl then 3
  else if sqb % min (64 * 2 ^ sl) 4096 ≠ 0 ∨ cqb % min (64 * 2 ^ cl) 4096 ≠ 0 then 4
  else if badRing s t sqb (64 * 2 ^ sl) false || badRing s t cqb (64 * 2 ^ cl) true then 5
  else if rx ∧ (bl < 8 ∨ 14 < bl) then 6
  else if mc < 1 ∨ 64 < mc then 7
  else if mm = 0 ∨ 65536 < mm then 8
  else if rx ∧ 2 ^ bl * mc < mm then 9
  else if !rx && isMsg s t q && (seg = 0 || (qpPorts s t q).any (fun p => decide (s.f (R.ETH_CFG p) F.ETH_CFG_maxf < seg + hl + 12))) then 0xA
  else if ports = 0 ∨ ports &&& allowed ≠ ports then 0xB
  else if s.f (R.MEQ_TLIM t q) F.MEQ_TLIM_max_tc < s.f c F.MEQ_QP_CFG_tc then 0xC
  else if !rx ∧ (hl % 2 = 1 ∨ 64 < hl ∨ 3 < s.f (R.MEQ_QP_HLEN t q) F.MEQ_QP_HLEN_kind) then 0xD
  else if rx && clashes s t q then 0xE
  else 0

/-- RESUME (R358, R363). -/
def resumeDesc (t q : Nat) (s : State) : State :=
  match curOp s t q 0xB with
  | none => s
  | some d =>
    if qpState s t q = 0 then
      let r := resumeReason s t q
      if r ≠ 0 then s.finish t q d 4 r
      else ((s.setQpState t q 1).updQp t q (fun x => { x with aborted := false, ipId := 0, avtpSeq := 0, bucket := 0 })).finish t q d 0 0
    else s.stateError t q d

/-- RESUME (R363). -/
def execResume (tenant qp : Nat) (s : State) : Host.Outcome State Fault Refusal :=
  if qp < 8 then atTenant tenant s (resumeDesc tenant qp) else .fault .noSuchUnit

/-! ## The end of a completion's write (R355) -/

/-- COMPLETION_POSTED (R355): the acknowledgement, from the packet that waits or the answer given. -/
def completionPosted (t q : Nat) (ans : MemAns) (s : State) : State :=
  let x := s.qp t q
  match x.posting with
  | none => s
  | some (c, casn, tag, pa, late) =>
    let u := pipeUnit (pipeOf t)
    let r := match s.inbox.find? (fun p => p.dst = u && p.tag = tag && (p.net = 1 || p.net = 3) && p.pa = pa) with
      | some p => (s.take p, (ansOf p).getD .poison)
      | none => (s, ans)
    if tooEarly s late r.2 then s
    else match r.2 with
    | .data _ =>
      let y := { x with posting := none, posted := casn, completed := if c.ncons = 0 then x.completed else num32 (c.asn + c.ncons + 2 ^ 32 - 1) }
      let s1 := r.1.setQp t q y
      let s2 := if s.on (R.MEQ_QP_CFG t q) F.MEQ_QP_CFG_nen then
          s1.inject { net := 0, typ := 0xB, src := u, dst := clusterUnit (s.f (R.MEQ_QP_CFG t q) F.MEQ_QP_CFG_ncl), tag := q, tenant := t, size := 0, clsA := false }
        else s1
      s2.postNext t q
    | a => ((if a = .timeout then r.1.loseTag u tag else r.1).setQp t q { x with posting := none }).chanFault t q c.asn 6 none

/-- COMPLETION_POSTED (R355). -/
def execCompletionPosted (tenant qp : Nat) (ans : MemAns) (s : State) : Host.Outcome State Fault Refusal :=
  if qp < 8 then atTenant tenant s (completionPosted tenant qp ans) else .fault .noSuchUnit

/-! ## Reception (R364, R365, R370) -/

/-- The writes that fill the buffers of a message in order: each line whole, the last one of the message with zeros behind it
(R364). -/
def fillAccs (size : Nat) (bs : List Byte) : List RxBuf → List LineAcc
  | [] => []
  | b :: l =>
    let part := bs.take size
    (List.range ((part.length + 63) / 64)).map (fun i =>
        { addr := b.addr + 64 * i, write := some (BitVec.ofNat 512 (bytesNat (sub part (64 * i) 64))) })
      ++ fillAccs size (bs.drop size) l

/-- A message is written: it is counted and completed, or the channel faults (R361, R364, R378). -/
def State.filled (s : State) (t q : Nat) (f : RxFill) : State :=
  let c := f.done
  if accsFault f.accs || accsPoison f.accs then
    s.chanFault t q c.asn 6 (some { status := 6, asn := c.asn, tag := c.tag, nbuf := c.nbuf })
  else
    let s1 := if c.port = 63 then s.unitCount (R.CAN_GW_CNT (12 * pipeOf t) 4) F.CAN_GW_CNT_count 1 else s
    ((s1.qpCount t q 0 1).qpCount t q 1 c.length).emit t q c

/-- The messages being written go on, and those at the front that are written complete in order; `n` bounds them. -/
def State.runFills (s : State) (t q : Nat) : Nat → State
  | 0 => s
  | n + 1 =>
    match (s.qp t q).fills with
    | [] => s
    | f :: rest =>
      let r := s.runAccs t f.accs
      let f1 := { f with accs := r.2 }
      if accsDone r.2 then
        ((((r.1.updQp t q (fun x => { x with fills := rest })).filled t q f1).settleTx t q).runFills t q n)
      else
        let r2 := rest.foldl (fun (y : State × List RxFill) g =>
          let z := y.1.runAccs t g.accs
          (z.1, y.2 ++ [{ g with accs := z.2 }])) (r.1, [])
        r2.1.updQp t q (fun x => { x with fills := f1 :: r2.2 })

/-- Buffers a message of `n` bytes needs (R364). -/
def bufsFor (s : State) (t q n : Nat) : Nat :=
  let b := 2 ^ s.f (R.MEQ_QP_CFG t q) F.MEQ_QP_CFG_buf_log2
  max 1 ((n + b - 1) / b)

/-- The cause a message of `n` bytes is dropped for when it arrives, if any (R364, R365). -/
def dropCause (s : State) (t q n : Nat) : Option Nat :=
  let x := s.qp t q
  if qpState s t q ≠ 2 || !tenantRuns s (pipeOf t) t then some 54
  else if x.free.length < bufsFor s t q n then some 48
  else if s.f (R.MEQ_QP_MSG t q) F.MEQ_QP_MSG_max_msg < n then some 52
  else if cqSize s t q < dist x.acked (num32 (x.posted + x.cq.length + x.fills.length + (if x.posting.isSome then 1 else 0) + (if x.rx.isSome then 1 else 0) + 1)) then some 49
  else none

/-- The writes of a whole message into the buffers taken for it are launched (R364). -/
def State.fillMessage (s : State) (t q : Nat) (use : List RxBuf) (bs : List Byte) (port macc ts : Nat) : State :=
  let x := s.qp t q
  let first := use.head?
  let asn := (first.map (fun b => b.asn)).getD 0
  let tag := (first.map (fun b => b.tag)).getD 0
  let fill : RxFill := { accs := fillAccs (2 ^ s.f (R.MEQ_QP_CFG t q) F.MEQ_QP_CFG_buf_log2) bs use,
                         done := { status := 0, asn, tag, length := bs.length, nbuf := use.length, port, macc, ts } }
  (s.setQp t q { x with maccRx := if isMsg s t q then macc else x.maccRx, fills := x.fills ++ [fill] }).runFills t q (x.fills.length + 1)

/-- A whole message is placed in the oldest buffers, or dropped (R364). -/
def State.placeMessage (s : State) (t q : Nat) (bs : List Byte) (port macc ts : Nat) : State :=
  match dropCause s t q bs.length with
  | some c => s.dropMessage t q c
  | none =>
    let x := s.qp t q
    let n := bufsFor s t q bs.length
    (s.setQp t q { x with free := x.free.drop n }).fillMessage t q (x.free.take n) bs port macc ts

/-- A segment of a message reaches a MSG channel (R368 to R370): the first takes the message's buffers; a message that is dropped
gives them back. -/
def State.placeSegment (s : State) (t q : Nat) (a : Arrival) : State :=
  let macc := beAt a.bytes 0 4
  let w := beAt a.bytes 4 2
  let last := decide (0x8000 ≤ w)
  let o := w % 8192 * 8
  let len := beAt a.bytes 6 2 + 1
  let rest := a.bytes.drop 8
  let body := if last then rest.take (len - o) else rest
  let clear (s : State) : State := s.updQp t q Qp.giveBack
  let s0 := if o = 0 ∧ (s.qp t q).rx.isSome then (clear s).dropMessage t q 51 else s
  let n := bufsFor s t q len
  let cur : Option Reasm := if o = 0 then some ⟨macc, len, [], a.port, a.ts, s.ref, (s0.qp t q).free.take n⟩ else (s.qp t q).rx
  match cur with
  | none => s
  | some r =>
    if r.macc ≠ macc ∨ r.len ≠ len ∨ r.bytes.length ≠ o then (clear s0).dropMessage t q 51
    else match (if o = 0 then dropCause s0 t q len else none) with
      | some c => s0.dropMessage t q c
      | none =>
        let bs := r.bytes ++ body
        let s1 := s0.updQp t q (fun x => { x with rx := some { r with bytes := bs, since := s.ref }, free := if o = 0 then x.free.drop n else x.free })
        if !last then s1
        else if bs.length ≠ len then (clear s1).dropMessage t q 51
        else if beAt rest (len - o) 4 ≠ crc32c (beBytes 4 macc ++ bs) then (clear s1).dropMessage t q 50
        else
          let win := s.f (R.MEQ_QP_ACC t q) F.MEQ_QP_ACC_win
          let d := dist (s.qp t q).maccRx macc
          if win ≠ 0 ∧ (d < 1 ∨ win < d) then (clear s1).dropMessage t q 53
          else (s1.updQp t q (fun x => { x with rx := none })).fillMessage t q r.bufs bs r.port macc r.ts

/-- RECEIVE_MESSAGE (R364): the first arrival of a channel is taken. -/
def receiveMessage (t q : Nat) (s : State) : State :=
  let x := s.qp t q
  match x.arr with
  | [] => s
  | a :: rest =>
    let s1 := s.setQp t q { x with arr := rest }
    if isMsg s t q && a.port ≠ 63 then s1.placeSegment t q a else s1.placeMessage t q a.bytes a.port 0 a.ts

/-- RECEIVE_MESSAGE (R364). -/
def execReceiveMessage (tenant qp : Nat) (s : State) : Host.Outcome State Fault Refusal :=
  if qp < 8 then atTenant tenant s (receiveMessage tenant qp) else .fault .noSuchUnit

/-- REASSEMBLY_TIMEOUT (R370). -/
def reasmTimeout (t q : Nat) (s : State) : State :=
  match (s.qp t q).rx with
  | none => s
  | some r =>
    if max 1 (s.f (R.MEQ_QP_ACC t q) F.MEQ_QP_ACC_reasm) * 64 ≤ s.ref - r.since then
      (s.updQp t q Qp.giveBack).dropMessage t q 51
    else s

/-- REASSEMBLY_TIMEOUT (R370). -/
def execReassemblyTimeout (tenant qp : Nat) (s : State) : Host.Outcome State Fault Refusal :=
  if qp < 8 then atTenant tenant s (reasmTimeout tenant qp) else .fault .noSuchUnit

/-! ## The accesses under way -/

/-- What is under way in a queue pair goes on: descriptor reads, the data of chains, the writes of messages, a REBUILD. -/
def State.qpWork (s : State) (t q : Nat) : State :=
  let s1 := (s.launchReads t q).postNext t q
  let s2 := if (s1.qp t q).chains = [] then s1 else s1.transmit t q
  (s2.runFills t q ((s2.qp t q).fills.length + 1)).runScan t q

/-! ## Numbers set and counters read (R374, R375, R378) -/

/-- MEQ_QP_SEQ (R374): while STOPPED, a write sets the ring numbers and makes them valid. -/
def qpSeq (t q : Nat) (v : Word) (s : State) : State :=
  if qpState s t q ≠ 0 then s
  else
    let a := num32 (fld v 0 32 + 2 ^ 32 - 1)
    let c := num32 (fld v 32 32 + 2 ^ 32 - 1)
    ((s.dropAccs t (((s.qp t q).scan.map (fun y => [y.acc])).getD [])).updQp t q (fun x => { x with consumed := a, doorbell := a, completed := a, posted := c, acked := c, reads := [], scan := none, stall := false })).setF
      (R.MEQ_QP_STAT t q) F.MEQ_QP_STAT_valid 1

/-- MEQ_QP_SEQ (R374). -/
def execMeqQpSeq (ag : Agent) (tenant qp : Nat) (v : Word) (s : State) : Host.Outcome State Fault Refusal :=
  if qp < 8 then atTenant tenant s (fun s => regCmd .meqt (R.MEQ_QP_SEQ tenant qp) ag s (qpSeq tenant qp v)) else .fault .noSuchUnit

/-- MEQ_QP_CNTREQ (R375, R378): the snapshot is valid at once (DEDUCED, log 40). -/
def qpCntreq (t q : Nat) (v : Word) (s : State) : State :=
  s.setReg (R.MEQ_QP_CNT t q) (BitVec.ofNat 64 (mget 0 (s.qp t q).cnt (fld v 0 2) + 2 ^ 62))

/-- MEQ_QP_CNTREQ (R375). -/
def execMeqQpCntreq (ag : Agent) (tenant qp : Nat) (v : Word) (s : State) : Host.Outcome State Fault Refusal :=
  if qp < 8 then atTenant tenant s (fun s => regCmd .meqt (R.MEQ_QP_CNTREQ tenant qp) ag s (qpCntreq tenant qp v)) else .fault .noSuchUnit

end Sys2Proof.Machine
end

