-- ==== Sys2Proof/Machine/Can.lean ====
section
/-! DEFINITION. The CAN and LIN controllers and the gateways (R416 to R434). What the rules take from ISO 11898-1, ISO 17987 and
IEEE 1722 is PRESUMED (logs 32, 41, 42). -/

namespace Sys2Proof.Machine

def State.can (s : State) (n : Nat) : CanCtl := mget {} s.cans n
def State.setCan (s : State) (n : Nat) (x : CanCtl) : State := { s with cans := mset s.cans n x }
def State.updCan (s : State) (n : Nat) (f : CanCtl → CanCtl) : State := s.setCan n (f (s.can n))
def State.lin (s : State) (n : Nat) : LinCtl := mget {} s.lins n
def State.setLin (s : State) (n : Nat) (x : LinCtl) : State := { s with lins := mset s.lins n x }
def State.updLin (s : State) (n : Nat) (f : LinCtl → LinCtl) : State := s.setLin n (f (s.lin n))

def canState (s : State) (n : Nat) : Nat := s.f (R.CAN_STAT n) F.CAN_STAT_state
def linState (s : State) (m : Nat) : Nat := s.f (R.LIN_STAT m) F.LIN_STAT_state
def canHalf (n : Nat) : Nat := n / 12
def linHalf (m : Nat) : Nat := m / 8

/-- The power domain of a controller's group (R416, R494). -/
def canDom (n : Nat) : Nat := 212 + n / 6
def linDom (m : Nat) : Nat := 212 + m / 4

/-- A CAN or LIN counter gains `n` (R433). -/
def State.canCount (s : State) (n i k : Nat) : State := s.unitCount (R.CAN_CNT n i) F.CAN_CNT_count k
def State.linCount (s : State) (m i : Nat) : State := s.unitCount (R.LIN_CNT m i) F.LIN_CNT_count 1
def State.gwCount (s : State) (h i : Nat) : State := s.unitCount (R.CAN_GW_CNT (12 * h) i) F.CAN_GW_CNT_count 1

/-- Bits of CAN_IRQ and LIN_IRQ are set. -/
def State.canIrq (s : State) (n i : Nat) : State := s.setReg (R.CAN_IRQ n) (setBit (s.reg (R.CAN_IRQ n)) i true)
def State.linIrq (s : State) (m i : Nat) : State := s.setReg (R.LIN_IRQ m) (setBit (s.reg (R.LIN_IRQ m)) i true)

/-! ## The CAN function (R419 to R422) -/

/-- The first check of a resume that fails; 0: none does (R419). -/
def canReason (s : State) (n : Nat) : Nat :=
  let c := R.CAN_CFG n
  let t := R.CAN_NTIM n
  let d := R.CAN_DTIM n
  let x := R.CAN_XTIM n
  let nb := s.f t F.CAN_NTIM_brp * (1 + s.f t F.CAN_NTIM_tseg1 + s.f t F.CAN_NTIM_tseg2)
  let db := s.f d F.CAN_DTIM_brp * (1 + s.f d F.CAN_DTIM_tseg1 + s.f d F.CAN_DTIM_tseg2)
  let fd := s.on c F.CAN_CFG_fd_en
  let xl := s.on c F.CAN_CFG_xl_en
  if s.f t F.CAN_NTIM_brp = 0 ∨ s.f t F.CAN_NTIM_tseg1 < 2 ∨ s.f t F.CAN_NTIM_tseg2 = 0 ∨ s.f t F.CAN_NTIM_sjw = 0
      ∨ s.f t F.CAN_NTIM_tseg2 < s.f t F.CAN_NTIM_sjw ∨ nb < 160 then 1
  else if (fd ∨ xl) ∧ (s.f d F.CAN_DTIM_tseg2 < s.f d F.CAN_DTIM_sjw ∨ nb < db ∨ db < (if xl then 8 else 20)) then 2
  else if !domOn s (canDom n) then 3
  else if s.on c F.CAN_CFG_xmode ∧ (!xl ∨ s.f x F.CAN_XTIM_pwms = 0 ∨ s.f x F.CAN_XTIM_pwml = 0
      ∨ db < s.f x F.CAN_XTIM_pwms + s.f x F.CAN_XTIM_pwml) then 4
  else 0

/-- CAN_CTL.resume (R419): the error counters start at 0 and the controller error-active. At SAFE-STATE it
stays stopped (R477). -/
def canResume (n : Nat) (s : State) : State :=
  if canState s n ≠ 0 || heldInReset s (canHalf n) then s
  else
    let r := canReason s n
    let a := R.CAN_STAT n
    if r ≠ 0 then s.setF a F.CAN_STAT_reason r
    else (((s.setF a F.CAN_STAT_state 1).setF a F.CAN_STAT_est 0).setF a F.CAN_STAT_tec 0).setF a F.CAN_STAT_rec 0

/-- CAN_RESUME (R419). -/
def execCanResume (ag : Agent) (can : Nat) (s : State) : Host.Outcome State Fault Refusal :=
  atCan can s (fun s => regCmd .can (R.CAN_CTL can) ag s (canResume can))

/-- The transmit queue is discarded into counter 9 (R419, R420). -/
def State.flushCan (s : State) (n : Nat) (keep : Option CanTx) : State :=
  let x := s.can n
  let l := match keep with
    | some t => x.queue.filter (fun y => y = t)
    | none => []
  (s.setCan n { x with queue := l, offer := keep }).canCount n 9 (x.queue.length - l.length)

/-- CAN_CTL.stop (R419): the queue is discarded; a frame in transmission ends first. -/
def canStop (n : Nat) (s : State) : State :=
  if canState s n ≠ 1 then s
  else
    let o := (s.can n).offer
    (s.flushCan n o).setF (R.CAN_STAT n) F.CAN_STAT_state (if o.isSome then 2 else 0)

/-- CAN_STOP (R419). -/
def execCanStop (ag : Agent) (can : Nat) (s : State) : Host.Outcome State Fault Refusal :=
  atCan can s (fun s => regCmd .can (R.CAN_CTL can) ag s (canStop can))

/-- A STOPPING controller whose frame has ended is STOPPED (R419). -/
def State.canSettle (s : State) (n : Nat) : State :=
  if canState s n = 2 then (s.flushCan n none).setF (R.CAN_STAT n) F.CAN_STAT_state 0 else s

def canTec (s : State) (n : Nat) : Nat := s.f (R.CAN_STAT n) F.CAN_STAT_tec
def canRec (s : State) (n : Nat) : Nat := s.f (R.CAN_STAT n) F.CAN_STAT_rec
def canEst (s : State) (n : Nat) : Nat := s.f (R.CAN_STAT n) F.CAN_STAT_est

/-- The error counters change: error state, warnings and bus-off follow (R420). -/
def State.canErrors (s : State) (n tec rec' : Nat) : State :=
  let a := R.CAN_STAT n
  let s1 := (s.setF a F.CAN_STAT_tec (min 255 tec)).setF a F.CAN_STAT_rec (min 255 rec')
  let s2 := if (canTec s n < 96 ∧ 96 ≤ tec) ∨ (canRec s n < 96 ∧ 96 ≤ rec') then s1.canIrq n 2 else s1
  if 256 ≤ tec then (((s2.setF a F.CAN_STAT_est 2).flushCan n none).canCount n 4 1).canIrq n 0
  else if 128 ≤ tec ∨ 128 ≤ rec' then (if canEst s n = 0 then (s2.setF a F.CAN_STAT_est 1).canIrq n 1 else s2)
  else s2.setF a F.CAN_STAT_est 0

/-- CAN_BUS_ERROR (R420): 0 a receive error, 1 one with a dominant bit after the flag, 2 a transmit error, 3 a protocol
exception. -/
def canBusError (n kind : Nat) (s : State) : State :=
  if canState s n = 0 ∨ canEst s n = 2 then s
  else if kind = 3 ∧ s.on (R.CAN_CFG n) F.CAN_CFG_pex then s.canCount n 8 1
  else
    let s1 := (s.canCount n 2 1).updCan n (fun x => { x with offer := if kind = 2 then none else x.offer })
    let s2 := if kind = 2 then s1.canErrors n (canTec s n + 8) (canRec s n)
      else s1.canErrors n (canTec s n) (canRec s n + (if kind = 1 then 8 else 1))
    s2.canSettle n

/-- CAN_BUS_ERROR (R420). -/
def execCanBusError (can kind : Nat) (s : State) : Host.Outcome State Fault Refusal := atCan can s (canBusError can kind)

/-- BUS_OFF_RECOVERY (R420). -/
def busOffRecovery (n : Nat) (s : State) : State :=
  let a := R.CAN_STAT n
  if canState s n = 1 ∧ canEst s n = 2 ∧ s.on (R.CAN_CFG n) F.CAN_CFG_aboff then
    ((s.setF a F.CAN_STAT_est 0).setF a F.CAN_STAT_tec 0).setF a F.CAN_STAT_rec 0
  else s

/-- BUS_OFF_RECOVERY (R420). -/
def execBusOffRecovery (can : Nat) (s : State) : Host.Outcome State Fault Refusal := atCan can s (busOffRecovery can)

/-- Whether a frame's data length is one its format has (R418). -/
def canLenOk (f : CanFrame) : Bool :=
  match f.fmt with
  | 0 => decide (f.data.length ≤ 8)
  | 1 => decide (f.data.length ≤ 64)
  | 2 => decide (1 ≤ f.data.length) && decide (f.data.length ≤ 2048)
  | _ => false

/-- Whether a controller is set up for a format (R418, R421). -/
def formatOn (s : State) (n fmt : Nat) : Bool :=
  match fmt with
  | 0 => true
  | 1 => s.on (R.CAN_CFG n) F.CAN_CFG_fd_en
  | 2 => s.on (R.CAN_CFG n) F.CAN_CFG_xl_en
  | _ => false

/-- CAN_FRAME_RECEIVED (R422): a valid frame is counted and launched toward the gateway; a format the controller is not set
up for is a protocol exception (R420). -/
def canReceived (n : Nat) (f : CanFrame) (s : State) : State :=
  if canState s n = 0 ∨ canEst s n = 2 ∨ !canLenOk f then s
  else if !formatOn s n f.fmt then canBusError n 3 s
  else
    let r := canRec s n
    let s1 := (s.canCount n 0 1).canErrors n (canTec s n) (if 127 < r then 127 else r - 1)
    s1.updGw (canHalf n) (fun g => { g with inq := g.inq ++ [(n % 12, f, gptpNs s (canHalf n))] })

/-- CAN_FRAME_RECEIVED (R422). -/
def execCanFrameReceived (can : Nat) (f : CanFrame) (s : State) : Host.Outcome State Fault Refusal := atCan can s (canReceived can f)

/-- The arbitration field of a frame as a number: the lower wins (R421). -/
def canKey (f : CanFrame) : Nat :=
  if f.ide then f.id / 2 ^ 18 * 2 ^ 21 + 2 ^ 20 + 2 ^ 19 + f.id % 2 ^ 18 * 2 + (if f.rtr then 1 else 0)
  else f.id % 2 ^ 11 * 2 ^ 21 + (if f.rtr then 2 ^ 20 else 0)

/-- The queued frame that would win, the oldest among equals (R421). -/
def winner (x : CanCtl) : Option CanTx := argMin (fun t => canKey t.f) x.queue

/-- Whether a queued frame has waited longer than ttl (R421). -/
def expired (s : State) (n : Nat) (t : CanTx) : Bool :=
  let ttl := s.f (R.CAN_CFG n) F.CAN_CFG_ttl
  ttl ≠ 0 && decide (ttl * 1024 < s.ref - t.since)

/-- TTL_EXPIRY (R421): the frame that would be offered is discarded when it is too old. -/
def ttlExpiry (n : Nat) (s : State) : State :=
  match winner (s.can n) with
  | none => s
  | some t =>
    if expired s n t then
      ((s.updCan n (fun x => { x with queue := dropFirst (fun y => y = t) x.queue })).canCount n 6 1).canIrq n 3
    else s

/-- TTL_EXPIRY (R421). -/
def execTtlExpiry (can : Nat) (s : State) : Host.Outcome State Fault Refusal := atCan can s (ttlExpiry can)

/-- CAN_FRAME_OFFER (R421): the winning frame that is not too old is offered; an offer made again means that arbitration was
lost. -/
def canOffer (n : Nat) (s : State) : State :=
  if canState s n ≠ 1 ∨ canEst s n = 2 ∨ s.on (R.CAN_CFG n) F.CAN_CFG_lom then s
  else
    let s0 := if (s.can n).offer.isSome then s.canCount n 3 1 else s
    let s1 := (List.range 32).foldl (fun s _ => ttlExpiry n s) s0
    s1.updCan n (fun x => { x with offer := winner x })

/-- CAN_FRAME_OFFER (R421). -/
def execCanFrameOffer (can : Nat) (s : State) : Host.Outcome State Fault Refusal := atCan can s (canOffer can)

/-- CAN_FRAME_SENT (R421, R420). -/
def canSent (n : Nat) (s : State) : State :=
  match (s.can n).offer with
  | none => s
  | some t =>
    let s1 := (s.updCan n (fun x => { x with queue := dropFirst (fun y => y = t) x.queue, offer := none })).canCount n 1 1
    (s1.canErrors n (canTec s n - 1) (canRec s n)).canSettle n

/-- CAN_FRAME_SENT (R421). -/
def execCanFrameSent (can : Nat) (s : State) : Host.Outcome State Fault Refusal := atCan can s (canSent can)

/-! ## LIN (R423 to R425) -/

/-- The first check of a resume that fails; 0: none does (R423). -/
def linReason (s : State) (m : Nat) : Nat :=
  let c := R.LIN_CFG m
  let lbt := s.f c F.LIN_CFG_lbt
  if lbt < 8000 ∨ 160000 < lbt then 1
  else if !domOn s (linDom m) then 2
  else if s.on c F.LIN_CFG_role
      && (List.range (s.f c F.LIN_CFG_nsched + 1)).any (fun e => decide (s.f (R.LIN_SCHED m e) F.LIN_SCHED_slot = 0)) then 3
  else 0

/-- LIN_CTL.resume (R423): no response buffer is updated since (R424), and the schedule starts at entry 0. -/
def linResume (m : Nat) (s : State) : State :=
  if linState s m ≠ 0 || heldInReset s (linHalf m) then s
  else
    let r := linReason s m
    if r ≠ 0 then s.setF (R.LIN_STAT m) F.LIN_STAT_reason r
    else (((s.setLin m {}).setF (R.LIN_STAT m) F.LIN_STAT_state 1).setF (R.LIN_STAT m) F.LIN_STAT_sleep 0)

/-- LIN_RESUME (R423). -/
def execLinResume (ag : Agent) (lin : Nat) (s : State) : Host.Outcome State Fault Refusal :=
  atLin lin s (fun s => regCmd .lin (R.LIN_CTL lin) ag s (linResume lin))

/-- LIN_CTL.stop (R423): a response being received ends first. -/
def linStop (m : Nat) (s : State) : State :=
  if linState s m ≠ 1 then s else s.setF (R.LIN_STAT m) F.LIN_STAT_state (if (s.lin m).await.isSome then 2 else 0)

/-- LIN_STOP (R423). -/
def execLinStop (ag : Agent) (lin : Nat) (s : State) : Host.Outcome State Fault Refusal :=
  atLin lin s (fun s => regCmd .lin (R.LIN_CTL lin) ag s (linStop lin))

/-- A STOPPING controller whose frame has ended is STOPPED. -/
def State.linSettle (s : State) (m : Nat) : State := if linState s m = 2 then s.setF (R.LIN_STAT m) F.LIN_STAT_state 0 else s

/-- A protected identifier: the id with its two parity bits (ISO 17987). -/
def linPid (id : Nat) : Nat :=
  let b (i : Nat) : Bool := id.testBit i
  id % 64 + (if (b 0 ^^ b 1 ^^ b 2 ^^ b 4) then 64 else 0) + (if !(b 1 ^^ b 3 ^^ b 4 ^^ b 5) then 128 else 0)

/-- A LIN checksum: the inverted sum with carry, over the data, and over the protected identifier too when enhanced (R423). -/
def linSum (id : Nat) (enh : Bool) (data : List Byte) : Nat :=
  let n := (data.map (fun b => b.toNat)).sum + (if enh && decide (id < 60) then linPid id else 0)
  255 - (if n = 0 then 0 else (n - 1) % 255 + 1)

/-- LIN_SCHEDULE_ENTRY (R423): a commander's slot time has elapsed, and the next entry's header is sent. -/
def linEntry (m : Nat) (s : State) : State :=
  let x := s.lin m
  let ready : Bool := match x.last with
    | none => true
    | some e => decide (s.f (R.LIN_SCHED m e) F.LIN_SCHED_slot * 250 ≤ s.ref - x.breakAt)
  if linState s m = 1 ∧ s.on (R.LIN_CFG m) F.LIN_CFG_role ∧ !x.halted ∧ ready then
    let id := s.f (R.LIN_SCHED m x.entry) F.LIN_SCHED_id
    s.setLin m { x with entry := if x.entry < s.f (R.LIN_CFG m) F.LIN_CFG_nsched then x.entry + 1 else 0, last := some x.entry,
                        breakAt := s.ref, wire := [BitVec.ofNat 8 (linPid id)] }
  else s

/-- LIN_SCHEDULE_ENTRY (R423). -/
def execLinScheduleEntry (lin : Nat) (s : State) : Host.Outcome State Fault Refusal := atLin lin s (linEntry lin)

/-- LIN_HEADER (R423, R424): a header's identifier is published, subscribed or ignored; a bad one is an error. -/
def linHeader (m id : Nat) (good : Bool) (s : State) : State :=
  if linState s m ≠ 1 then s
  else if !good then (s.linCount m 4).linIrq m 0
  else
    let a := R.LIN_RESP m (id % 64)
    let n := s.f a F.LIN_RESP_len
    let x := s.lin m
    if n = 0 ∨ 8 < n then s
    else if s.on a F.LIN_RESP_pub then
      match x.bufs.find? (fun b => b.1 = id % 64) with
      | none => s
      | some b =>
        let w := b.2 ++ [BitVec.ofNat 8 (linSum (id % 64) (s.on a F.LIN_RESP_enh) b.2)]
        (s.setLin m { x with wire := w }).linCount m 1
    else if s.on a F.LIN_RESP_sub then s.setLin m { x with await := some (id % 64) }
    else s

/-- LIN_HEADER (R424). -/
def execLinHeader (lin id : Nat) (good : Bool) (s : State) : Host.Outcome State Fault Refusal := atLin lin s (linHeader lin id good)

/-- LIN_RESPONSE_RECEIVED (R424): a subscribed response is presented to the gateway, or its checksum is an error. -/
def linReceived (m : Nat) (data : List Byte) (good : Bool) (s : State) : State :=
  let x := s.lin m
  match x.await with
  | none => s
  | some id =>
    if data.length ≠ s.f (R.LIN_RESP m id) F.LIN_RESP_len then s
    else
      let s1 := s.setLin m { x with await := none }
      let s2 := if good then
          (s1.linCount m 0).updGw (linHalf m) (fun g => { g with inq := g.inq ++ [(12 + m % 8, { fmt := 3, id, data }, gptpNs s (linHalf m))] })
        else (s1.linCount m 2).linIrq m 0
      s2.linSettle m

/-- LIN_RESPONSE_RECEIVED (R424). -/
def execLinResponseReceived (lin : Nat) (data : List Byte) (good : Bool) (s : State) : Host.Outcome State Fault Refusal :=
  atLin lin s (linReceived lin data good)

/-- LIN_NO_RESPONSE (R424). -/
def linNoResponse (m : Nat) (s : State) : State :=
  let x := s.lin m
  if x.await.isNone then s else (((s.setLin m { x with await := none }).linCount m 3).linIrq m 0).linSettle m

/-- LIN_NO_RESPONSE (R424). -/
def execLinNoResponse (lin : Nat) (s : State) : Host.Outcome State Fault Refusal := atLin lin s (linNoResponse lin)

/-- GO_TO_SLEEP (R425). -/
def goToSleep (m : Nat) (s : State) : State :=
  if linState s m ≠ 1 then s
  else ((s.updLin m (fun x => { x with halted := true, wakeEnd := none })).setF (R.LIN_STAT m) F.LIN_STAT_sleep 1).linIrq m 2

/-- GO_TO_SLEEP (R425). -/
def execGoToSleep (lin : Nat) (s : State) : Host.Outcome State Fault Refusal := atLin lin s (goToSleep lin)

/-- WAKE_UP_SIGNAL (R425): a detected signal ends. -/
def wakeUpSignal (m : Nat) (s : State) : State :=
  if linState s m ≠ 1 then s
  else ((s.updLin m (fun x => { x with wakeEnd := some s.ref })).setF (R.LIN_STAT m) F.LIN_STAT_sleep 0).linIrq m 1

/-- WAKE_UP_SIGNAL (R425). -/
def execWakeUpSignal (lin : Nat) (s : State) : Host.Outcome State Fault Refusal := atLin lin s (wakeUpSignal lin)

/-- LIN_CTL.wake (R425): the bus is driven dominant for 25,000 [ref]. -/
def linWake (m : Nat) (s : State) : State :=
  if linState s m ≠ 1 then s
  else (s.updLin m (fun x => { x with wakeEnd := some (s.ref + 25000) })).setF (R.LIN_STAT m) F.LIN_STAT_sleep 0

/-- LIN_WAKE (R425). -/
def execLinWake (ag : Agent) (lin : Nat) (s : State) : Host.Outcome State Fault Refusal :=
  atLin lin s (fun s => regCmd .lin (R.LIN_CTL lin) ag s (linWake lin))

/-- SCHEDULE_RESUME (R425): a commander resumes at entry 0, 2,500,000 [ref] after the end of the wake-up signal. -/
def scheduleResume (m : Nat) (s : State) : State :=
  let x := s.lin m
  match x.wakeEnd with
  | none => s
  | some e =>
    if linState s m = 1 ∧ s.on (R.LIN_CFG m) F.LIN_CFG_role ∧ x.halted ∧ e + 2500000 ≤ s.ref then
      s.setLin m { x with halted := false, wakeEnd := none, entry := 0, last := none }
    else s

/-- SCHEDULE_RESUME (R425). -/
def execScheduleResume (lin : Nat) (s : State) : Host.Outcome State Fault Refusal := atLin lin s (scheduleResume lin)

/-! ## Gateway rules (R427 to R429) -/

/-- A frame is enqueued on a CAN controller, or discarded into counter 7 or 5 (R421). -/
def State.toCan (s : State) (n : Nat) (f : CanFrame) : State :=
  if canState s n ≠ 1 ∨ canEst s n = 2 ∨ s.on (R.CAN_CFG n) F.CAN_CFG_lom ∨ !formatOn s n f.fmt ∨ !canLenOk f then (s.canCount n 7 1).canIrq n 3
  else if 32 ≤ (s.can n).queue.length then (s.canCount n 5 1).canIrq n 3
  else s.updCan n (fun x => { x with queue := x.queue ++ [⟨f, s.ref⟩] })

/-- The response buffer of an id is updated: the first LIN_RESP.len bytes, filled with zeros (R428). -/
def State.toLin (s : State) (m id : Nat) (data : List Byte) : State :=
  let n := s.f (R.LIN_RESP m id) F.LIN_RESP_len
  s.updLin m (fun x => { x with bufs := mset x.bufs id ((data ++ zeros n).take n) })

/-- Whether a rule matches a frame from a local source (R427). -/
def ruleMatches (s : State) (h r src : Nat) (f : CanFrame) : Bool :=
  let a := R.CAN_GW_RULE (12 * h) r
  let fmt := if f.fmt = 3 then 0 else f.fmt
  s.on a F.CAN_GW_RULE_v && (s.f a F.CAN_GW_RULE_srcmask).testBit src
    && decide ((f.id ^^^ s.f a F.CAN_GW_RULE_id) &&& s.f (a + 8) F.CAN_GW_RULE_idmask = 0)
    && (s.f a F.CAN_GW_RULE_fmts).testBit fmt && (!s.on a F.CAN_GW_RULE_ide_cmp || f.ide = s.on a F.CAN_GW_RULE_ide)

/-- The frame as a rule sends it to a CAN controller; none: a LIN frame without a new identifier (R428). -/
def sentFrame (nid : Option Nat) (f : CanFrame) : Option CanFrame :=
  match nid with
  | some i => some { fmt := 0, id := i, rtr := f.rtr, data := f.data }
  | none => if f.fmt = 3 then none else some f

/-- One destination of a rule (R428). -/
def State.toBus (s : State) (h lid : Nat) (nid : Option Nat) (f : CanFrame) (d : Nat) : State :=
  if d < 12 then
    match sentFrame nid f with
    | none => (s.canCount (12 * h + d) 7 1).canIrq (12 * h + d) 3
    | some g => s.toCan (12 * h + d) g
  else s.toLin (8 * h + (d - 12)) lid f.data

/-- The record of a delivered message (R429). -/
def gwRecord (src : Nat) (f : CanFrame) (ts : Nat) : List Byte :=
  let b (x : Bool) (i : Nat) : Nat := if x then 2 ^ i else 0
  let d0 := f.id % 2 ^ 29 + b f.ide 29 + b f.rtr 30 + f.fmt * 2 ^ 32 + src * 2 ^ 34 + b f.brs 39 + b f.esi 40 + f.data.length * 2 ^ 48
  let d2 := if f.fmt = 2 then f.sdt % 256 + f.vcid % 256 * 256 + b f.sec 16 + f.af % 2 ^ 32 * 2 ^ 32 else 0
  wordBytes 8 d0 ++ wordBytes 8 ts ++ wordBytes 8 d2 ++ f.data

/-- The queue action of a rule (R428). -/
def State.toQueue (s : State) (h t q src : Nat) (f : CanFrame) (ts : Nat) : State :=
  let rec' := gwRecord src f ts
  if pipeOf t ≠ h ∨ !isRx s t q ∨ isMsg s t q then s.gwCount h 1
  else if sramRoom s h rec'.length then s.updQp t q (fun x => { x with arr := x.arr ++ [{ bytes := rec', ts }] })
  else s.gwCount h 1

/-- An ACF CAN or LIN message of a frame (R430). -/
def acfMessage (src : Nat) (f : CanFrame) (ts : Nat) : List Byte :=
  let pad := (4 - f.data.length % 4) % 4
  let b (x : Bool) (v : Nat) : Nat := if x then v else 0
  if f.fmt = 3 then
    let n := (12 + f.data.length + pad) / 4
    beBytes 2 (3 * 512 + n) ++ beBytes 1 (pad * 64 + 32 + (src - 12)) ++ beBytes 1 f.id ++ beBytes 8 ts ++ f.data ++ zeros pad
  else
    let n := (16 + f.data.length + pad) / 4
    beBytes 2 (1 * 512 + n) ++ beBytes 1 (pad * 64 + 32 + b f.rtr 16 + b f.ide 8 + b f.brs 4 + b (f.fmt = 1) 2 + b f.esi 1)
      ++ beBytes 1 src ++ beBytes 8 ts ++ beBytes 4 f.id ++ f.data ++ zeros pad

/-- The stream action of a rule: the frame enters the bridge at step 4 as bridge port 21 (R428, R430). -/
def State.toStream (s : State) (h sl src : Nat) (f : CanFrame) (ts : Nat) : State :=
  let a := R.CAN_GW_STRM (12 * h) sl
  if f.fmt = 2 then s.gwCount h 2
  else if !s.on a F.CAN_GW_STRM_v then s
  else
    let q := mget 0 (s.gw h).seqs sl
    let acf := acfMessage src f ts
    let vid := s.f a F.CAN_GW_STRM_vid
    let pcp := s.f a F.CAN_GW_STRM_pcp
    let body := beBytes 2 0x22F0 ++ beBytes 1 0x82 ++ beBytes 2 (0x8000 + acf.length % 2048) ++ beBytes 1 q
      ++ beBytes 8 (s.f (a + 8) F.CAN_GW_STRM_stream_id) ++ acf
    let fr : EFrame := { dst := s.f a F.CAN_GW_STRM_dmac, src := s.f (R.CAN_GW_SMAC (12 * h)) F.CAN_GW_SMAC_smac, vid, pcp,
                         tagged := vid ≠ 0, tci := pcp * 8192 + vid, body, ts }
    ((s.updGw h (fun g => { g with seqs := mset g.seqs sl ((q + 1) % 256) })).gwCount h 5).ingress h 21 fr

/-- The actions of rule `r` (R428). -/
def State.ruleActions (s : State) (h r src : Nat) (f : CanFrame) (ts : Nat) : State :=
  let a := R.CAN_GW_RULE (12 * h) r + 8
  let c := R.CAN_GW_ACT (12 * h) r
  let nid := if s.on a F.CAN_GW_RULE_nid_en then some (s.f a F.CAN_GW_RULE_nid) else none
  let ds := (List.range 20).filter (fun d => (s.f a F.CAN_GW_RULE_dstmask).testBit d && d ≠ src)
  let s1 := ds.foldl (fun s d => s.toBus h (s.f c F.CAN_GW_ACT_lid) nid f d) s
  let s2 := if s.on c F.CAN_GW_ACT_q_en then s1.toQueue h (s.f c F.CAN_GW_ACT_tenant) (s.f c F.CAN_GW_ACT_qp) src f ts else s1
  if s.on c F.CAN_GW_ACT_acf_en then s2.toStream h (s.f c F.CAN_GW_ACT_stream) src f ts else s2

/-- GATEWAY_FRAME (R427): the next frame, the lowest source among those of one time, meets the rules. -/
def gatewayFrame (h : Nat) (s : State) : State :=
  let g := s.gw h
  match g.inq with
  | [] => s
  | e :: _ =>
    match argMin (fun x => x.1) (g.inq.filter (fun x => x.2.2 = e.2.2)) with
    | none => s
    | some (src, f, ts) =>
      let s1 := s.setGw h { g with inq := dropFirst (fun x => x = (src, f, ts)) g.inq }
      match (List.range 256).find? (fun r => ruleMatches s h r src f) with
      | none => s1.gwCount h 0
      | some r => s1.ruleActions h r src f ts

/-- GATEWAY_FRAME (R427). -/
def execGatewayFrame (half : Nat) (s : State) : Host.Outcome State Fault Refusal := atPipe half s (gatewayFrame half)

/-! ## Streams unpacked (R431) -/

/-- One ACF message that matches entry `u` goes to its controller, or is counted (R431). -/
def State.unpackOne (s : State) (h u : Nat) (m : List Byte) : State :=
  let a := R.CAN_GW_UNPK (12 * h) u + 8
  let ty := beAt m 0 1 / 2
  let b2 := beAt m 2 1
  let pad := b2 / 64
  if ty = 1 then
    let bus := beAt m 3 1 % 32
    if bus < 12 ∧ (s.f a F.CAN_GW_UNPK_canmask).testBit bus then
      let data := sub m 16 (m.length - 16 - pad)
      let f : CanFrame := { fmt := if b2.testBit 1 then 1 else 0, id := beAt m 12 4 % 2 ^ 29, ide := b2.testBit 3, rtr := b2.testBit 4,
                            brs := b2.testBit 2, esi := b2.testBit 0, data }
      (s.toCan (12 * h + bus) f).gwCount h 6
    else s.gwCount h 3
  else if ty = 3 then
    let bus := b2 % 32
    if bus < 8 ∧ (s.f a F.CAN_GW_UNPK_linmask).testBit bus then
      (s.toLin (8 * h + bus) (beAt m 3 1 % 64) (sub m 12 (m.length - 12 - pad))).gwCount h 6
    else s.gwCount h 3
  else s.gwCount h 3

/-- The ACF messages of a frame in turn. -/
def State.unpackAll (s : State) (h u : Nat) (bs : List Byte) : Nat → State
  | 0 => s
  | n + 1 =>
    let len := 4 * (beAt bs 0 2 % 512)
    if len = 0 ∨ bs.length < len then s else (s.unpackOne h u (bs.take len)).unpackAll h u (bs.drop len) n

/-- STREAM_FRAME_UNPACK (R431). -/
def streamUnpack (h : Nat) (s : State) : State :=
  let g := s.gw h
  match g.streams with
  | [] => s
  | b :: rest =>
    let s1 := s.setGw h { g with streams := rest }
    let id := beAt b 6 8
    let k := (List.range 32).find? (fun u =>
      s.on (R.CAN_GW_UNPK (12 * h) u + 8) F.CAN_GW_UNPK_v && s.f (R.CAN_GW_UNPK (12 * h) u) F.CAN_GW_UNPK_stream_id = id)
    match (if beAt b 0 2 = 0x22F0 && beAt b 2 1 = 0x82 then k else none) with
    | none => s1.gwCount h 3
    | some u => s1.unpackAll h u (sub b 14 (beAt b 3 2 % 2048)) 512

/-- STREAM_FRAME_UNPACK (R431). -/
def execStreamFrameUnpack (half : Nat) (s : State) : Host.Outcome State Fault Refusal := atPipe half s (streamUnpack half)

end Sys2Proof.Machine
end

