-- ==== Sys2Proof/Machine/Home.lean ====
section
/-! DEFINITION. The home slices: directory, system cache and the requests they serve (R245 to R250, R254 to R256, R264,
R267, R289, R587). -/

namespace Sys2Proof.Machine

/-! ## A slice's own parts -/

/-- The edge from which a transaction that a slice opens now is late (R291). -/
def sliceLateAt (s : State) (k : Nat) : Nat := rtoLate s (sliceUnit k / 4)

/-- The directory entry of a line; no holders where none is listed. -/
def dirOf (s : State) (k line : Nat) : DirLine := ((s.slice k).dir.find? (fun d => d.line = line)).getD { line := line, holders := [] }

/-- A directory entry is written and becomes its set's most recently used; one with nothing to say goes (R247). -/
def State.setDir (s : State) (k : Nat) (d : DirLine) : State :=
  s.updSlice k (fun q =>
    let rest := q.dir.filter (fun x => x.line ≠ d.line)
    { q with dir := if d.holders = [] ∧ !d.poison then rest else d :: rest })

/-- A line's transaction at a slice. -/
def txnOf (s : State) (k line : Nat) : Option SliceTxn := (s.slice k).txns.find? (fun t => t.line = line)

/-- A transaction is put in place of its line's. -/
def State.setTxn (s : State) (k : Nat) (t : SliceTxn) : State :=
  s.updSlice k (fun q => { q with txns := q.txns.filter (fun x => x.line ≠ t.line) ++ [t] })

def State.dropTxn (s : State) (k line : Nat) : State := s.updSlice k (fun q => { q with txns := q.txns.filter (fun x => x.line ≠ line) })

/-! ## Packets of a slice -/

/-- The DRAM channel of a line (R305). -/
def channelOf (m : DecodeMap) (line : Nat) : Nat :=
  let s := homeHash line
  let k := (s % 8) ^^^ (s / 8)
  match m.setOf (64 * line) with
  | 1 => k % 4
  | 2 => 4 + k % 4
  | _ => s % 8

/-- A request that a slice sends because of a request: it takes a tag of its own and the class of its cause (R282). -/
def State.dramRequest (s : State) (k : Nat) (q : Pkt) (typ line : Nat) (d : Line) (poison : Bool) : State :=
  let t := s.nextTag (sliceUnit k)
  (s.openTag (sliceUnit k)).inject
    { net := 0, typ := typ, src := sliceUnit k, dst := dramUnit (channelOf s.map line), clsA := q.clsA, closed := q.closed, tag := t, tenant := q.tenant, size := 6, pa := 64 * line,
      data := d, mask := if typ = 0xD then BitVec.allOnes 64 else 0, poison := poison }

/-- A snoop to a cluster; one to be forwarded names the requester (log 22). -/
def State.snoop (s : State) (k : Nat) (q : Pkt) (typ line c : Nat) : State :=
  s.reply q { net := 2, typ := typ, src := sliceUnit k, dst := clusterUnit c, pa := 64 * line, data := BitVec.ofNat 512 q.src }

def State.snoops (s : State) (k : Nat) (q : Pkt) (typ line : Nat) (cs : List Nat) : State :=
  cs.foldl (fun s c => s.snoop k q typ line c) s

/-- An answer with no data to the requester (R279). -/
def State.plain (s : State) (k : Nat) (q : Pkt) (typ : Nat) : State :=
  s.reply q { net := 1, typ := typ, src := sliceUnit k, dst := q.src, pa := q.pa }

/-- A line's data to the requester: a fill, modified data marked by its mask, or the bytes of a read of at most 8. -/
def State.fillTo (s : State) (k : Nat) (q : Pkt) (d : Line) (poison excl dirty : Bool) : State :=
  if (q.typ = 7 ∨ q.typ = 0xA) ∧ q.size ≤ 3 then
    (if poison then s.plain k q 0xA
     else s.reply q { net := 1, typ := 3, src := sliceUnit k, dst := q.src, pa := q.pa, size := q.size, more := q.size = 3,
                      data := BitVec.ofNat 512 (lineField d (q.pa % 64) (2 ^ q.size)) })
  else s.reply q { net := 3, typ := 0, src := sliceUnit k, dst := q.src, pa := q.pa, size := 6, data := d, poison := poison, excl := excl, fromDram := q.fromDram,
                    mask := if dirty then BitVec.allOnes 64 else 0 }

/-! ## The slice's data -/

/-- The slice writes a line to DRAM on its own account: a transaction of the line that awaits the acceptance, so that no
later request overtakes it (R254). -/
def State.writeBack (s : State) (k : Nat) (q : Pkt) (x : CLine) : State :=
  (s.setTxn k { line := x.line, req := { q with typ := 0xF }, wr := true, data := some x.data, dirty := true, poison := x.poison,
                replied := true, wlate := sliceLateAt s k, wtag := s.nextTag (sliceUnit k) }).dramRequest k q 0xD x.line x.data x.poison

/-- A dirty line that an allocation displaces is written to DRAM; under a transaction of its own, that one awaits the acceptance as well
and keeps the data (R249, R254). -/
def State.displace (s : State) (k : Nat) (q : Pkt) (x : CLine) : State :=
  match txnOf s k x.line with
  | none => s.writeBack k q x
  | some t =>
    (s.setTxn k { t with wr := true, data := some (t.data.getD x.data), poison := if t.data.isSome then t.poison else x.poison, wlate := sliceLateAt s k,
                         wtag := s.nextTag (sliceUnit k) }).dramRequest k q 0xD x.line x.data x.poison

/-- The way that an allocation takes in a set of a cache: a free allowed way, or that of the least recently used line of
the allowed ways (R256). -/
def wayFor (l : List CLine) (sets line : Nat) (ways reserved : List Nat) : Option Nat :=
  let same := l.filter (fun x => x.line % sets = line % sets)
  let free := ways.filter (fun w => !reserved.contains w)
  match free.find? (fun w => !same.any (fun x => x.way = w)) with
  | some w => some w
  | none => ((same.reverse).find? (fun x => free.contains x.way)).map (fun x => x.way)

/-- The line of a set that stands in a way. -/
def lineInWay (l : List CLine) (sets line way : Nat) : Option CLine := l.find? (fun x => x.line % sets = line % sets && x.way = way)

/-- The way that an allocation of a request's class takes in a slice; none: the slice is disabled, or the class has no way. -/
def sliceWay (s : State) (k : Nat) (q : Pkt) (line : Nat) : Option Nat :=
  if sliceOn s k then wayFor (s.slice k).lines 4096 line (waysFor s (16 + k) q.tenant q.closed) [] else none

/-- A line is allocated in a slice by a class that has a way there; a dirty line it displaces is written to DRAM. -/
def State.sliceAlloc (s : State) (k : Nat) (q : Pkt) (line : Nat) (d : Line) (dirty poison : Bool) : State :=
  match sliceWay s k q line with
  | none => s
  | some w =>
    let old := lineInWay (s.slice k).lines 4096 line w
    let new : CLine := { line := line, st := .s, dirty := dirty, data := d, poison := poison, tenant := q.tenant, way := w }
    let stays := fun (y : CLine) => !(y.line % 4096 = line % 4096 && y.way = w) && y.line ≠ line
    let s1 := s.updSlice k (fun x => { x with lines := new :: x.lines.filter stays })
    match old with
    | some v => if v.dirty && v.line ≠ line then s1.displace k q v else s1
    | none => s1

/-- Dirty data of a line under a transaction reaches the slice: its copy is updated, or the line is allocated where that
is allowed, or it is passed to DRAM and the transaction awaits the acceptance (R254, R264). -/
def State.absorb (s : State) (k : Nat) (t : SliceTxn) (alloc : Bool) (d : Line) (poison : Bool) : State × SliceTxn :=
  match sliceLine s k t.line with
  | some x => (s.updSlice k (fun q => { q with lines := putCLine q.lines { x with data := d, dirty := true, poison := poison } }), t)
  | none =>
    if alloc && (sliceWay s k t.req t.line).isSome then (s.sliceAlloc k t.req t.line d true poison, t)
    else (s.dramRequest k t.req 0xD t.line d poison, { t with wr := true, data := some d, dirty := true, poison := poison, wtag := s.nextTag (sliceUnit k), wlate := sliceLateAt s k })

/-! ## Serving a request -/

/-- The cluster that a packet comes from. -/
def fromCluster (p : Pkt) : Option Nat := unitCluster p.src

/-- Whether a request of a transaction needs the line's data. -/
def needsData (t : SliceTxn) (holder : Bool) : Bool :=
  match t.req.typ with
  | 0 => true
  | 1 => true
  | 2 => !holder
  | 7 => true
  | 0xA => true
  | 8 => t.req.mask ≠ BitVec.allOnes 64
  | 0xB => t.req.mask ≠ BitVec.allOnes 64
  | _ => false

/-- Reservations on the granule of a line go, but for some cores': an ownership request or a write from another core or an agent
(R105, R245). -/
def State.clearResvOut (s : State) (line : Nat) (keep : Nat → Bool) : State :=
  { s with cores := s.cores.map (fun p => (p.1, if keep p.1 then p.2 else
      { p.2 with banks := p.2.banks.map (fun q => (q.1, if q.2.resv = some (line / 2) then { q.2 with resv := none } else q.2)) })) }

/-- Whether a core sent a write from its write buffer (R105). -/
def wrote (s : State) (p : Pkt) (c : Nat) : Bool :=
  p.src = clusterUnit (clusterOf c) && (s.core c).wb.any (fun e => e.sent && e.tag = p.tag && e.pa / 64 = p.pa / 64 && (e.kind = .nc || e.kind = .dev))

/-- The answered request of a transaction ends it; while a DRAM write is unaccepted the transaction stays. -/
def State.endTxn (s : State) (k : Nat) (t : SliceTxn) : State :=
  if t.wr then s.setTxn k { t with replied := true } else s.dropTxn k t.line

/-- A read of DRAM space gives the line to a cluster: alone in E, else shared (R248). -/
def State.grantShared (s : State) (k c : Nat) (t : SliceTxn) (d : Line) : State :=
  let e := dirOf s k t.line
  let hs := e.holders.filter (· ≠ c)
  let s1 := s.setDir k { e with holders := hs ++ [c], owner := if hs = [] then some c else none }
  (s1.fillTo k t.req d t.poison (hs = []) false).endTxn k t

/-- Ownership goes to a cluster (R248, R250): a cluster that still holds the line gets a grant, any other the data. -/
def State.grantUnique (s : State) (k c : Nat) (t : SliceTxn) (holder : Bool) : State :=
  let s1 := ((s.setDir k { line := t.line, holders := [c], owner := some c }).clearResvOut t.line (fun i => clusterOf i = c))
  ((if t.req.typ = 2 ∧ holder then s1.plain k t.req 1 else s1.fillTo k t.req (t.data.getD 0) t.poison true t.dirty)).endTxn k t

/-- A write of bytes at the home slice: merged with the line's latest data, kept in the slice's copy or written to DRAM; only a normal
write-back store that passed its disabled caches allocates (R202, R245, R267, R587). -/
def State.mergeAt (s : State) (k : Nat) (t : SliceTxn) : State :=
  let d := mergeLine (t.data.getD 0) t.req.data t.req.mask
  let whole := t.req.typ = 9 || t.req.mask = BitVec.allOnes 64
  let s1 := ((s.setDir k { line := t.line, holders := [] }).clearResvOut t.line (wrote s t.req)).plain k t.req 0
  let r := s1.absorb k t (t.req.typ = 8 && t.req.mt = MType.wb.code) (if whole then t.req.data else d) (if whole then t.req.poison else t.poison || t.req.poison)
  r.1.endTxn k r.2

/-- A directory entry is evicted; the poison of a marked one stays with the line (R247, R289, R291). -/
def State.dropEntry (s : State) (k line : Nat) : State :=
  let mark := (dirOf s k line).poison
  let s1 := s.updSlice k (fun q => { q with dir := q.dir.filter (fun x => x.line ≠ line),
                                            lines := q.lines.map (fun x => if mark && x.line = line then { x with poison := true } else x) })
  if mark then { s1 with poison := line :: s1.poison.filter (· ≠ line) } else s1

/-- The last part of a transaction whose answers are all in and whose data, where it needs any, is known. -/
def State.conclude (s : State) (k : Nat) (t : SliceTxn) (fromDram : Bool) : State :=
  let t : SliceTxn := { t with req := { t.req with fromDram := fromDram } }
  let d := t.data.getD 0
  let c := fromCluster t.req
  let holder := match c with
    | some c => (dirOf s k t.line).holders.contains c
    | none => false
  let s0 := if fromDram && t.req.typ ≠ 7 && t.req.typ ≠ 0xA && decide (t.req.typ < 3) then s.sliceAlloc k t.req t.line d false t.poison else s
  match t.req.typ, c with
  | 0, some c => s0.grantShared k c t d
  | 1, some c => s0.grantUnique k c t holder
  | 2, some c => s0.grantUnique k c t holder
  | 3, _ => (s.plain k t.req 0).endTxn k t
  | 4, _ =>
    let s1 := (s.setDir k { line := t.line, holders := [] }).updSlice k (fun q => { q with lines := dropLine q.lines t.line })
    ({ s1 with poison := s1.poison.filter (· ≠ t.line) }.plain k t.req 0).endTxn k t
  | 8, _ => s.mergeAt k t
  | 9, _ => s.mergeAt k t
  | 0xB, _ => s.mergeAt k t
  | 0xE, _ => (s.dropEntry k t.line).endTxn k t
  | _, _ => (s.fillTo k t.req d t.poison false false).endTxn k t

/-- A transaction goes on: it waits while an answer is out; it takes its data from what came, from the slice or from a
DRAM read; then it concludes. -/
def State.advance (s : State) (k : Nat) (t : SliceTxn) : State :=
  if t.await ≠ [] ∨ t.rd then s.setTxn k t
  else if t.replied then s.endTxn k t
  else if t.wr && (t.req.typ = 3 || t.req.typ = 5 || t.req.typ = 6) then s.setTxn k t
  else
    let holder := match fromCluster t.req with
      | some c => (dirOf s k t.line).holders.contains c
      | none => false
    if needsData t holder && t.data.isNone then
      match sliceLine s k t.line with
      | some x => (s.updSlice k (fun q => { q with lines := touchLine q.lines t.line })).conclude k { t with data := some x.data, poison := x.poison } false
      | none => (s.setTxn k { t with rd := true, tag := s.nextTag (sliceUnit k), late := sliceLateAt s k }).dramRequest k t.req 0xC t.line 0 false
    else s.conclude k t false

/-- Whether a request makes its requester a holder, and so needs a directory entry. -/
def wantsEntry (p : Pkt) : Bool := decide (p.typ < 3)

/-- The least recently used directory entry of a full set, where a line needs a new one (R247). -/
def dirVictim (s : State) (k line : Nat) : Option DirLine :=
  let same := (s.slice k).dir.filter (fun d => d.line % 8192 = line % 8192)
  if same.length < 16 ∨ same.any (fun d => d.line = line) then none else same.getLast?

/-- The eviction of a directory entry for a request begins, once the entry's line has no transaction (R247, R249). -/
def State.dirEvict (s : State) (k : Nat) (p : Pkt) (v : DirLine) : State :=
  if (txnOf s k v.line).isSome then s
  else
    let q := { p with typ := 0xE, pa := 64 * v.line }
    (s.snoops k q 0 v.line v.holders).advance k { line := v.line, req := q, await := v.holders, late := sliceLateAt s k }

/-- A line's directory entry becomes its set's most recently used (R247). -/
def State.touchDir (s : State) (k line : Nat) : State :=
  s.updSlice k (fun q => { q with dir := q.dir.filter (fun d => d.line = line) ++ q.dir.filter (fun d => d.line ≠ line) })

/-- A request waits in the slice. -/
def State.enqueue (s : State) (k : Nat) (p : Pkt) : State := s.updSlice k (fun q => { q with queue := q.queue ++ [p] })

/-- An Evict or victim offer (R250, R254, R255): superseded when the sender no longer stands in the directory as the
data's owner; else dirty data updates the slice's copy, is accepted, or is passed to DRAM. -/
def State.serveEvict (s : State) (k c : Nat) (p : Pkt) : State :=
  let line := p.pa / 64
  let e := dirOf s k line
  let dirty := decide (p.mask ≠ 0)
  let gone := s.setDir k { e with holders := e.holders.filter (· ≠ c), owner := if e.owner = some c then none else e.owner }
  let t : SliceTxn := { line := line, req := p }
  let accept := p.typ = 6 &&
    (match sliceWay s k p line with
      | some w => dirty || (match lineInWay (s.slice k).lines 4096 line w with
        | some x => !x.dirty
        | none => true)
      | none => false)
  if !e.holders.contains c ∨ (dirty ∧ e.owner ≠ some c) then (gone.plain k p 5)
  else
    match sliceLine s k line with
    | some x =>
      (if dirty then gone.updSlice k (fun q => { q with lines := putCLine q.lines { x with data := p.data, dirty := true, poison := p.poison } }) else gone).plain k p 0
    | none =>
      if accept then (gone.sliceAlloc k p line p.data dirty p.poison).plain k p 0
      else if dirty then
        let r := gone.absorb k t false p.data p.poison
        r.1.setTxn k r.2
      else gone.plain k p (if p.typ = 6 then 6 else 0)

/-- The home has taken the data that a cluster's Clean request carried: while the cluster still holds just that data, its copies
count as clean (R248, R264, R269; log 24). -/
def State.homeTook (s : State) (c line : Nat) (d : Line) : State :=
  match clusterCopy s c line with
  | some x =>
    if x.dirty && x.data = d then
      let clean := fun (y : CLine) => if y.line = line then { y with data := d, dirty := false, st := if y.st = .m then .e else y.st } else y
      (((clusterCores c).filter (l1dOn s)).foldl (fun s i => s.updCore i (fun q => { q with l1d := q.l1d.map clean })) s).updCluster c
        (fun q => { q with l2 := q.l2.map clean })
    else s
  | none => s

/-- Whether a cluster still answers for modified data of a line, in its copy or in an eviction under way: then the data of its
Clean request is of use to the home; else the home has had the line's data since, or newer (log 24). -/
def owesData (s : State) (c line : Nat) : Bool :=
  (match clusterCopy s c line with
    | some x => x.dirty
    | none => false) || (s.cluster c).evq.any (fun e => e.line = line && e.dirty && !e.superseded)

/-- A request whose line has no transaction is looked up (R248 to R250). -/
def State.serve (s : State) (k : Nat) (p : Pkt) : State :=
  let line := p.pa / 64
  let e := dirOf s k line
  let c := fromCluster p
  let others := e.holders.filter (fun h => some h ≠ c)
  let own := match e.owner with
    | some o => if some o = c then none else some o
    | none => none
  let t : SliceTxn := { line := line, req := p, late := sliceLateAt s k }
  let s := s.touchDir k line
  if e.poison && p.typ ≠ 4 && p.typ ≠ 9 && p.typ ≠ 5 && p.typ ≠ 6 && !((p.typ = 8 || p.typ = 0xB) && p.mask = BitVec.allOnes 64) then s.plain k p 0xA
  else
    match (if wantsEntry p then dirVictim s k line else none) with
    | some v => (s.setTxn k { t with evict := true }).dirEvict k p v
    | none =>
      match p.typ with
      | 5 => (match c with
        | some c => s.serveEvict k c p
        | none => s)
      | 6 => (match c with
        | some c => s.serveEvict k c p
        | none => s)
      | 0 => (match own with
        | some o => (s.setTxn k { t with await := [o] }).snoop k p 1 line o
        | none => s.advance k t)
      | 1 => ((s.snoops k p 0 line (others.filter (fun h => some h ≠ own))).snoops k p 2 line own.toList).advance k { t with await := others }
      | 2 => ((s.snoops k p 0 line (others.filter (fun h => some h ≠ own))).snoops k p 2 line own.toList).advance k { t with await := others }
      | 3 =>
        let r := match c with
          | some q => if p.mask ≠ 0 ∧ e.owner = c ∧ owesData s q line then (s.homeTook q line p.data).absorb k t true p.data p.poison else (s, t)
          | none => (s, t)
        (r.1.snoops k p 3 line own.toList).advance k { r.2 with await := own.toList }
      | 7 => (s.snoops k p 3 line e.owner.toList).advance k { t with await := e.owner.toList }
      | 0xA => (s.snoops k p 3 line e.owner.toList).advance k { t with await := e.owner.toList }
      | _ => (s.snoops k p 0 line e.holders).advance k { t with await := e.holders }

/-- A request reaches its home slice: it waits while the line has a transaction (R249). -/
def State.arrive (s : State) (k : Nat) (p : Pkt) : State :=
  if (txnOf s k (p.pa / 64)).isSome then s.enqueue k p else s.serve k p

/-- The requests that wait for a directory entry go on, where there is one now, or the eviction that makes one begins (R247). -/
def State.wakeDir (s : State) (k : Nat) : State :=
  ((s.slice k).txns.filter (fun t => t.evict)).foldl (fun s t =>
    match dirVictim s k t.line with
    | some v => s.dirEvict k t.req v
    | none => (s.dropTxn k t.line).serve k t.req) s

/-- The waiting requests are looked up again, in order, until none can go on (R249). -/
def State.drainQueue (s : State) (k : Nat) : State :=
  (List.range (1 + (s.slice k).queue.length + ((s.slice k).txns.filter (fun t => t.evict)).length)).foldl (fun s _ =>
    let q := (s.slice k).queue
    (q.foldl (fun s p => s.arrive k p) (s.updSlice k (fun x => { x with queue := [] }))).wakeDir k) s

/-- Whether an earlier request of the same source still waits at the slice: those of one source are looked up in arrival order (R249). -/
def earlierWaits (s : State) (p : Pkt) : Bool :=
  (s.inbox.takeWhile (fun q => q ≠ p)).any (fun q => q.net = 0 && q.src = p.src && q.dst = p.dst)

/-! ## Commands of a slice -/

/-- A slice takes a request of the given types, in the line's order. -/
def sliceRequest (k : Nat) (typs : List Nat) (p : Pkt) (s : State) : State :=
  if p.net = 0 && typs.contains p.typ && !earlierWaits s p then ((s.take p).arrive k p).drainQueue k else s

/-- READ_SHARED (R248). -/
def execReadShared (slice : Nat) (p : Pkt) (s : State) : Host.Outcome State Fault Refusal := atSlice slice s (sliceRequest slice [0] p)
/-- READ_UNIQUE (R248). -/
def execReadUnique (slice : Nat) (p : Pkt) (s : State) : Host.Outcome State Fault Refusal := atSlice slice s (sliceRequest slice [1] p)
/-- UPGRADE (R248). -/
def execUpgrade (slice : Nat) (p : Pkt) (s : State) : Host.Outcome State Fault Refusal := atSlice slice s (sliceRequest slice [2] p)
/-- CLEAN_REQUEST (R248). -/
def execCleanRequest (slice : Nat) (p : Pkt) (s : State) : Host.Outcome State Fault Refusal := atSlice slice s (sliceRequest slice [3] p)
/-- INVALIDATE_REQUEST (R248). -/
def execInvalidateRequest (slice : Nat) (p : Pkt) (s : State) : Host.Outcome State Fault Refusal := atSlice slice s (sliceRequest slice [4] p)
/-- EVICT (R254). -/
def execEvict (slice : Nat) (p : Pkt) (s : State) : Host.Outcome State Fault Refusal := atSlice slice s (sliceRequest slice [5] p)
/-- VICTIM_OFFER (R255). -/
def execVictimOffer (slice : Nat) (p : Pkt) (s : State) : Host.Outcome State Fault Refusal := atSlice slice s (sliceRequest slice [6] p)
/-- NON_CACHEABLE_READ (R245). -/
def execNonCacheableRead (slice : Nat) (p : Pkt) (s : State) : Host.Outcome State Fault Refusal := atSlice slice s (sliceRequest slice [7] p)
/-- NON_CACHEABLE_WRITE (R245). -/
def execNonCacheableWrite (slice : Nat) (p : Pkt) (s : State) : Host.Outcome State Fault Refusal := atSlice slice s (sliceRequest slice [8] p)
/-- FULL_LINE_WRITE (R245). -/
def execFullLineWrite (slice : Nat) (p : Pkt) (s : State) : Host.Outcome State Fault Refusal := atSlice slice s (sliceRequest slice [9] p)
/-- DEVICE_READ (R587). -/
def execDeviceRead (slice : Nat) (p : Pkt) (s : State) : Host.Outcome State Fault Refusal := atSlice slice s (sliceRequest slice [0xA] p)
/-- DEVICE_WRITE (R587). -/
def execDeviceWrite (slice : Nat) (p : Pkt) (s : State) : Host.Outcome State Fault Refusal := atSlice slice s (sliceRequest slice [0xB] p)

/-- What a cluster's snoop answer does to a transaction (R248 to R250): a read that the owner forwarded is over; an
answer without data clears the holder, and so does one from an eviction entry (`victim`; log 22). -/
def State.snoopAnswered (s : State) (k c : Nat) (t : SliceTxn) (p : Pkt) : State :=
  let e := dirOf s k t.line
  let has := p.net = 3
  let dirty := has && p.mask ≠ 0
  let t1 := { t with await := t.await.filter (· ≠ c) }
  let out := s.setDir k { e with holders := e.holders.filter (· ≠ c), owner := if e.owner = some c then none else e.owner }
  let left := if has && !p.victim then s else out
  let read := fun (_ : Unit) =>
    if !has then out.advance k t1
    else
      let r := if dirty then left.absorb k t1 false p.data p.poison else (left, t1)
      r.1.advance k { r.2 with data := some p.data, poison := p.poison }
  match t.req.typ with
  | 0 =>
    if has then
      let hs := if p.victim then e.holders.filter (· ≠ c) else e.holders
      let s1 := s.setDir k { e with holders := hs ++ (fromCluster t.req).toList.filter (fun r => !hs.contains r), owner := none }
      let r := if dirty then s1.absorb k t1 true p.data p.poison else (s1, t1)
      r.1.endTxn k r.2
    else out.advance k t1
  | 3 => (if dirty then (let r := left.absorb k t1 true p.data p.poison; r.1.advance k r.2) else left.advance k t1)
  | 4 => out.advance k t1
  | 7 => read ()
  | 0xA => read ()
  | 0xE => (if dirty then (let r := out.absorb k t1 false p.data p.poison; r.1.advance k r.2) else out.advance k t1)
  | _ =>
    if has then
      let s1 := match sliceLine out k t.line with
        | some x => if dirty then out.updSlice k (fun q => { q with lines := putCLine q.lines { x with data := p.data, dirty := true, poison := p.poison } }) else out
        | none => out
      s1.advance k { t1 with data := some p.data, dirty := dirty, poison := p.poison }
    else out.advance k t1

/-- Whether a packet is a snoop answer that came too late (R291). -/
def isStale (s : State) (k : Nat) (p : Pkt) : Bool := (fromCluster p).any (fun c => (s.slice k).stale.contains (p.pa / 64, c))

/-- SNOOP_ANSWER (R249): an answer that the line's transaction awaits is usable in the slice: a cluster's, or the DRAM
controller's data or acceptance; one that came too late is discarded (R291). -/
def snoopAnswer (k : Nat) (p : Pkt) (s : State) : State :=
  if isStale s k p then (s.take p).updSlice k (fun q => { q with stale := dropFirst (fun x => some x.2 = fromCluster p && x.1 = p.pa / 64) q.stale })
  else match txnOf s k (p.pa / 64) with
  | none => s.take p
  | some t =>
    let s := s.take p
    let r :=
      match fromCluster p with
      | some c => if t.await.contains c then s.snoopAnswered k c t p else s
      | none =>
        if p.net = 3 && t.rd then s.conclude k { t with rd := false, data := some p.data, poison := p.poison } true
        else if p.net = 1 && p.typ = 0xA && t.rd then (s.plain k t.req 0xA).dropTxn k t.line
        else if p.net = 1 && t.wr then
          let t1 := { t with wr := false }
          if t.replied then s.endTxn k t1
          else if t.req.typ = 5 ∨ t.req.typ = 6 then (s.plain k t.req (if t.req.typ = 6 then 6 else 0)).endTxn k t1
          else s.advance k t1
        else s
    r.drainQueue k

/-- SNOOP_ANSWER (R249). -/
def execSnoopAnswer (slice : Nat) (p : Pkt) (s : State) : Host.Outcome State Fault Refusal := atSlice slice s (snoopAnswer slice p)

end Sys2Proof.Machine
end

