-- ==== Sys2Proof/Machine/L2.lean ====
section
/-! DEFINITION. The L2 of a cluster: lookups, fills, ownership, evictions, snoops, and whole-cache maintenance (R243,
R244, R247, R250 to R259, R261 to R269, R291). -/

namespace Sys2Proof.Machine

/-! ## The L1s under an L2 (R244, R247) -/

/-- The modified L1D copy of a line becomes shared and clean, its data the L2's; a disabled L1D keeps its contents (R267). -/
def State.gatherClean (s : State) (q line : Nat) : State :=
  let share := fun (x : CLine) => if x.line = line then { x with st := .s, dirty := false } else x
  ((clusterCores q).filter (l1dOn s)).foldl (fun s c => s.updCore c (fun k => { k with l1d := k.l1d.map share })) (s.gather q line)

/-- Every L1 copy of a line in the cluster goes, modified data into the L2; a disabled L1 keeps its contents (R267). -/
def State.gatherRemove (s : State) (q line : Nat) : State :=
  (clusterCores q).foldl (fun s1 c => s1.updCore c (fun k => { k with
    l1d := if l1dOn s c then dropLine k.l1d line else k.l1d, l1i := if l1iOn s c then dropLine k.l1i line else k.l1i })) (s.gather q line)

/-! ## Evictions (R254) -/

/-- A packet of a cluster's request for a line. -/
def clusterPkt (s : State) (q typ line tenant : Nat) (closed : Bool) : Pkt :=
  { net := 0, typ := typ, src := clusterUnit q, dst := sliceUnit (homeSlice (s.router (tileRouter q)).map line), closed := closed,
    tenant := tenant, size := 6, mt := MType.wb.code, victim := s.on (R.CACHE_TMAP q tenant) F.CACHE_TMAP_victim, pa := 64 * line }

/-- A line leaves a cluster for its home slice, by Evict or victim offer, and stands in the eviction queue until the answer (R254). -/
def State.sendOut (s : State) (q : Nat) (x : CLine) (closed : Bool) (miss : Nat) : State :=
  let p := clusterPkt s q 5 x.line x.tenant closed
  (s.updCluster q (fun y => { y with
    evq := y.evq ++ [{ line := x.line, dirty := x.dirty, data := x.data, poison := x.poison, offer := p.victim, tenant := x.tenant,
                       miss := miss, late := rtoLate s (tileRouter q), tag := s.nextTag (clusterUnit q) }] })).request
    { p with typ := if p.victim then 6 else 5, data := x.data, mask := if x.dirty then BitVec.allOnes 64 else 0, poison := x.poison }

/-- A line leaves an L2 for a miss: it goes from the L1s first, and is evicted, or offered where its tenant has victim
privilege (R244, R254). -/
def State.l2Evict (s : State) (q line miss : Nat) : State :=
  let s1 := s.gatherRemove q line
  match findLine (s1.cluster q).l2 line with
  | none => s1
  | some x => (s1.updCluster q (fun y => { y with l2 := dropLine y.l2 line })).sendOut q x (decide (14 ≤ x.way)) miss

/-! ## Lookups (R252, R253) -/

/-- The port of a core in its L2 (R253). -/
def portOf (c : Nat) (instr : Bool) : Nat := 2 * (c % 8) + (if instr then 0 else 1)

/-- The unfilled miss register of a line in an L2. -/
def l2Mshr (s : State) (q line : Nat) : Option Mshr := (s.cluster q).mshr.find? (fun m => m.line = line && !m.waitWb)

/-- A miss register of a core's port is marked as looked up, or taken away. -/
def State.markAsked (s : State) (c : Nat) (instr : Bool) (line : Nat) (v : Bool) : State :=
  let f := fun (m : Mshr) => if m.line = line && m.asked ≠ v then { m with asked := v } else m
  s.updCore c (fun k => if instr then { k with imshr := k.imshr.map f } else { k with mshr := k.mshr.map f })

/-- A prefetch that reaches only the L2 or the system cache is done with its core. -/
def State.dropPref (s : State) (c line : Nat) : State :=
  s.updCore c (fun k => { k with mshr := dropFirst (fun m => m.line = line && m.lvl ≠ 1) k.mshr })

/-- The ways of a line's set that a miss may not take: those that other misses have chosen, whose victims are read out (R252, R254). -/
def takenWays (cl : Cluster) (line : Nat) : List Nat :=
  (cl.mshr.filter (fun x => x.line % 4096 = line % 4096 && x.line ≠ line && !x.waitWb)).filterMap (·.way)

/-- A request leaves an L2 on a free miss register; the line's way is chosen now and its victim read out (R252, R254,
R256). -/
def State.l2Request (s : State) (q typ : Nat) (m : Mshr) : State :=
  let cl := s.cluster q
  let taken := takenWays cl m.line
  let way := if typ = 2 || !l2On s q || m.lvl = 3 then none else wayFor cl.l2 4096 m.line (waysFor s q m.tenant m.closed) taken
  let s1 := match way with
    | some w => (match lineInWay cl.l2 4096 m.line w with
      | some v => s.l2Evict q v.line m.line
      | none => s)
    | none => s
  let t := s1.nextTag (clusterUnit q)
  (s1.request (clusterPkt s1 q typ m.line m.tenant m.closed)).updCluster q (fun y => { y with mshr := y.mshr ++
    [{ m with secs := 0, asked := true, way := way, tag := t, late := rtoLate s1 (tileRouter q) }] })

/-- The bank whose access waits for a line of a core. -/
def missBank (s : State) (c line : Nat) (fetch : Bool) : Nat :=
  match (List.range 8).find? (fun bi => if fetch then (s.bank c bi).fwait.any (fun a => a / 64 = line)
      else (s.bank c bi).loads.any (fun l => !l.complete && (l.pa / 64 = line || l.hi.any (fun h => h / 64 = line)))) with
  | some bi => bi
  | none => (((s.core c).wb.find? (fun e => e.pa / 64 = line)).map (fun e => e.bank)).getD 0

/-- The lines that a stream asks for on a miss, and the stream after it (R259). `run`: 2 a stream of one miss, 3 trained, 0
restarted, 1 restarted with one adjacent miss since. -/
def streamStep (x : L2Stream) (line : Nat) : L2Stream × List Nat :=
  let up := decide (line = x.last + 1)
  let adj := up || decide (line + 1 = x.last)
  let y := { x with last := line, up := up }
  if x.run = 3 then
    (if adj && x.up = up then (y, if up then [line + 1, line + 2] else if 2 ≤ line then [line - 1, line - 2] else [])
     else ({ y with run := 0 }, []))
  else if !adj then ({ y with run := if x.run = 2 then 2 else 0 }, [])
  else if x.run = 2 ∨ (x.run = 1 ∧ x.up = up) then ({ y with run := 3 }, [])
  else ({ y with run := 1 }, [])

/-- A demand miss of a bank trains the L2's streams; a trained one requests the next two lines of its page while at least 8 miss
registers are free (R259). -/
def State.l2Train (s : State) (q c b line : Nat) (m : Mshr) : State :=
  if m.pref || !l2On s q || !s.on (R.CACHE_PCLASS q (cacheClass s q m.tenant)) F.CACHE_PCLASS_l2_pf then s
  else
    let cl := s.cluster q
    let key := fun (x : L2Stream) => x.core = c && x.bank = b && x.page = line / 64
    match cl.streams.find? key with
    | none => s.setCluster q { cl with streams := ({ core := c, bank := b, page := line / 64, last := line, up := true, run := 2 } :: cl.streams).take 64 }
    | some x =>
      let r := streamStep x line
      let s1 := s.setCluster q { cl with streams := r.1 :: cl.streams.filter (fun y => !key y) }
      (r.2.filter (fun l => l / 64 = line / 64)).foldl (fun s l =>
        if decide ((s.cluster q).mshr.length ≤ 40) && (findLine (s.cluster q).l2 l).isNone && (l2Mshr s q l).isNone && !(s.cluster q).evq.any (fun e => e.line = l) then
          s.l2Request q 0 { line := l, write := false, pref := true, tenant := m.tenant, closed := m.closed }
        else s) s1

/-- A port joins a miss register. -/
def Mshr.join (x m : Mshr) : Mshr :=
  let add := fun (l r : List Nat) => l ++ r.filter (fun p => !l.contains p)
  { x with secs := x.secs + 1, full := x.full && m.full, ports := add x.ports m.ports, wports := add x.wports m.wports, walks := add x.walks m.walks }

/-- A miss in an L2, of the ports and walks that `m` names: it merges with the line's register, up to 8 secondaries, or takes one of 48 and
trains (R252, R259); a line on its way out is waited for. Whether it could. -/
def State.l2Take (s : State) (q c b typ : Nat) (m : Mshr) : State × Bool :=
  let cl := s.cluster q
  if cl.evq.any (fun e => e.line = m.line) then (s, false)
  else
    match l2Mshr s q m.line with
    | some x =>
      if 8 ≤ x.secs then (s, false) else (s.setCluster q { cl with mshr := cl.mshr.map (fun z => if z = x then x.join m else z) }, true)
    | none => if 48 ≤ cl.mshr.length then (s, false) else ((s.l2Request q typ m).l2Train q c b m.line m, true)

/-- A miss of a port in the L2. -/
def State.l2Miss (s : State) (c : Nat) (instr : Bool) (typ : Nat) (m : Mshr) : State :=
  let p := if m.lvl = 1 then [portOf c instr] else []
  let r := s.l2Take (clusterOf c) c (missBank s c m.line m.fetch) typ { m with ports := if m.write then [] else p, wports := if m.write then p else [], walks := [] }
  if !r.2 then s else if m.lvl = 1 then r.1.markAsked c instr m.line true else r.1.dropPref c m.line

/-- Whether a packet is the answer to a line's request of a unit. -/
def answersLine (u line : Nat) (p : Pkt) : Bool :=
  p.dst = u && p.pa / 64 = line && ((p.net = 3 && (p.typ = 0 || p.typ = 2)) || (p.net = 1 && p.typ = 1))

/-- Whether a snoop or a fill that has reached the cluster takes the L2 bank of a line before any request of a core (R253). -/
def bankTaken (s : State) (q line : Nat) : Bool :=
  s.inbox.any (fun p => p.dst = clusterUnit q && p.pa / 64 % 4 = line % 4 &&
    ((p.net = 2 && decide (p.typ < 4)) || ((l2Mshr s q (p.pa / 64)).isSome && answersLine (clusterUnit q) (p.pa / 64) p)))

/-- The place of a port among those served on an edge: port e mod 16 first, the others in ascending order (R253). -/
def portTurn (s : State) (q port : Nat) : Nat := (port + 16 - (s.cluster q).edges % 16) % 16

/-- The requests that wait for their lookup in an L2: their ports, their lines, and whether they are prefetches (R253). -/
def lookupsDue (s : State) (q : Nat) : List (Nat × Nat × Bool) :=
  (clusterCores q).flatMap (fun c =>
    ((s.core c).imshr.filter (fun m => !m.asked)).map (fun m => (portOf c true, m.line, false)) ++
    ((s.core c).mshr.filter (fun m => !m.asked)).map (fun m => (portOf c false, m.line, m.pref)))

/-- Whether a port's request is the next that the L2 bank of its line looks up: snoops and fills go first, demand before prefetch, and the
ports in their turn (R253; log 86). -/
def lookupTurn (s : State) (q port line : Nat) (pref : Bool) : Bool :=
  !bankTaken s q line && !(lookupsDue s q).any (fun x => x.2.1 % 4 = line % 4 && x.1 ≠ port &&
    ((pref && !x.2.2) || (pref = x.2.2 && decide (portTurn s q x.1 < portTurn s q port))))

/-- L2_LOOKUP (R253, R267): a port's request meets the L2 in its turn: a hit is the most recently used and is filled next; a write to
a shared line asks for an upgrade; a miss goes to the home slice. -/
def l2Lookup (c : Nat) (instr : Bool) (line : Nat) (s : State) : State :=
  let k := s.core c
  match (if instr then k.imshr else k.mshr).find? (fun m => m.line = line && !m.asked) with
  | none => s
  | some m =>
    if !lookupTurn s (clusterOf c) (portOf c instr) line m.pref then s
    else
      match l2Line s (clusterOf c) line with
      | some x =>
        let s1 := s.updCluster (clusterOf c) (fun y => { y with l2 := touchLine y.l2 line })
        if m.lvl ≠ 1 then s1.dropPref c line
        else if m.write && x.st = .s then s1.l2Miss c instr 2 m
        else s1.markAsked c instr line true
      | none => s.l2Miss c instr (if m.write then 1 else 0) m

/-- L2_LOOKUP (R253). -/
def execL2Lookup (core : Nat) (instr : Bool) (line : Nat) (s : State) : Host.Outcome State Fault Refusal :=
  atCore core s (l2Lookup core instr line)

/-! ## Fills (R251, R252, R256, R261, R262, R291) -/

/-- The data of a line reaches the loads of a core that wait for it. -/
def State.bringLine (s : State) (c line : Nat) (d : Line) : State :=
  s.updCore c (fun k => { k with banks := k.banks.map (fun p => (p.1, { p.2 with loads := p.2.loads.map (fun l =>
    if !l.complete && l.mt ≠ .device && (l.mt = .wb || l.hi.isSome) && (l.pa / 64 = line || l.hi.any (fun h => h / 64 = line)) then
      { l.bring (64 * line) 64 d.toNat with want := l.want.filter (· ≠ line) }
    else l) })) })

/-- A line enters a core's L1D, the least recently used of a full set leaving for the L2 (R243, R244). -/
def State.l1Fill (s : State) (c : Nat) (x : CLine) : State :=
  let k := s.core c
  let rest := dropLine k.l1d x.line
  let same := rest.filter (fun y => y.line % 256 = x.line % 256)
  if same.length < 4 then s.setCore c { k with l1d := x :: rest }
  else
    match same.getLast? with
    | none => s
    | some v =>
      (s.updCluster (clusterOf c) (fun q => if v.dirty then q.takeBack v else q)).setCore c { k with l1d := x :: dropLine rest v.line }

/-- A line enters a core's L1I, which allocates only while its L2 holds the line, and stands for the banks that wait for it (R133, R243,
R244, R265, R267). -/
def State.instrFill (s : State) (c line : Nat) (d : Line) (poison : Bool) : State :=
  let keep := l1iOn s c && (l2Line s (clusterOf c) line).isSome && !poison
  s.updCore c (fun k =>
    let rest := dropLine k.l1i line
    let same := rest.filter (fun y => y.line % 256 = line % 256)
    let room := if same.length < 4 then rest else (same.getLast?.map (fun v => dropLine rest v.line)).getD rest
    { k with l1i := if keep then { line := line, st := .s, data := d } :: room else k.l1i, imshr := k.imshr.filter (fun m => m.line ≠ line),
             ifill := if k.banks.any (fun q => q.2.fwait.any (fun a => a / 64 = line)) then k.ifill.filter (fun x => x.1 ≠ line) ++ [(line, d, poison)] else k.ifill })

/-- The stores of a core to a line look again whether they own it (R251). -/
def State.askAgain (s : State) (c line : Nat) : State :=
  s.updCore c (fun k => { k with wb := k.wb.map (fun e => if e.pa / 64 = line && (e.kind = .normal || e.kind = .stack) then { e with sent := false } else e) })

/-- A data port's fill: the line enters the L1D without write permission, its loads have their bytes, its miss register
is free (R251). -/
def State.coreFill (s : State) (c line : Nat) (d : Line) (poison : Bool) : State :=
  let q := clusterOf c
  let s1 := if l1dOn s c && (l2Line s q line).isSome then s.l1Fill c { line := line, st := .s, data := d, poison := poison } else s
  (((s1.bringLine c line d).updCore c (fun k => { k with mshr := k.mshr.filter (fun m => !(m.line = line && m.lvl = 1)) })).askAgain c line).pump c

/-- A STCOND that waited for ownership of a line ends: with its reservation still valid it stores and writes 1, else it
writes 0; the bundles behind it go on 3 [core] later (R104, R106, R135). -/
def State.endStc (s : State) (c bi line : Nat) : State :=
  let b := s.bank c bi
  match b.stc with
  | none => s
  | some w =>
    if w.pa / 64 ≠ line || w.ack.isSome then s
    else
      let t := (s.core c).cyc
      let ok := b.resv = some (w.pa / 128)
      let s1 := if ok then s.pushWb c bi .normal w.pa 8 w.val.toNat false none else s
      s1.updBank c bi (fun b => { b.stcDone t w.phys ok with stc := none, resv := none, ready := max b.ready (t + 3) })

/-- Ownership of a line reaches a core, with its data `d` where they came: the other L1Ds of the cluster lose it, other cores'
reservations go, and the L1D holds it writable; where the L2 keeps no copy, loads take the data and stores look again (R105, R256,
R262; log 66). -/
def State.coreGrant (s : State) (c line : Nat) (d : Option Line) : State :=
  let q := clusterOf c
  let s1 := (s.gatherOthers q c line).clearResvIn q line (some c)
  match l2Line s1 q line with
  | none =>
    let s2 := ((d.map (s1.bringLine c line)).getD s1).updCore c (fun k => { k with mshr := k.mshr.filter (fun m => !(m.line = line && m.lvl = 1)) })
    (((List.range 8).foldl (fun s bi => s.endStc c bi line) s2).askAgain c line).pump c
  | some x =>
    let s2 := if l1dOn s1 c then s1.l1Fill c { line := line, st := .e, data := x.data, poison := x.poison } else s1
    let s3 := (s2.bringLine c line x.data).updCore c (fun k => { k with mshr := k.mshr.filter (fun m => !(m.line = line && m.lvl = 1)) })
    ((List.range 8).foldl (fun s bi => s.endStc c bi line) s3).pump c

/-- Ownership goes to a core, unless another core of the cluster defers the loss of the line for its constrained sequence (R107, R263). -/
def State.grantPort (s : State) (c line : Nat) (d : Option Line) : State :=
  if deferring s (otherCores c) line ≠ [] then s else s.coreGrant c line d

/-- The banks whose accesses wait for a line in a core (R291). -/
def waitingBanks (s : State) (c line : Nat) : List Nat :=
  (List.range 8).filter (fun bi =>
    let b := s.bank c bi
    b.loads.any (fun l => !l.complete && l.mt ≠ .device && (l.pa / 64 = line || l.hi.any (fun h => h / 64 = line))) ||
    b.stc.any (fun w => w.pa / 64 = line) || (s.core c).wb.any (fun e => e.bank = bi && e.pa / 64 = line && (e.kind = .normal || e.kind = .stack)))

/-- A line's transaction failed: each bank whose access waits for it is frozen, its loads and stores of the line never
performed (R291). -/
def State.failLine (s : State) (c : Nat) (instr : Bool) (line : Nat) : State :=
  if instr then
    let bs := (List.range 8).filter (fun bi => (s.bank c bi).fwait.any (fun a => a / 64 = line))
    bs.foldl (fun s bi => s.freezeByTransaction c bi) (s.updCore c (fun k => { k with imshr := k.imshr.filter (fun m => m.line ≠ line) }))
  else
    let bs := waitingBanks s c line
    let s1 := s.updCore c (fun k => { k with
      mshr := k.mshr.filter (fun m => !(m.line = line && m.lvl = 1)),
      wb := k.wb.filter (fun e => !(e.pa / 64 = line && (e.kind = .normal || e.kind = .stack))),
      banks := k.banks.map (fun p => (p.1, { p.2 with loads := p.2.loads.filter (fun l =>
        l.complete || l.mt = .device || !(l.pa / 64 = line || l.hi.any (fun h => h / 64 = line))) })) })
    (bs.foldl (fun s bi => s.freezeByTransaction c bi) s1).pump c

/-- An L2 miss register is over; one whose miss displaced a modified line stays until the writeback is accepted (R252). -/
def State.endMshr (s : State) (q : Nat) (m : Mshr) : State :=
  s.updCluster q (fun y =>
    let rest := y.mshr.filter (fun z => z ≠ m)
    { y with mshr := if y.evq.any (fun e => e.miss = m.line && e.dirty) then rest ++ [{ m with waitWb := true, ports := [] }] else rest })

/-- Whether a bank still waits for a walk. -/
def Walk.waited (w : Walk) (b : Bank) : Bool := w.pref.isNone && b.missing && b.pc = w.pc

/-- A walk whose read failed ends: the bank that waits is frozen, and a PREF is discarded (R88, R291). -/
def State.failWalk (s : State) (c : Nat) (instr : Bool) : State :=
  match (if instr then (s.core c).walkI else (s.core c).walkD) with
  | none => s
  | some w =>
    let s1 := s.updCore c (fun k => if instr then { k with walkI := none } else { k with walkD := none })
    (if w.waited (s1.bank c w.bank) then s1.freezeByTransaction c w.bank else s1).pump c

/-- Every port and walk that waits on a miss register sees its line's transaction fail (R291). -/
def State.failMshr (s : State) (q : Nat) (m : Mshr) : State :=
  let s1 := (m.ports ++ m.wports).foldl (fun s p => s.failLine (8 * q + p / 2) (p % 2 = 0) m.line) (s.endMshr q m)
  m.walks.foldl (fun s p => s.failWalk (8 * q + p / 2) (p % 2 = 0)) s1

/-- The answer to an L2 miss enters the L2: data into the register's way, or another allowed one, in M, E or S; a grant
makes the held line E; modified data that find no way leave for the home slice (R247, R256; log 66). -/
def State.l2Fill (s : State) (q : Nat) (m : Mshr) (p : Pkt) : State :=
  let cl := s.cluster q
  let dirty := decide (p.mask ≠ 0)
  if p.net = 1 then s.setCluster q { cl with l2 := cl.l2.map (fun x => if x.line = m.line && x.st = .s then { x with st := .e } else x) }
  else
    let way := if !l2On s q || m.lvl = 3 then none
      else match findLine cl.l2 m.line with
        | some x => some x.way
        | none => (match m.way with
          | some w => if (lineInWay cl.l2 4096 m.line w).isNone then some w else wayFor cl.l2 4096 m.line (waysFor s q m.tenant m.closed) (takenWays cl m.line)
          | none => wayFor cl.l2 4096 m.line (waysFor s q m.tenant m.closed) (takenWays cl m.line))
    match way with
    | none => if dirty then s.sendOut q { line := m.line, dirty := true, data := p.data, poison := p.poison, tenant := m.tenant } m.closed m.line else s
    | some w =>
      let s0 := if (findLine cl.l2 m.line).isSome then s
        else match lineInWay cl.l2 4096 m.line w with
          | some v => s.l2Evict q v.line m.line
          | none => s
      let cl := s0.cluster q
      s0.setCluster q { cl with l2 := putCLine cl.l2 { line := m.line, st := if dirty then .m else if p.excl then .e else .s, dirty := dirty,
                                                         data := p.data, poison := p.poison, tenant := m.tenant, way := w } }

/-- Whether an answer closes a transaction badly (R291). -/
def badAnswer (p : Pkt) : Bool := p.poison || (p.net = 1 && (p.typ = 4 || p.typ = 7 || p.typ = 0xA))

/-- The event of an L1D fill by where its data came from (R545). -/
def fillCode (p : Pkt) : Nat := if p.typ = 2 then 0x1C else if p.fromDram then 0x1D else 0x1B

/-- A line reaches a walk that waits for it (R210). -/
def State.walkFill (s : State) (c : Nat) (instr : Bool) (line : Nat) (d : Line) (poison : Bool) : State :=
  s.updCore c (fun k =>
    let f := fun (w : Walk) => { w with got := some (line, d, poison) }
    if instr then { k with walkI := k.walkI.map f } else { k with walkD := k.walkD.map f })

/-- Every port that waits on a miss register looks its line up again. -/
def State.retryPorts (s : State) (q line : Nat) (ports : List Nat) : State :=
  ports.foldl (fun s p => s.markAsked (8 * q + p / 2) (p % 2 = 0) line false) s

/-- The line reaches a port that reads it (R251, R261). -/
def State.portFill (s : State) (q : Nat) (m : Mshr) (p : Pkt) (port : Nat) : State :=
  let c := 8 * q + port / 2
  let s1 := s.gatherClean q m.line
  let x := (l2Line s1 q m.line).map (fun x => (x.data, x.poison))
  if port % 2 = 0 then (let y := ((l2Line s q m.line).map (fun x => (x.data, x.poison))).getD (p.data, p.poison); s.instrFill c m.line y.1 y.2)
  else
    let y := x.getD (p.data, p.poison)
    (if p.net = 3 && !pmuHidden s m.closed then s1.evc c (fillCode p) 1 else s1).coreFill c m.line y.1 y.2

/-- The line reaches a port that is to own it (R262). -/
def State.portGrant (s : State) (q : Nat) (m : Mshr) (p : Pkt) (port : Nat) : State :=
  let c := 8 * q + port / 2
  (if p.net = 3 && !pmuHidden s m.closed then s.evc c (fillCode p) 1 else s).grantPort c m.line (if p.net = 3 then some p.data else none)

/-- The answer to an L2 miss is served: to the L2, then to every port and walk that waits to read, then to the first of those that wait to
own; the others look the line up again, as a store does that has merged with a read (R251, R252). A store of the whole line needs none of
the line's data (R175). A grant for a line that the L2 has lost meanwhile serves nobody (R252). -/
def State.clusterFill (s : State) (q : Nat) (m : Mshr) (p : Pkt) : State :=
  if badAnswer p && !(m.full && p.net = 3) then s.failMshr q m
  else
    let s1 := (s.l2Fill q m p).endMshr q m
    if p.net = 1 && (l2Line s1 q m.line).isNone then s1.retryPorts q m.line (m.ports ++ m.wports)
    else
      let d := ((l2Line s1 q m.line).map (fun x => (x.data, x.poison))).getD (p.data, p.poison)
      let s2 := m.walks.foldl (fun s w => s.walkFill (8 * q + w / 2) (w % 2 = 0) m.line d.1 d.2) s1
      let s3 := m.ports.foldl (fun s port => s.portFill q m p port) s2
      match m.write, m.wports with
      | true, w :: ws => (s3.retryPorts q m.line ws).portGrant q m p w
      | _, ws => s3.retryPorts q m.line ws

/-- FILL (R251, R261): the answer to a read miss reaches the cluster and its cores; a port whose lookup hit takes the
line from the L2, an instruction port without consulting the L1Ds (R265). -/
def fill (c : Nat) (instr : Bool) (p : Pkt) (s : State) : State :=
  let q := clusterOf c
  let line := p.pa / 64
  match l2Mshr s q line with
  | some m => if m.write then s else (s.take p).clusterFill q m p
  | none =>
    let s := s.take p
    match (if instr then (s.core c).imshr else (s.core c).mshr).find? (fun m => m.line = line && m.asked && m.lvl = 1) with
    | none => s
    | some m =>
      if m.write then s
      else
        let s1 := if instr then s else s.gatherClean q line
        match l2Line s1 q line with
        | none => s.markAsked c instr line false
        | some x =>
          if x.poison then s.failLine c instr line
          else if instr then s1.instrFill c line x.data x.poison
          else (s1.evc c 0x1A 1).coreFill c line x.data x.poison

/-- FILL (R261). -/
def execFill (core : Nat) (instr : Bool) (p : Pkt) (s : State) : Host.Outcome State Fault Refusal := atCore core s (fill core instr p)

/-- OWNERSHIP_GRANT (R106, R262): the answer to an ownership request reaches the cluster and its cores; a port whose
lookup met a line held in M or E takes the ownership from the L2. -/
def ownershipGrant (c : Nat) (p : Pkt) (s : State) : State :=
  let q := clusterOf c
  let line := p.pa / 64
  match l2Mshr s q line with
  | some m => if m.write then (s.take p).clusterFill q m p else s
  | none =>
    match (s.core c).mshr.find? (fun m => m.line = line && m.asked && m.write && m.lvl = 1) with
    | none => s
    | some m =>
      match l2Line s q line with
      | some x => if x.st = .s then s.markAsked c false line false else if x.poison && !m.full then s.failLine c false line else
          ((if (findLine (s.core c).l1d line).isNone then s.evc c 0x1A 1 else s).grantPort c line none)
      | none => s.markAsked c false line false

/-- OWNERSHIP_GRANT (R262). -/
def execOwnershipGrant (core : Nat) (p : Pkt) (s : State) : Host.Outcome State Fault Refusal := atCore core s (ownershipGrant core p)

/-- EVICT_ANSWER (R252, R254): an eviction is answered; the miss register that waited for the writeback is free. -/
def evictAnswer (q : Nat) (p : Pkt) (s : State) : State :=
  let line := p.pa / 64
  match (s.cluster q).evq.find? (fun e => e.line = line) with
  | none => s
  | some e => (s.take p).updCluster q (fun y => { y with
      evq := dropFirst (fun x => x.line = line) y.evq,
      mshr := y.mshr.filter (fun m => !(m.waitWb && m.line = e.miss)),
      maint := y.maint.map (fun m => { m with wait := m.wait.filter (· ≠ line) }) })

/-- EVICT_ANSWER (R254). -/
def execEvictAnswer (cluster : Nat) (p : Pkt) (s : State) : Host.Outcome State Fault Refusal := atL2 cluster s (evictAnswer cluster p)

/-! ## Snoops (R107, R248 to R250, R261 to R263) -/

/-- A snoop answer with the line's data, modified data marked by its mask, data of an eviction entry by `gone` (log 22); it is tagged
with the line's place in a set of the L1s (R277). -/
def State.snoopData (s : State) (q : Nat) (p : Pkt) (d : Line) (dirty poison gone : Bool) : State :=
  let q0 : Pkt := { p with tag := p.pa / 64 % 256 }
  s.reply q0 { net := 3, typ := 3, src := clusterUnit q, dst := p.src, pa := p.pa, size := 6, data := d, poison := poison,
                mask := if dirty then BitVec.allOnes 64 else 0, victim := gone }

/-- A snoop answer without data: the cluster does not hold the line, or no longer (R250). -/
def State.snoopClean (s : State) (q : Nat) (p : Pkt) : State :=
  let q0 : Pkt := { p with tag := p.pa / 64 % 256 }
  s.reply q0 { net := 1, typ := 8, src := clusterUnit q, dst := p.src, pa := p.pa }

/-- A line forwarded to the requester that a snoop names. -/
def State.forward (s : State) (q : Nat) (p : Pkt) (d : Line) (poison : Bool) : State :=
  s.reply p { net := 3, typ := 2, src := clusterUnit q, dst := p.data.toNat % 2 ^ 16, pa := p.pa, size := 6, data := d, poison := poison }

/-- A cluster answers a snoop: from the L2 and the L1s under it, from an eviction entry, or as not holding the line
(R250). An owner that keeps its line through a Clean snoop answers with the data, modified or not (log 22). -/
def State.answerSnoop (s : State) (q : Nat) (p : Pkt) : State :=
  let line := p.pa / 64
  let removes := p.typ = 0 || p.typ = 2
  let s0 := (clusterCores q).foldl (fun s c => if (findLine (s.core c).l1d line).isSome && !pmuHidden s p.closed then s.evc c 0x3E 1 else s)
    (if removes then s.clearResvIn q line none else s)
  match l2Line s q line with
  | some _ =>
    let s1 := if removes then s0.gatherRemove q line else s0.gatherClean q line
    match findLine (s1.cluster q).l2 line with
    | none => s1.snoopClean q p
    | some x =>
      let keep := { x with dirty := false, st := if p.typ = 1 then .s else if x.st = .m then .e else x.st }
      let s2 := s1.updCluster q (fun y => { y with
        l2 := if removes then dropLine y.l2 line else y.l2.map (fun z => if z.line = line then keep else z),
        evq := if removes then y.evq.map (fun e => if e.line = line then { e with superseded := true } else e) else y.evq })
      if p.typ = 1 then (s2.forward q p x.data x.poison).snoopData q p x.data x.dirty x.poison false
      else if p.typ = 2 || p.typ = 3 || x.dirty then s2.snoopData q p x.data x.dirty x.poison false
      else s2.snoopClean q p
  | none =>
    match (s.cluster q).evq.find? (fun e => e.line = line && !e.superseded) with
    | some e =>
      let s2 := s0.updCluster q (fun y => { y with evq := y.evq.map (fun x => if x = e then { e with superseded := true } else x) })
      if p.typ = 1 then (s2.forward q p e.data e.poison).snoopData q p e.data e.dirty e.poison true
      else if p.typ = 2 || e.dirty then s2.snoopData q p e.data e.dirty e.poison true
      else s2.snoopClean q p
    | none => s0.snoopClean q p

/-- Whether the answer to a line's outstanding miss is on its way to a cluster: a snoop of the line waits for it (log 23). -/
def fillOnWay (s : State) (q line : Nat) : Bool :=
  (l2Mshr s q line).isSome && ((s.inbox ++ s.halves).any (answersLine (clusterUnit q) line) ||
    s.routers.any (fun r => r.2.bufs.any (fun b => b.2.any (answersLine (clusterUnit q) line))))

/-- A snoop reaches a cluster: it is answered, or deferred for a constrained sequence. -/
def snooped (q typ : Nat) (p : Pkt) (s : State) : State :=
  let line := p.pa / 64
  if p.net ≠ 2 ∨ p.typ ≠ typ ∨ fillOnWay s q line then s
  else if deferring s (clusterCores q) line ≠ [] then (s.take p).updCluster q (fun y => { y with snoops := y.snoops ++ [p] })
  else (s.take p).answerSnoop q p

/-- SNOOP_INVALIDATE (R248). -/
def execSnoopInvalidate (cluster : Nat) (p : Pkt) (s : State) : Host.Outcome State Fault Refusal := atL2 cluster s (snooped cluster 0 p)
/-- FORWARD_SHARED (R261). -/
def execForwardShared (cluster : Nat) (p : Pkt) (s : State) : Host.Outcome State Fault Refusal := atL2 cluster s (snooped cluster 1 p)
/-- FORWARD_UNIQUE (R262). -/
def execForwardUnique (cluster : Nat) (p : Pkt) (s : State) : Host.Outcome State Fault Refusal := atL2 cluster s (snooped cluster 2 p)
/-- SNOOP_CLEAN (R248). -/
def execSnoopClean (cluster : Nat) (p : Pkt) (s : State) : Host.Outcome State Fault Refusal := atL2 cluster s (snooped cluster 3 p)

/-- SNOOP_DEFERRAL_END (R107, R263): the cores that defer the snoop run on to the end of the deferral, and it is
answered. -/
def deferralEnd (q : Nat) (p : Pkt) (s : State) : State :=
  if (s.cluster q).snoops.contains p then
    let s1 := (deferring s (clusterCores q) (p.pa / 64)).foldl (fun s cb => s.landAt cb.1 ((s.bank cb.1 cb.2).resvAt + 16)) s
    (s1.updCluster q (fun y => { y with snoops := dropFirst (fun x => x = p) y.snoops })).answerSnoop q p
  else s

/-- SNOOP_DEFERRAL_END (R107). -/
def execSnoopDeferralEnd (cluster : Nat) (p : Pkt) (s : State) : Host.Outcome State Fault Refusal := atL2 cluster s (deferralEnd cluster p)

/-! ## Maintenance (R264, R265, R269) -/

/-- MAINTENANCE_ACKNOWLEDGE (R265): the acknowledgement of a DCLEAN or DINVAL performs it; a bad end freezes the bank. -/
def maintAck (c bi seq : Nat) (ans : MemAns) (s : State) : State :=
  match (s.core c).wb.find? (fun e => e.bank = bi && e.seq = seq && e.sent && (e.kind = .clean || e.kind = .inval)) with
  | none => s
  | some e =>
    let fail := fun (s : State) => ((s.freezeByTransaction c bi).dropWb c e).afterPerform c
    match findAns s c e.tag with
    | some p => (match ansOf p with
      | some (.data _) => ((s.take p).dropWb c e).afterPerform c
      | _ => fail (s.take p))
    | none => if ans ≠ .timeout || tooEarly s e.late ans then s else fail (s.loseTag (clusterUnit (clusterOf c)) e.tag)

/-- MAINTENANCE_ACKNOWLEDGE (R265). -/
def execMaintenanceAcknowledge (core bank seq : Nat) (ans : MemAns) (s : State) : Host.Outcome State Fault Refusal :=
  atBank core bank s (maintAck core bank seq ans)

/-- A whole-cache operation on an L2 line: op 0 drops it, 1 cleans it, 2 both; the home slice takes what is written back
and, of an enabled L2, hears of the loss. A line under a Clean request stays dirty until the home has taken it, and its
eviction entry only awaits the answer (log 24). An operation that removes it takes it from every L1 (R244, R268). -/
def State.l2Maint (s : State) (q op line : Nat) : State :=
  let s1 := if op = 1 then s.gatherClean q line
    else (clusterCores q).foldl (fun s c => s.updCore c (fun k => { k with l1d := dropLine k.l1d line, l1i := dropLine k.l1i line })) (s.gather q line)
  match findLine (s1.cluster q).l2 line with
  | none => s1
  | some x =>
    let write := decide (op ≠ 0) && x.dirty && l2On s q
    let p := clusterPkt s1 q (if op = 1 then 3 else 5) line x.tenant (decide (14 ≤ x.way))
    let s2 := if op = 1 then s1 else s1.updCluster q (fun y => { y with l2 := dropLine y.l2 line })
    let send := l2On s q && (write || decide (op ≠ 1))
    if !send then s2
    else (s2.updCluster q (fun y => { y with evq := y.evq ++ [{ line := line, dirty := write, data := x.data, poison := x.poison, tenant := x.tenant, superseded := decide (op = 1), late := rtoLate s (tileRouter q), tag := s2.nextTag (clusterUnit q) }] })).request
      { p with data := x.data, mask := if write then BitVec.allOnes 64 else 0, poison := x.poison }

/-- A whole-cache operation on a line of a core's L1D: what is written back goes to the L2. -/
def State.l1Maint (s : State) (c op line : Nat) : State :=
  match findLine (s.core c).l1d line with
  | none => s
  | some x =>
    let s1 := if op ≠ 0 ∧ x.dirty ∧ l1dOn s c then s.updCluster (clusterOf c) (fun q => q.takeBack x) else s
    s1.updCore c (fun k => { k with
      l1d := if op ≠ 1 then dropLine k.l1d line
             else if l1dOn s c then k.l1d.map (fun z => if z.line = line then { x with dirty := false, st := if x.st = .m then .e else x.st } else z) else k.l1d })

/-- A whole-cache operation on a slice line. -/
def State.sliceMaint (s : State) (k op line : Nat) : State :=
  match findLine (s.slice k).lines line with
  | none => s
  | some x =>
    let s1 := s.updSlice k (fun q => { q with
      lines := if op = 1 then q.lines.map (fun z => if z.line = line then { x with dirty := if sliceOn s k then false else x.dirty } else z) else dropLine q.lines line })
    if op ≠ 0 ∧ x.dirty ∧ sliceOn s k then s1.displace k { net := 0, typ := 0xF, pa := 64 * line } x else s1

/-- The maintenance operation that a CACHE_ block runs. -/
def maintOf (s : State) (j : Nat) : Option MaintOp := if j < 16 then (s.cluster j).maint else (s.slice (j - 16)).maint
def State.setMaint (s : State) (j : Nat) (m : Option MaintOp) : State :=
  if j < 16 then s.updCluster j (fun y => { y with maint := m }) else s.updSlice (j - 16) (fun y => { y with maint := m })

/-- The sets of an operation's target (R243). -/
def MaintOp.sets (m : MaintOp) : Nat := if m.level = 0 then 4096 else 256

/-- The lines of an operation's target within its ways, in sets that a predicate names (R269, R270). -/
def maintLines (s : State) (j : Nat) (m : MaintOp) (p : Nat → Bool) : List CLine :=
  let l := if 16 ≤ j then (s.slice (j - 16)).lines else if m.level = 0 then (s.cluster j).l2
    else if m.level = 1 then (s.core (8 * j + m.core)).l1d else (s.core (8 * j + m.core)).l1i
  l.filter (fun x => p (x.line % m.sets) && (m.level ≠ 0 || m.ways.testBit x.way))

/-- The operation visits a line of its target, and waits for the acceptance of what it writes back (R269). -/
def State.maintLine (s : State) (j : Nat) (m : MaintOp) (line : Nat) : State :=
  let c := 8 * j + m.core
  let s1 := if 16 ≤ j then s.sliceMaint (j - 16) m.op line else if m.level = 0 then s.l2Maint j m.op line
    else if m.level = 1 then s.l1Maint c m.op line else s.updCore c (fun k => { k with l1i := dropLine k.l1i line })
  let out := if 16 ≤ j then (txnOf s1 (j - 16) line).any (fun t => t.wr) else m.level = 0 && (s1.cluster j).evq.any (fun e => e.dirty && e.line = line)
  if out then s1.setMaint j ((maintOf s1 j).map (fun x => { x with wait := x.wait ++ [line] })) else s1

/-- The operation visits the sets before `n` that it has not visited yet. -/
def State.maintTo (s : State) (j n : Nat) : State :=
  match maintOf s j with
  | none => s
  | some m =>
    let ls := (maintLines s j m (fun i => decide (m.nextSet ≤ i) && decide (i < n))).map (·.line)
    let s1 := ls.foldl (fun s l => s.maintLine j m l) s
    s1.setMaint j ((maintOf s1 j).map (fun x => { x with nextSet := max x.nextSet n }))

/-- The operation runs for some edges of its target's clock: one for each set, and one for each line of the set that it writes back
(R269). `fuel` bounds the sets. -/
def State.maintRun (s : State) (j : Nat) : Nat → Nat → State
  | 0, _ => s
  | fuel + 1, edges =>
    match maintOf s j with
    | none => s
    | some m =>
      if edges = 0 ∨ m.sets ≤ m.nextSet then s
      else
        let s1 := s.maintTo j (m.nextSet + 1)
        let wrote := ((maintOf s1 j).map (fun x => x.wait.length)).getD 0 - m.wait.length
        s1.maintRun j fuel (edges - 1 - wrote)

/-- A write of CACHE_MAINT with op 0, 1 or 2 (R269, R270): lost while busy; else the operation starts, and visits its sets from the next
edge of the target's clock on. -/
def cacheMaint (op j level core ways : Nat) (closed : Bool) (s : State) : State :=
  let w := if closed then ways % 2 ^ 16 else ways % 2 ^ 14
  let st := R.CACHE_STAT j
  if s.on st F.CACHE_STAT_busy then s.setF st F.CACHE_STAT_lost 1
  else if (j < 16 ∧ level = 3) ∨ (16 ≤ j ∧ level ≠ 0) then s.setF st F.CACHE_STAT_err 1
  else (s.setF st F.CACHE_STAT_busy 1).setMaint j (some { op := op, level := level, core := core % 8, ways := w })

/-- A command of a CACHE_ block's maintenance register. -/
def cacheMaintCmd (op : Nat) (ag : Agent) (j level core ways : Nat) (s : State) : Host.Outcome State Fault Refusal :=
  atCache j s (fun s => regCmd .cache (R.CACHE_MAINT j) ag s (cacheMaint op j level core ways ag.closed))

/-- CACHE_INVALIDATE (R269). -/
def execCacheInvalidate (ag : Agent) (block level core ways : Nat) (s : State) : Host.Outcome State Fault Refusal := cacheMaintCmd 0 ag block level core ways s
/-- CACHE_CLEAN (R269). -/
def execCacheClean (ag : Agent) (block level core ways : Nat) (s : State) : Host.Outcome State Fault Refusal := cacheMaintCmd 1 ag block level core ways s
/-- CACHE_CLEAN_INVALIDATE (R269). -/
def execCacheCleanInvalidate (ag : Agent) (block level core ways : Nat) (s : State) : Host.Outcome State Fault Refusal := cacheMaintCmd 2 ag block level core ways s

/-- Whether the next level has accepted an operation's writeback of a line. -/
def maintTaken (s : State) (j line : Nat) : Bool :=
  if j < 16 then !(s.cluster j).evq.any (fun e => e.dirty && e.line = line) else !(txnOf s (j - 16) line).any (fun t => t.wr)

/-- CACHE_MAINT_COMPLETE (R269): the last set is done, and with the last writeback accepted busy clears. -/
def maintComplete (j : Nat) (s : State) : State :=
  match maintOf s j with
  | none => s
  | some m =>
    let s1 := s.maintTo j m.sets
    if ((maintOf s1 j).map (fun x => x.wait.all (maintTaken s1 j))).getD true then (s1.setMaint j none).setF (R.CACHE_STAT j) F.CACHE_STAT_busy 0
    else s1

/-- CACHE_MAINT_COMPLETE (R269). -/
def execCacheMaintComplete (block : Nat) (s : State) : Host.Outcome State Fault Refusal := atCache block s (maintComplete block)

end Sys2Proof.Machine
end

