-- ==== Sys2Proof/Machine/Walk.lean ====
section
/-! DEFINITION. Translations in progress: the L2 TLB, the walk and its reads, and what a result brings (R88, R204, R207 to R210). -/

namespace Sys2Proof.Machine

/-- The walk on a port of a core. -/
def Core.walkOf (k : Core) (instr : Bool) : Option Walk := if instr then k.walkI else k.walkD
def Core.setWalk (k : Core) (instr : Bool) (w : Option Walk) : Core := if instr then { k with walkI := w } else { k with walkD := w }

/-! ## The translation caches (R208) -/

/-- The set of the L2 TLB that a page size and address index (R208). -/
def l2Index (lg va : Nat) : Nat :=
  if lg = 30 then (va >>> 30) % 512 else if lg = 21 then (va >>> 21) % 512
  else if lg = 16 then (va >>> 16) % 32 * 16 else (va >>> 12) % 512

/-- The L2 TLB entry that serves a walk's access. -/
def l2Find (k : Core) (w : Walk) : Option TlbEnt := k.l2tlb.find? (fun t => t.serves w.regime w.tenant w.asid w.va.toNat)

/-- An entry joins the L2 TLB as the most recently used: the least recently used of a full set goes (R208). -/
def l2Put (l : List TlbEnt) (t : TlbEnt) : List TlbEnt :=
  let ix := fun (e : TlbEnt) => l2Index e.lg (e.vpage * 2 ^ e.lg)
  let rest := l.filter (· ≠ t)
  let same := rest.filter (fun e => ix e = ix t)
  t :: (if same.length < 4 then rest
        else match same.getLast? with
          | some v => dropFirst (fun e => e = v) rest
          | none => rest)

/-- Entries become the most recently used of a fully associative cache of `n`, each standing there once (R208). -/
def lruPut {α : Type} [DecidableEq α] (n : Nat) (new old : List α) : List α :=
  (new.dedup ++ old.filter (fun x => !new.contains x)).take n

/-- What a walk has used or brought becomes the most recently used of the walk caches (R208). -/
def Core.putWalk (k : Core) (o : WalkOut) : Core :=
  { k with wc1 := lruPut 32 o.c1 k.wc1, wcr := lruPut 8 o.cr k.wcr, wc2 := lruPut 32 o.c2 k.wc2 }

/-- The level-0 roots and what the walk knows (R191, R194, R200, R208). -/
def walkEnv (k : Core) (w : Walk) : WalkEnv :=
  { ans := w.ans, map := k.map, closed := w.closed, wc1 := k.wc1, wcr := k.wcr, wc2 := k.wc2, tlb := k.itlb ++ k.dtlb ++ k.l2tlb }

/-- The walk as far as its answers reach. -/
def walkRun (s : State) (c : Nat) (w : Walk) : WRes WalkOut :=
  walk (walkEnv (s.core c) w) w.regime w.tenant w.asid (regimeRoot s c w.regime) (tentBase s c) w.va.toNat

/-! ## The reads (R210, R245, R291) -/

/-- A read of a walk is answered. -/
def State.walkGot (s : State) (c : Nat) (instr : Bool) (w : Walk) (pa : Nat) (v : WalkAns) : State :=
  s.updCore c (fun k => k.setWalk instr (some { w with ans := (pa, v) :: w.ans, l2 := true, sent := none, got := none }))

/-- A read of DRAM looks up the L2 in its turn, on the data port: a hit answers it, with what an L1D of the cluster has modified; a miss
asks for the line and waits for it (R210, R248, R252, R261). -/
def walkLook (c : Nat) (instr : Bool) (w : Walk) (pa : Nat) (s : State) : State :=
  let q := clusterOf c
  let line := pa / 64
  let word := fun (d : Line) => WalkAns.data (BitVec.ofNat 64 (lineField d (pa % 64) 8))
  match w.got.filter (fun g => g.1 = line) with
  | some (_, d, poison) => if poison then s.failWalk c instr else s.walkGot c instr w pa (word d)
  | none =>
    if (l2Mshr s q line).any (fun m => m.walks.contains (portOf c instr)) || !lookupTurn s q (portOf c false) line false then s
    else
      let s1 := s.gatherClean q line
      match l2Line s1 q line with
      | some x =>
        if x.poison then s.failWalk c instr
        else (s1.updCluster q (fun y => { y with l2 := touchLine y.l2 line })).walkGot c instr w pa (word x.data)
      | none => (s.l2Take q c w.bank 0 { line := line, write := false, tenant := w.tenant, closed := w.closed, walks := [portOf c instr] }).1

/-- A read outside DRAM is a non-cacheable read of 8 bytes, sent once and answered by its packet; a decode error ends the walk at that read,
and Poison, Fenced or a timeout freezes the bank that waits (R204, R210, R291). -/
def walkFar (c : Nat) (instr : Bool) (w : Walk) (pa : Nat) (ans : MemAns) (s : State) : State :=
  let u := clusterUnit (clusterOf c)
  match w.sent with
  | none =>
    if decodeFails (routerMap s c) w.closed false pa then s.walkGot c instr w pa .bad
    else (s.sendRead c pa 8 .nc w.tenant w.closed).updCore c (fun k =>
      k.setWalk instr (some { w with l2 := true, sent := some (coreTag s c, rtoLate s (tileRouter (clusterOf c))) }))
  | some (t, late) =>
    match findAns s c t with
    | some p =>
      (match ansOf p with
       | some (.data v) => (s.take p).walkGot c instr w pa (.data (BitVec.ofNat 64 (if p.net = 3 then lineField p.data (pa % 64) 8 else v)))
       | some .decodeError => (s.take p).walkGot c instr w pa .bad
       | _ => (s.take p).failWalk c instr)
    | none => if ans = .timeout then (if s.ref < late then s else (s.loseTag u t).failWalk c instr) else s.serveRead u t ans

/-- PAGE_WALK_READ (R210): the walk's next read goes on: it is looked up or sent, or what it waits for has come. -/
def walkRead (c : Nat) (instr : Bool) (ans : MemAns) (s : State) : State :=
  let k := s.core c
  match k.walkOf instr with
  | none => s
  | some w =>
    if (l2Find k w).isSome then s
    else
      match walkRun s c w with
      | .need pa =>
        let s1 := if w.l2 || pmuHidden s w.closed then s else s.evc c 0x18 1
        let w1 := { w with l2 := true }
        let s2 := s1.updCore c (fun k => k.setWalk instr (some w1))
        if addrClass pa = .dram then walkLook c instr w1 pa s2 else walkFar c instr w1 pa ans s2
      | _ => s

/-- PAGE_WALK_READ (R210). -/
def execPageWalkRead (core : Nat) (instr : Bool) (ans : MemAns) (s : State) : Host.Outcome State Fault Refusal :=
  atCore core s (walkRead core instr ans)

/-! ## The result (R207, R209, R210) -/

/-- A fault that a translation found is the waiting bank's exception; it discards a PREF (R88, R204). -/
def State.walkFault (s : State) (c : Nat) (instr : Bool) (w : Walk) (f : TFault) : State :=
  (if w.waited (s.bank c w.bank) then
     s.accept c w.bank (s.core c).cyc (excTr (if instr then 4 else 5) f w.va (w.kind = .write) w.upper)
   else s).pump c

/-- A translation result stands: the TLBs and walk caches take it, and the bank that waits for it refetches, issuing
5 [core] later, or takes the permission fault; a PREF asks for its line (R88, R207 to R210). -/
def State.gotTranslation (s : State) (c : Nat) (instr : Bool) (w : Walk) (t : TlbEnt) (o : Option WalkOut) : State :=
  let s1 := s.updCore c (fun k =>
    let k := k.setWalk instr none
    let k := if instr then { k with itlb := lruPut 48 [t] k.itlb } else { k with dtlb := lruPut 64 [t] k.dtlb }
    let k := { k with l2tlb := l2Put k.l2tlb t }
    (o.map k.putWalk).getD k)
  match permFault t w.kind w.user w.va.toNat with
  | some f => s1.walkFault c instr w f
  | none =>
    match w.pref with
    | some h => (s1.prefAt c h (t.pa w.va.toNat) t.mt t.dec w.tenant w.closed).pump c
    | none =>
      (if w.waited (s1.bank c w.bank) then s1.updBank c w.bank (fun b => { b with missing := false, ready := max b.ready ((s1.core c).cyc + 5) }) else s1).pump c

/-- TRANSLATION_RESULT (R207, R209, R210): an L2 TLB hit, or a walk whose reads have all returned. -/
def translationResult (c : Nat) (instr : Bool) (s : State) : State :=
  let k := s.core c
  match k.walkOf instr with
  | none => s
  | some w =>
    match l2Find k w with
    | some t => s.gotTranslation c instr w t none
    | none =>
      let s0 := if w.l2 || pmuHidden s w.closed then s else s.evc c 0x18 1
      match walkRun s c w with
      | .need _ => s
      | .ok o => s0.gotTranslation c instr w o.ent (some o)
      | .fault f => (s0.updCore c (fun k => k.setWalk instr none)).walkFault c instr w f

/-- TRANSLATION_RESULT (R207). -/
def execTranslationResult (core : Nat) (instr : Bool) (s : State) : Host.Outcome State Fault Refusal :=
  atCore core s (translationResult core instr)

end Sys2Proof.Machine
end

