-- ==== Sys2Proof/Machine/Mesh.lean ====
section
/-! DEFINITION. The mesh routers: routing, virtual channels, slots, credits, errors, links and probes (R35 to R37, R43,
R271 to R298, R588). -/

namespace Sys2Proof.Machine

/-! ## Places and routes (R271, R286) -/

/-- The coordinates of a router. -/
def rx (r : Nat) : Nat := r % 6
def ry (r : Nat) : Nat := r / 6

/-- Whether a router has a mesh port in a direction: 0 N, 1 E, 2 S, 3 W. -/
def hasPort (r d : Nat) : Bool :=
  match d with
  | 0 => decide (0 < ry r)
  | 1 => decide (rx r < 5)
  | 2 => decide (ry r < 4)
  | _ => decide (0 < rx r)

/-- The neighbour of a router in a direction. -/
def neighbour (r d : Nat) : Nat :=
  match d with
  | 0 => r - 6
  | 1 => r + 1
  | 2 => r + 6
  | _ => r - 1

/-- The input at the neighbour that an output feeds. -/
def opposite (d : Nat) : Nat := (d + 2) % 4

/-- The local ports of a router (R271). -/
def localPorts (r : Nat) : Nat :=
  if ry r < 4 then (if 1 ≤ rx r ∧ rx r ≤ 4 then 2 else 1)
  else if rx r = 0 then 2 else if rx r = 1 ∨ rx r = 4 then 1 else 3

/-- The output of the X-then-Y route from a router to a unit: 0 to 3 a direction, 4 to 6 a local port (R36). -/
def xyOut (r dst : Nat) : Nat :=
  let d := dst / 4
  if rx r < rx d then 1 else if rx d < rx r then 3 else if ry r < ry d then 2 else if ry d < ry r then 0 else 4 + dst % 4

/-- The permitted outputs of the odd-even turn rule (R286): column and row of the router, of the destination, and the
source's column; a destination at the router gives none. -/
def avail (xc yc xd yd xs : Nat) : List Nat :=
  let ns := if yc < yd then 2 else 0
  if xd = xc ∧ yd = yc then []
  else if xd = xc then [ns]
  else if xc < xd then
    if yd = yc then [1]
    else (if xd % 2 = 1 || decide (xd - xc ≠ 1) then [1] else []) ++ (if xc % 2 = 1 || decide (xc = xs) then [ns] else [])
  else [3] ++ (if xc % 2 = 0 && decide (yd ≠ yc) then [ns] else [])

/-- The inputs from which X-then-Y routing reaches an output of a router (R285). -/
def inputsTo (r o : Nat) : Nat :=
  let cnt := fun (ds : List Nat) => (ds.filter (hasPort r)).length
  match o with
  | 0 => cnt [2, 1, 3] + localPorts r
  | 1 => cnt [3] + localPorts r
  | 2 => cnt [0, 1, 3] + localPorts r
  | 3 => cnt [1] + localPorts r
  | _ => cnt [0, 1, 2, 3] + (localPorts r - 1)

/-! ## Flits and credits (R37, R274 to R280) -/

/-- The flits of a virtual channel of the next router that this router has in use: network, output, channel. -/
def usedOf (s : State) (r net o vc : Nat) : Nat := mget 0 (s.router r).used (bufIx net o vc)

/-- Free credits of a channel of 4 flits. -/
def freeOf (s : State) (r net o vc : Nat) : Nat := 4 - usedOf s r net o vc

/-- Bits [32:0] of a data flit's sideband from the common header, the tag and the poison bit, with their even parity in bit 33 (R278). -/
def sideHead (common tag : Nat) (poison : Bool) : Nat :=
  let h := common + 2 ^ 24 * (tag % 256) + (if poison then 2 ^ 32 else 0)
  h + (if popcount (BitVec.ofNat 64 h) 33 % 2 = 1 then 2 ^ 33 else 0)

/-- The eight check bytes of a line, byte `i` over its word `i` (R278). -/
def checkBytes (d : Line) : Nat := (List.range 8).foldl (fun n i => n + 256 ^ i * (Config.secded (BitVec.ofNat 64 (lineField d (8 * i) 8))).toNat) 0

/-- Bits [63:0] of a packet's head, or of a data flit's sideband (R274 to R278). -/
def headBits (p : Pkt) : Word :=
  let place := fun (u : Nat) => rx (u / 4) + 8 * ry (u / 4) + 64 * (u % 4)
  let common := place p.dst + 256 * place p.src + (if p.clsA then 2 ^ 16 else 0) + (if p.esc then 2 ^ 17 else 0) + 2 ^ 18 * p.typ +
    (if decide (flits p = 2) then 2 ^ 22 else 0) + (if p.closed then 2 ^ 23 else 0)
  BitVec.ofNat 64 (common +
    (match p.net with
     | 0 => 2 ^ 24 * p.tenant + 2 ^ 33 * p.tag + 2 ^ 41 * p.size + 2 ^ 44 * p.mt + (if p.victim then 2 ^ 46 else 0) + 2 ^ 48 * (p.pa % 2 ^ 16)
     | 1 => 2 ^ 24 * p.tag + 2 ^ 32 * (p.data.toNat % 2 ^ 32)
     | 2 => 2 ^ 26 * (p.pa / 64)
     | _ => sideHead common p.tag p.poison - common + 2 ^ 34 * (checkBytes p.data % 2 ^ 30)))

/-- Whether a type code is reserved on its network (R279). -/
def reservedType (p : Pkt) : Bool :=
  match p.net with
  | 0 => decide (0xD < p.typ)
  | 1 => decide (0xB < p.typ)
  | 2 => decide (4 < p.typ)
  | _ => decide (3 < p.typ)

/-! ## Probes (R294 to R296, R525, R527) -/

/-- The bytes of a number, the lowest first. -/
def leBytes (n v : Nat) : List Byte := wordBytes n v

/-- A matched head goes to the Ledger as a PROBE packet, where it is powered and the trace is authorised (R296, R521,
R525, R534). -/
def State.probeTrace (s : State) (r i : Nat) (p : Pkt) : State :=
  if s.on (R.NOC_PRB_SEL r i) F.NOC_PRB_SEL_trace && domOn s 217 && authorised s (if p.closed then 2 else 0) then
    { s with chunks := s.chunks ++ [{ src := 128 + 2 * r + i, prio := s.f (R.NOC_PRB_SEL r i) F.NOC_PRB_SEL_prio,
                                      bytes := [0x80] ++ leBytes 8 (headBits p).toNat ++ leBytes 6 s.ref }] }
  else s

/-- Whether a probe matches a head at a port and direction, 0 input or 1 output (R294, R295). -/
def probeMatches (s : State) (r i net port dir : Nat) (p : Pkt) : Bool :=
  let sel := R.NOC_PRB_SEL r i
  let ep := s.reg (R.NOC_PRB_ENDP r i)
  let h := (headBits p).toNat
  let cls := s.f sel F.NOC_PRB_SEL_cls
  let tm := s.f (R.NOC_PRB_TEN r i) F.NOC_PRB_TEN_mask
  s.on sel F.NOC_PRB_SEL_en && s.f sel F.NOC_PRB_SEL_net = net && s.f sel F.NOC_PRB_SEL_port = port && s.f sel F.NOC_PRB_SEL_dir = dir &&
  (cls = 0 || (cls = 1 && !p.clsA) || (cls = 2 && p.clsA && !p.esc) || (cls = 3 && p.esc)) &&
  (s.f (R.NOC_PRB_TYPE r i) F.NOC_PRB_TYPE_types).testBit p.typ &&
  (h / 256 % 256 ^^^ fld ep 0 8) &&& fld ep 8 8 = 0 && (h % 256 ^^^ fld ep 16 8) &&& fld ep 24 8 = 0 &&
  (if net = 0 then (p.tenant ^^^ s.f (R.NOC_PRB_TEN r i) F.NOC_PRB_TEN_tenant) &&& tm = 0 else tm = 0) &&
  (!p.closed || authorised s 2)

/-- A probe counts, keeps and traces a head that it matches. -/
def State.probe (s : State) (r net port dir : Nat) (p : Pkt) (i : Nat) : State :=
  if probeMatches s r i net port dir p then
    let a := R.NOC_PRB_CNT r i
    let n := s.f a F.NOC_PRB_CNT_count + 1
    let s1 := s.setF a F.NOC_PRB_CNT_count n
    let s2 := if n = 2 ^ 48 then s1.setF a F.NOC_PRB_CNT_ovf 1 else s1
    (s2.setReg (R.NOC_PRB_HDR r i) (headBits p)).probeTrace r i p
  else s

/-- Both probes of a router see a head. -/
def State.probes (s : State) (r net port dir : Nat) (p : Pkt) : State := (s.probe r net port dir p 0).probe r net port dir p 1

/-! ## Links and errors (R288, R290, R292, R293) -/

def linkFld (d b : Nat) : Fld := ⟨4 * d + b, 1⟩

/-- Whether the link into a router's input is up; local inputs are. -/
def linkUp (s : State) (r d : Nat) : Bool := decide (4 ≤ d) || s.on (R.NOC_LINK r) (linkFld d 0)

/-- Whether an output is fenced, by software or by the anchor. -/
def fenced (s : State) (r d : Nat) : Bool := decide (d < 4) && (s.on (R.NOC_LINK r) (linkFld d 1) || (s.router r).anchorFence.contains d)

/-- Whether a link crosses the cut between x = 2 and x = 3 (R293). -/
def onCut (r d : Nat) : Bool := (rx r = 2 && d = 1) || (rx r = 3 && d = 3)

/-- The number of a router's island in fault reports (R510). -/
def routerIsland (r : Nat) : Nat := 160 + r

/-- An input link is declared down: fault 0x0B inside the half, 0x0C of the cut to both anchors (R292, R472). -/
def State.linkDown (s : State) (r d : Nat) : State :=
  let s1 := s.setF (R.NOC_LINK r) (linkFld d 0) 0
  if onCut r d then (s1.report 0 0x0C (routerIsland r)).report 1 0x0C (routerIsland r)
  else s1.report (routerHalf r) 0x0B (routerIsland r)

/-- An uncorrectable error on an input: counted, recorded and reported; on a mesh input due_lim of them take the link
down (R290). -/
def State.meshError (s : State) (r net d : Nat) : State :=
  let s := s.pmuAdd (routerIsland r) 0xB 1
  let e := R.NOC_ERR r
  let s1 := (((s.incSat e F.NOC_ERR_uncorr 1).setF e F.NOC_ERR_net net).setF e F.NOC_ERR_port d).report (routerHalf r) 0x0A (routerIsland r)
  if 4 ≤ d then s1
  else
    let n := mget 0 (s.router r).dueCnt d + 1
    let s2 := (s1.setF (R.NOC_LINK r) (linkFld d 3) 1).updRouter r (fun x => { x with dueCnt := mset x.dueCnt d n })
    if max 1 (s.f (R.NOC_CTL r) F.NOC_CTL_due_lim) ≤ n ∧ linkUp s r d then s2.linkDown r d else s2

/-! ## One head flit (R272, R280, R286) -/

/-- What waits in a local unit enters a channel of its input while there is room (R37, R280). -/
def Router.refill (x : Router) (net inp vc : Nat) : Router :=
  let i := bufIx net inp vc
  (mget [] x.backlog i).foldl (fun x p => x.enter inp vc p) { x with backlog := mdel x.backlog i }

/-- The head of a buffer leaves it: a mesh input's flits are freed for the router that feeds it, a local input's for its unit. -/
def State.popHead (s : State) (r net d vc : Nat) (p : Pkt) : State :=
  let s1 := s.updRouter r (fun x => { x.setBuf net d vc ((x.buf net d vc).drop 1) with waited := mdel x.waited (bufIx net d vc), starved := mdel x.starved (bufIx net d vc) })
  if d < 4 then
    let u := neighbour r d
    let i := bufIx net (opposite d) vc
    s1.updRouter u (fun x => { x with freed := mset x.freed i (mget 0 x.freed i + flits p) })
  else s1.updRouter r (fun x => x.refill net d vc)

/-- The output and channel that a head takes: class D and the escape channel by X then Y; class A by the greatest number
of free credits, along x on a tie, in the freer of VC1 and VC2 (R286). None: the head is at its destination. -/
def chooseOut (s : State) (r net vc : Nat) (p : Pkt) : Nat × Nat :=
  let d := p.dst / 4
  if d = r then (4 + p.dst % 4, vc)
  else if vc = 0 ∨ vc = 3 then (xyOut r p.dst, vc)
  else
    let outs := avail (rx r) (ry r) (rx d) (ry d) (rx (p.src / 4))
    let free := fun o => freeOf s r net o 1 + freeOf s r net o 2
    let o := (argMax free outs).getD (xyOut r p.dst)
    (o, if freeOf s r net o 2 ≤ freeOf s r net o 1 then 1 else 2)

/-- Whether two requests to a memory controller wait for the same one of its queues (R309). -/
def sameQueue (p q : Pkt) : Bool := p.typ = q.typ && (p.typ = 0xD || p.clsA = q.clsA)

/-- The entries taken of the queue of a memory controller that a request needs (R309). -/
def queueTaken (x : Chan) (p : Pkt) : Nat := if p.typ = 0xD then x.wq.length else if p.clsA then x.aq.length else x.dq.length

/-- Whether the unit at a request's destination has room in its FIFO for it: a memory controller refuses a request whose queue of 32 is full
(R309, R588); the depth of any other unit's request FIFO is not stated, and the model gives it room (log 29). -/
def ejectRoom (s : State) (p : Pkt) : Bool :=
  match (if p.net = 0 then (List.range 8).find? (fun m => dramUnit m = p.dst) else none) with
  | none => true
  | some m => decide (queueTaken (mget {} s.chans m) p + ((s.inbox ++ s.halves).filter (fun q => q.net = 0 && q.dst = p.dst && sameQueue p q)).length < 32)

/-- Whether a head has the credit it needs at its output (R37, R280, R588). -/
def hasCredit (s : State) (r net o vc : Nat) (p : Pkt) : Bool := if 4 ≤ o then ejectRoom s p else decide (flits p ≤ freeOf s r net o vc)

/-- The inputs in the cyclic order of R280, starting after the one last granted. -/
def rrOrder (last : Option Nat) : List Nat :=
  match last with
  | none => List.range 7
  | some l => (List.range 7).map (fun i => (l + 1 + i) % 7)

/-- Whether the head of a buffer wants an output on its network and could go. -/
def wants (s : State) (r net o d vc : Nat) : Bool :=
  match ((s.router r).buf net d vc).head? with
  | none => false
  | some p =>
    let c := chooseOut s r net vc p
    c.1 = o && hasCredit s r net o c.2 p

/-- Index of a round-robin pointer: class D and class A have their own at each output of each network. -/
def rrIx (net o : Nat) (dcls : Bool) : Nat := net * 16 + 2 * o + (if dcls then 0 else 1)

/-- The input that an output grants among class D heads, else among the others (R280). -/
def granted (s : State) (r net o : Nat) : Option (Nat × Bool) :=
  let ptr := fun (dcls : Bool) => (s.router r).rr.find? (fun e => e.1 = rrIx net o dcls) |>.map (·.2)
  match (rrOrder (ptr true)).find? (fun d => wants s r net o d 0) with
  | some d => some (d, true)
  | none => ((rrOrder (ptr false)).find? (fun d => wants s r net o d 1 || wants s r net o d 2 || wants s r net o d 3)).map (·, false)

/-- A head that is not granted waits one more edge; a class D head that has no credit or waits longer than C_o is an
overrun, reported as fault 0x0D (R284, R285). -/
def State.headWaits (s : State) (r net d vc o : Nat) (noCredit : Bool) : State :=
  let i := bufIx net d vc
  let n := mget 0 (s.router r).waited i + 1
  let s1 := (s.updRouter r (fun x => { x with waited := mset x.waited i n })).pmuAdd (routerIsland r) (if vc = 0 then 7 else 8) 1
  if vc = 0 ∧ (noCredit ∨ inputsTo r o - 1 < n) then
    ((((s1.pmuAdd (routerIsland r) 0xD 1).setF (R.NOC_STAT r) F.NOC_STAT_d_over 1).setF (R.NOC_STAT r) F.NOC_STAT_d_port o).setF (R.NOC_STAT r) F.NOC_STAT_d_net net).report
      (routerHalf r) 0x0D (routerIsland r)
  else s1

/-- Whether a class A head finds no VC1 or VC2 credit on any output it may take (R287). -/
def starves (s : State) (r net : Nat) (p : Pkt) : Bool :=
  (avail (rx r) (ry r) (rx (p.dst / 4)) (ry (p.dst / 4)) (rx (p.src / 4))).all
    (fun o => decide (freeOf s r net o 1 < flits p) && decide (freeOf s r net o 2 < flits p))

/-- A class A head has waited an edge with no credit on any output it may take (R287). -/
def State.starve (s : State) (r net d vc : Nat) (p : Pkt) : State :=
  let i := bufIx net d vc
  if (vc = 1 || vc = 2) && p.dst / 4 ≠ r && starves s r net p then s.updRouter r (fun x => { x with starved := mset x.starved i (mget 0 x.starved i + 1) }) else s

/-- The bytes that a monitor counts for a flit (R557). -/
def flitBytes (net : Nat) : Nat := if net = 0 then 16 else if net = 3 then 64 else 8

/-- A packet is launched: into its unit, or into the next router's buffer. -/
def State.launch (s : State) (r net o vc : Nat) (p : Pkt) : State :=
  let s := ((s.pmuAdd (routerIsland r) net (flits p)).pmuAdd (routerIsland r) (if vc = 0 then 4 else 5) 1).passed 1 r o net 0 (flitBytes net * flits p)
  if 4 ≤ o then s.deliver p
  else
    let i := bufIx net o vc
    let n := neighbour r o
    let s1 := s.updRouter r (fun x => { x with used := mset x.used i (mget 0 x.used i + flits p), lastSent := mset x.lastSent (4 * o + net) s.ref })
    s1.updRouter n (fun x => { x.setBuf net (opposite o) vc (x.buf net (opposite o) vc ++ [p]) with lastWord := mset x.lastWord (opposite o) s.ref })

/-- A packet routed to a fenced output is discarded; a request is answered Fenced, as a class D packet (R293), but for a completion notice,
which opens no transaction that an answer could close. -/
def State.fenceOff (s : State) (r : Nat) (p : Pkt) : State :=
  let s := s.pmuAdd (routerIsland r) 0xC 1
  if p.net = 0 && !isNotice p then
    s.inject { net := 1, typ := 7, src := 4 * r, dst := p.src, clsA := false, closed := p.closed, tag := p.tag, tenant := p.tenant, pa := p.pa }
  else s

/-- What the check of a head finds (R288 to R290). -/
def headCheck (s : State) (r net d vc err : Nat) (p : Pkt) : State × Option Pkt :=
  if !linkUp s r d || err = 2 || reservedType p then ((s.popHead r net d vc p).meshError r net d, none)
  else if err = 3 then (s.meshError r net d, some { p with poison := true })
  else if err = 1 then ((s.incSat (R.NOC_ERR r) F.NOC_ERR_corr 1).pmuAdd (routerIsland r) 0xA 1, some p)
  else (s, some p)

/-- ROUTER_HEAD_FLIT (R43, R272, R280, R288 to R296): the head of an input's channel is checked (`err`: 1 a corrected
error, 2 an uncorrectable one in the head, 3 in the body), seen by the probes, decoded where its request enters the mesh,
routed, and launched when its output grants it. -/
def headFlit (r net d vc err : Nat) (s : State) : State :=
  match ((s.router r).buf net d vc).head? with
  | none => s
  | some p0 =>
    match headCheck s r net d vc err p0 with
    | (s, none) => s
    | (s, some p) =>
      let s := s.updRouter r (fun x => x.setBuf net d vc (p :: (x.buf net d vc).drop 1))
      let s := if mget 0 (s.router r).waited (bufIx net d vc) = 0 then s.probes r net d 0 p else s
      let write := p.typ = 8 || p.typ = 9 || p.typ = 0xB
      if decide (4 ≤ d) && net = 0 && decide (p.typ < 0xC) && !isNotice p && decodeFails (s.router r).map p.closed write p.pa then
        let s1 := s.popHead r net d vc p
        s1.deliver { net := 1, typ := 4, src := 4 * r, dst := p.src, clsA := p.clsA, closed := p.closed, tag := p.tag, tenant := p.tenant, pa := p.pa }
      else
        let c := chooseOut s r net vc p
        if fenced s r c.1 then (s.popHead r net d vc p).fenceOff r p
        else if !hasCredit s r net c.1 c.2 p then (s.starve r net d vc p).headWaits r net d vc c.1 (decide (c.1 < 4))
        else
          match granted s r net c.1 with
          | some (g, dcls) =>
            if g = d ∧ dcls = decide (vc = 0) then
              ((s.popHead r net d vc p).updRouter r (fun x => { x with rr := mset x.rr (rrIx net c.1 dcls) d })).probes r net c.1 1 p |>.launch r net c.1 c.2 p
            else s.headWaits r net d vc c.1 false
          | none => s.headWaits r net d vc c.1 false

/-- ROUTER_HEAD_FLIT (R272). -/
def execRouterHeadFlit (router net input vc err : Nat) (s : State) : Host.Outcome State Fault Refusal :=
  if net < 4 ∧ input < 7 ∧ vc < 4 then atRouter router s (headFlit router net input vc err) else .fault .noSuchUnit

/-- The group that owns a slot of a local port in the table in force (R283). -/
def slotGroup (s : State) (r port slot : Nat) : Option Nat :=
  let w := mget 0 (s.router r).slots slot
  if bit w (8 * port + 4) then some (fld w (8 * port) 4) else none

/-- SLOT_ADMISSION (R283): at a slot of the frame, once, the oldest waiting request of the group that owns it enters
VC0. -/
def slotAdmit (r port slot : Nat) (s : State) : State :=
  let now := 60 * s.ref + slot + 1
  let x := s.router r
  if now ≤ mget 0 x.admitted port then s
  else
    match slotGroup s r port slot with
    | none => s
    | some g =>
      let l := mget [] x.waiting port
      match l.find? (fun p => groupOf s r p.tenant p.closed = g) with
      | none => s
      | some p =>
        (s.pmuAdd (routerIsland r) 9 1).setRouter r { x.enter (4 + port) 0 p with
          waiting := mset x.waiting port (dropFirst (fun q => q = p) l), admitted := mset x.admitted port now }

/-- SLOT_ADMISSION (R283). -/
def execSlotAdmission (router port slot : Nat) (s : State) : Host.Outcome State Fault Refusal :=
  if port < 3 ∧ slot < 60 then atRouter router s (slotAdmit router port slot) else .fault .noSuchUnit

/-- Whether an output grants a class A head on its way to VC3: no class D head wants the output, and no other class A head stands before it in
the round-robin (R280, R287). -/
def escapeGranted (s : State) (r net o d : Nat) : Bool :=
  let ptr := s.router r |>.rr.find? (fun e => e.1 = rrIx net o false) |>.map (·.2)
  !(List.range 7).any (fun i => wants s r net o i 0) &&
  (rrOrder ptr).find? (fun i => i = d || wants s r net o i 1 || wants s r net o i 2 || wants s r net o i 3) = some d

/-- ESCAPE_CHANNEL_MOVE (R287): a class A head that has waited an edge with no VC1 or VC2 credit on any permitted output
goes to VC3 of the X-then-Y output, once that has the credit and grants it. -/
def escapeMove (r net d vc : Nat) (s : State) : State :=
  match ((s.router r).buf net d vc).head? with
  | none => s
  | some p =>
    let o := xyOut r p.dst
    if vc ≠ 1 ∧ vc ≠ 2 then s
    else if p.dst / 4 = r ∨ mget 0 (s.router r).starved (bufIx net d vc) = 0 then s
    else if !starves s r net p then s
    else if fenced s r o then (s.popHead r net d vc p).fenceOff r p
    else if !hasCredit s r net o 3 p then s
    else if escapeGranted s r net o d then
      ((((s.popHead r net d vc p).updRouter r (fun x => { x with rr := mset x.rr (rrIx net o false) d })).probes r net o 1 { p with esc := true }).pmuAdd (routerIsland r) 6 1).launch r net o 3
        { p with esc := true }
    else s.headWaits r net d vc o false

/-- ESCAPE_CHANNEL_MOVE (R287). -/
def execEscapeChannelMove (router net input vc : Nat) (s : State) : Host.Outcome State Fault Refusal :=
  if net < 4 ∧ input < 7 ∧ vc < 4 then atRouter router s (escapeMove router net input vc) else .fault .noSuchUnit

/-- CREDIT_RETURN (R37): the credits freed in the next router's buffer are usable again. -/
def creditReturn (r net o vc : Nat) (s : State) : State :=
  s.updRouter r (fun x =>
    let i := bufIx net o vc
    { x with used := mset x.used i (mget 0 x.used i - mget 0 x.freed i), freed := mdel x.freed i })

/-- CREDIT_RETURN (R37). -/
def execCreditReturn (router net output vc : Nat) (s : State) : Host.Outcome State Fault Refusal :=
  if net < 4 ∧ output < 4 ∧ vc < 4 then atRouter router s (creditReturn router net output vc) else .fault .noSuchUnit

/-- LINK_HEARTBEAT (R292): an output that has launched nothing on a network for 64 [router] edges, of which 60 make a
[ref] period, launches a heartbeat word. -/
def heartbeat (r o net : Nat) (s : State) : State :=
  if routerRuns s r && hasPort r o && decide (64 < 60 * (s.ref - mget 0 (s.router r).lastSent (4 * o + net) + 1)) then
    (s.updRouter r (fun x => { x with lastSent := mset x.lastSent (4 * o + net) s.ref })).updRouter (neighbour r o)
      (fun x => { x with lastWord := mset x.lastWord (opposite o) s.ref })
  else s

/-- LINK_HEARTBEAT (R292). -/
def execLinkHeartbeat (router output net : Nat) (s : State) : Host.Outcome State Fault Refusal :=
  if router < 30 ∧ output < 4 ∧ net < 4 then .next (heartbeat router output net s) else .fault .noSuchUnit

/-- LINK_SILENCE_TIMEOUT (R292): an input on which no word became usable for 256 [router] edges is declared down. -/
def linkSilence (r d : Nat) (s : State) : State :=
  if routerRuns s r && hasPort r d && linkUp s r d && decide (256 ≤ 60 * (s.ref - mget 0 (s.router r).lastWord d + 1)) then
    (s.setF (R.NOC_LINK r) (linkFld d 2) 1).linkDown r d
  else s

/-- LINK_SILENCE_TIMEOUT (R292). -/
def execLinkSilenceTimeout (router input : Nat) (s : State) : Host.Outcome State Fault Refusal :=
  if router < 30 ∧ input < 4 then .next (linkSilence router input s) else .fault .noSuchUnit

/-- LINK_FENCE (R293): a write sets an output's fence. -/
def execLinkFence (ag : Agent) (router output : Nat) (s : State) : Host.Outcome State Fault Refusal :=
  if router < 30 ∧ output < 4 then .next (regCmd .noc (R.NOC_LINK router) ag s (fun s => s.setF (R.NOC_LINK router) (linkFld output 1) 1))
  else .fault .noSuchUnit

/-- DSLOT_APPLY (R283): at the start of a frame the written slot table is in force. -/
def dslotApply (r : Nat) (s : State) : State :=
  s.updRouter r (fun x => { x with slots := (List.range 60).filterMap (fun i =>
    let w := s.reg (R.NOC_DSLOT r i)
    if w = 0 then none else some (i, w)) })

/-- DSLOT_APPLY (R283). -/
def execDslotApply (router : Nat) (s : State) : Host.Outcome State Fault Refusal := atRouter router s (dslotApply router)

/-- NOC_ERR_CLEAR (R298). -/
def nocErrClear (r : Nat) (s : State) : State :=
  let e := R.NOC_ERR r
  (((s.setF e F.NOC_ERR_corr 0).setF e F.NOC_ERR_uncorr 0).setF e F.NOC_ERR_net 0).setF e F.NOC_ERR_port 0

/-- NOC_ERR_CLEAR (R298). -/
def execNocErrClear (ag : Agent) (router : Nat) (s : State) : Host.Outcome State Fault Refusal :=
  atRouter router s (fun s => regCmd .noc (R.NOC_ERR router) ag s (nocErrClear router))

end Sys2Proof.Machine
end

