-- ==== Sys2Proof/Machine/Dram.lean ====
section
/-! DEFINITION. The LPDDR5X memory controllers: queues, batches, refresh, regulators, errors, the region table and
initialisation (R299 to R318). -/

namespace Sys2Proof.Machine

def State.chan (s : State) (m : Nat) : Chan := mget {} s.chans m
def State.setChan (s : State) (m : Nat) (x : Chan) : State := { s with chans := mset s.chans m x }
def State.updChan (s : State) (m : Nat) (f : Chan → Chan) : State := s.setChan m (f (s.chan m))

def dmcDone (s : State) (m : Nat) : Bool := s.on (R.DMC_INIT m) F.DMC_INIT_done

/-- The half of a channel. -/
def chanHalf (m : Nat) : Nat := if m < 4 then 0 else 1

/-- The island number of a memory controller (R510). -/
def chanIsland (m : Nat) : Nat := 190 + m

/-! ## The place of a line (R304 to R306) -/

/-- The lines that a region of a set and size in bytes contributes to a channel (R305). -/
def contribution (set size m : Nat) : Nat :=
  match set with
  | 0 => size / 512
  | 1 => if m < 4 then size / 256 else 0
  | _ => if m < 4 then 0 else size / 256

/-- The sum of the contributions to a channel of the regions before one at a start address (R305). -/
def linesBefore (l : List (Nat × Nat × Nat)) (start m : Nat) : Nat :=
  (l.filter (fun r => decide (r.1 < start))).foldl (fun n r => n + contribution r.2.2 r.2.1 m) 0

/-- The channel-local index of a line (R305). -/
def lineIndex (t : DecodeMap) (line m : Nat) : Nat :=
  match t.regions.find? (fun r => decide (r.1 ≤ 64 * line) && decide (64 * line < r.1 + r.2.1)) with
  | none => 0
  | some r => linesBefore t.regions r.1 m + (64 * line - r.1) / (if r.2.2 = 0 then 512 else 256)

/-- Rank × 16 + bank, and the row, of a channel-local line (R306). -/
def bankRow (x : Chan) (i : Nat) : Nat × Nat :=
  let r := if x.iecc then i / 56 else i / 64
  let w := r / 16
  ((w >>> x.rowBits) * 16 + (r % 16 ^^^ r / 16 % 16), w % 2 ^ x.rowBits)

/-- The bank and row of a line of a channel. -/
def placeOf (s : State) (m line : Nat) : Nat × Nat := bankRow (s.chan m) (lineIndex s.map line m)

/-- An access leaves its row open under page policy 1, closed under 0 (R311). -/
def State.touchRow (s : State) (m line : Nat) : State :=
  let p := placeOf s m line
  let hit := match (s.chan m).rows.find? (fun r => r.1 = p.1) with
    | some r => if r.2 = p.2 then 2 else 4
    | none => 3
  (s.pmuAdd (chanIsland m) hit 1).updChan m (fun x => { x with rows := if s.on (R.DMC_CTL m) F.DMC_CTL_page then mset x.rows p.1 p.2 else mdel x.rows p.1 })

/-! ## Accepting requests (R309, R310, R315) -/

/-- The regulator group of a request (R315). -/
def regGroup (s : State) (m : Nat) (p : Pkt) : Nat := s.f (R.DMC_TGRP m p.tenant) F.DMC_TGRP_grp

/-- Whether a group is regulated. -/
def regulated (s : State) (m g : Nat) : Bool := s.on (R.DMC_REG m g) F.DMC_REG_en

/-- A write enters the write queue, in place of an earlier write of its line, and is acknowledged. With inline ECC a
poisoned line keeps its mark; without, the mark is lost and reported (R310, R316). -/
def State.queueWrite (s : State) (m : Nat) (p : Pkt) : State :=
  let line := p.pa / 64
  let x := s.chan m
  let s1 := (s.updChan m (fun c => { c with wq := c.wq.filter (fun q => q.pa / 64 ≠ line) ++ [p] })).putLine line p.data (p.poison && x.iecc)
  let s2 := if p.poison && !x.iecc then (s1.setF (R.DMC_ERR m) F.DMC_ERR_poison_lost 1).report (chanHalf m) 0x10 (chanIsland m) else s1
  s2.reply p { net := 1, typ := 0, src := dramUnit m, dst := p.src, pa := p.pa }

/-- A request enters its queue. -/
def State.enterQueue (s : State) (m : Nat) (p : Pkt) : State :=
  if p.typ = 0xD then s.queueWrite m p
  else if p.clsA then s.updChan m (fun x => { x with aq := x.aq ++ [p] })
  else (s.pmuAdd (chanIsland m) 7 1).updChan m (fun x => { x with dq := x.dq ++ [p] })

/-- Whether the queue of a request has room. -/
def queueRoom (x : Chan) (p : Pkt) : Bool :=
  if p.typ = 0xD then decide (x.wq.length < 32) || x.wq.any (fun q => q.pa / 64 = p.pa / 64)
  else if p.clsA then decide (x.aq.length < 32) else decide (x.dq.length < 32)

/-- A request of a channel is accepted: one of a regulated group with no whole token, or behind another of its group,
waits in the regulator; one that finds its queue full is not accepted. -/
def dramAccept (m typ : Nat) (p : Pkt) (s : State) : State :=
  let x := s.chan m
  let g := regGroup s m p
  if p.net ≠ 0 ∨ p.typ ≠ typ ∨ !dmcDone s m ∨ !queueRoom x p then s
  else if regulated s m g then
    if 64 ≤ mget 0 x.tokens g ∧ !x.held.any (fun q => q.1 = g) then
      ((s.take p).updChan m (fun x => { x with tokens := mset x.tokens g (mget 0 x.tokens g - 64) })).enterQueue m p
    else (s.take p).updChan m (fun x => { x with held := x.held ++ [(g, p)] })
  else (s.take p).enterQueue m p

/-- DRAM_READ (R309). -/
def execDramRead (channel : Nat) (p : Pkt) (s : State) : Host.Outcome State Fault Refusal := atChan channel s (dramAccept channel 0xC p)
/-- DRAM_WRITE (R310). -/
def execDramWrite (channel : Nat) (p : Pkt) (s : State) : Host.Outcome State Fault Refusal := atChan channel s (dramAccept channel 0xD p)

/-- REGULATOR_ADMIT (R315): the oldest waiting request of a group takes a whole token, or needs none once its group is no
longer regulated, and enters its queue. -/
def regulatorAdmit (m g : Nat) (s : State) : State :=
  let x := s.chan m
  match x.held.find? (fun q => q.1 = g) with
  | none => s
  | some (_, p) =>
    let free := !regulated s m g
    if queueRoom x p && (free || decide (64 ≤ mget 0 x.tokens g)) then
      (s.setChan m { x with held := dropFirst (fun q => q = (g, p)) x.held,
                            tokens := if free then x.tokens else mset x.tokens g (mget 0 x.tokens g - 64) }).enterQueue m p
    else s

/-- REGULATOR_ADMIT (R315). -/
def execRegulatorAdmit (channel group : Nat) (s : State) : Host.Outcome State Fault Refusal := atChan channel s (regulatorAdmit channel group)

/-- Every regulated bucket of a channel gains its rate on a [ref] edge, up to its burst (R315). -/
def State.refill (s : State) (m : Nat) : State :=
  (List.range 16).foldl (fun s g =>
    if regulated s m g then
      let n := min (64 * s.f (R.DMC_REG m g) F.DMC_REG_burst) (mget 0 (s.chan m).tokens g + s.f (R.DMC_REG m g) F.DMC_REG_rate)
      s.updChan m (fun x => { x with tokens := mset x.tokens g n })
    else s) s

/-! ## Issue (R310 to R313, R316) -/

/-- The read that issues next: class D in arrival order, then class A page hits, then the oldest (R311). -/
def nextRead (s : State) (m : Nat) : Option Pkt :=
  let x := s.chan m
  match x.dq.head? with
  | some p => some p
  | none =>
    match x.aq.find? (fun p => let q := placeOf s m (p.pa / 64); x.rows.any (fun r => r = q)) with
    | some p => some p
    | none => x.aq.head?

/-- An uncorrectable read error is counted, recorded and reported (R303, R316). -/
def State.readError (s : State) (m pa : Nat) : State :=
  let s1 := (s.incSat (R.DMC_ERR m) F.DMC_ERR_iuncorr 1).report (chanHalf m) 0x0F (chanIsland m)
  if s1.on (R.DMC_ERRADDR m) F.DMC_ERRADDR_valid then s1
  else (s1.setF (R.DMC_ERRADDR m) F.DMC_ERRADDR_pa pa).setF (R.DMC_ERRADDR m) F.DMC_ERRADDR_valid 1

/-- What the checks make of a read: `err` 1 a single-bit error that the inline check corrects, 2 an uncorrectable one, 3
an error that link ECC corrects, 4 one it cannot; `flip` the bits that no check finds (R303, R316). The line, its poison
and the state after the counts. -/
def readChecks (s : State) (m : Nat) (p : Pkt) (err : Nat) (flip : Line) : State × Line × Bool :=
  let x := s.chan m
  let line := p.pa / 64
  let d := s.memLine line
  let marked := decide (line ∈ s.poison)
  let s1 := if x.lecc && err = 3 then s.incSat (R.DMC_ERR m) F.DMC_ERR_lcorr 1 else s
  if x.iecc && err = 1 then (((s1.pmuAdd (chanIsland m) 0xE 1).incSat (R.DMC_ERR m) F.DMC_ERR_icorr 1).updChan m (fun c =>
    if c.wq.any (fun q => q.pa / 64 = line) then c else { c with wq := c.wq ++ [{ p with typ := 0xD, data := d, mask := BitVec.allOnes 64 }] }), d, marked)
  else if (x.iecc && (err = 2 || err = 4)) || (!x.iecc && x.lecc && err = 4) then (s1.readError m p.pa, d, true)
  else (s1, if x.iecc then d else d ^^^ flip, marked)

/-- A deferred refresh of a bank is issued once the access it waited for is under way: the bank's row closes (R313). -/
def State.endDefer (s : State) (m bank : Nat) : State :=
  let n := ((s.chan m).deferred.filter (fun d => d.1 * 16 + d.2 = bank)).length
  (s.pmuAdd (chanIsland m) 5 n).updChan m (fun x =>
    if x.deferred.any (fun d => d.1 * 16 + d.2 = bank) then
      { x with deferred := x.deferred.filter (fun d => d.1 * 16 + d.2 ≠ bank), rows := mdel x.rows bank }
    else x)

/-- DRAM_READ_COMPLETE (R310 to R312, R316): a read whose line stands in the write queue is answered from it; else the
read that issues next is checked, and its line launched. -/
def readComplete (m : Nat) (p : Pkt) (err : Nat) (flip : Line) (s : State) : State :=
  let x := s.chan m
  let line := p.pa / 64
  let gone := s.setChan m { x with dq := dropFirst (fun q => q = p) x.dq, aq := dropFirst (fun q => q = p) x.aq }
  let send := fun (s : State) (d : Line) (poison : Bool) =>
    s.reply p { net := 3, typ := 0, src := dramUnit m, dst := p.src, pa := p.pa, size := 6, data := d, poison := poison }
  if !(x.dq.contains p || x.aq.contains p) then s
  else
    match x.wq.find? (fun q => q.pa / 64 = line) with
    | some w => send ((gone.endDefer m (placeOf s m line).1).pmuAdd (chanIsland m) 0xD 1) w.data (w.poison && x.iecc)
    | none =>
      if nextRead s m ≠ some p then s
      else
        let r := readChecks ((gone.pmuAdd (chanIsland m) 0 1).passed 2 m 0 0 0 64) m p err flip
        send ((r.1.touchRow m line).endDefer m (placeOf s m line).1) r.2.1 r.2.2

/-- DRAM_READ_COMPLETE (R312). -/
def execDramReadComplete (channel : Nat) (p : Pkt) (err : Nat) (flip : Line) (s : State) : Host.Outcome State Fault Refusal :=
  atChan channel s (readComplete channel p err flip)

/-- WRITE_BATCH_START (R310): with 16 writes queued, or no read waiting, a batch of wbatch lines is issued, and completes. -/
def writeBatch (m : Nat) (s : State) : State :=
  let x := s.chan m
  if x.wq ≠ [] ∧ (16 ≤ x.wq.length ∨ (x.dq = [] ∧ x.aq = [])) then
    let n := max 1 (s.f (R.DMC_CTL m) F.DMC_CTL_wbatch)
    (x.wq.take n).foldl (fun s p => ((s.pmuAdd (chanIsland m) 1 1).passed 2 m 0 0 1 64).touchRow m (p.pa / 64))
      ((s.pmuAdd (chanIsland m) 0xB 1).setChan m { x with wq := x.wq.drop n })
  else s

/-- WRITE_BATCH_START (R310). -/
def execWriteBatchStart (channel : Nat) (s : State) : Host.Outcome State Fault Refusal := atChan channel s (writeBatch channel)

/-- REFRESH_DUE (R313): the rank's next bank in rotation is refreshed, its row closed; the refresh is deferred while the
head of the class D queue waits for that bank. -/
def refreshDue (m rank : Nat) (s : State) : State :=
  let x := s.chan m
  if !dmcDone s m ∨ x.ranks ≤ rank then s
  else
    let b := mget 0 x.refBank rank
    let y := { x with refBank := mset x.refBank rank ((b + 1) % 16) }
    let waits := match x.dq.head? with
      | some p => decide ((placeOf s m (p.pa / 64)).1 = rank * 16 + b) && !x.wq.any (fun q => q.pa / 64 = p.pa / 64)
      | none => false
    (s.pmuAdd (chanIsland m) (if waits then 6 else 5) 1).setChan m (if waits then { y with deferred := y.deferred ++ [(rank, b)] } else { y with rows := mdel y.rows (rank * 16 + b) })

/-- REFRESH_DUE (R313). -/
def execRefreshDue (channel rank : Nat) (s : State) : Host.Outcome State Fault Refusal := atChan channel s (refreshDue channel rank)

/-- MR4_POLL (R303, R313): the refresh rate and the write-link errors that the devices report. -/
def mr4Poll (m rate errs : Nat) (s : State) : State :=
  if dmcDone s m then
    let s1 := s.setF (R.DMC_TIM2 m) F.DMC_TIM2_mult (min 2 rate)
    if (s.chan m).lecc then s1.incSat (R.DMC_ERR m) F.DMC_ERR_luncorr errs else s1
  else s

/-- MR4_POLL (R303). -/
def execMr4Poll (channel rate errs : Nat) (s : State) : Host.Outcome State Fault Refusal := atChan channel s (mr4Poll channel rate errs)

/-! ## The region table (R304, R307) -/

/-- The valid entries of the table as regions: start, size in bytes, set. -/
def regionsFrom (s : State) : Nat → Nat → List (Nat × Nat × Nat)
  | 0, _ => []
  | n + 1, start =>
    let a := R.DMC_REGION 0 (7 - n)
    if s.on a F.DMC_REGION_v then
      let size := s.f a F.DMC_REGION_size * 2 ^ 28
      (start, size, s.f a F.DMC_REGION_set) :: regionsFrom s n (start + size)
    else regionsFrom s n start

/-- The usable lines of a channel, U (R302). -/
def usable (x : Chan) : Nat := x.ranks * 16 * 2 ^ x.rowBits * (if x.iecc then 56 else 64)

/-- Whether a valid entry follows an invalid one. -/
def holeInTable (s : State) : Bool :=
  (List.range 7).any (fun i => !s.on (R.DMC_REGION 0 i) F.DMC_REGION_v && s.on (R.DMC_REGION 0 (i + 1)) F.DMC_REGION_v)

/-- Whether the table passes the checks of R307. -/
def tableOk (s : State) : Bool :=
  let l := regionsFrom s 8 0
  !holeInTable s && l.all (fun r => r.2.2 ≠ 3 && r.2.1 ≠ 0) &&
  (List.range 8).all (fun m => decide (l.foldl (fun n r => n + contribution r.2.2 r.2.1 m) 0 ≤ usable (s.chan m)) && dmcDone s m)

/-- REGION_COMMIT (R307): a table that passes is committed and sent to every holder; any other sets err. -/
def regionCommit (s : State) : State :=
  let c := R.DMC_REGCTL 0
  if s.on c F.DMC_REGCTL_commit then s
  else if tableOk s then
    let l := regionsFrom s 8 0
    { s.setF c F.DMC_REGCTL_commit 1 with map := { s.map with regions := l, populated := l.foldl (fun n r => n + r.2.1) 0 } }
  else s.setF c F.DMC_REGCTL_err 1

/-- REGION_COMMIT (R307). -/
def execRegionCommit (ag : Agent) (s : State) : Host.Outcome State Fault Refusal :=
  .next (regCmd .dmc (R.DMC_REGCTL 0) ag s regionCommit)

/-- REGION_TABLE_DONE (R307, R581): every holder has the committed table. -/
def regionDone (s : State) : State :=
  if s.on (R.DMC_REGCTL 0) F.DMC_REGCTL_commit && mapEverywhere s then s.setF (R.DMC_REGCTL 0) F.DMC_REGCTL_done 1 else s

/-- REGION_TABLE_DONE (R307). -/
def execRegionTableDone (s : State) : Host.Outcome State Fault Refusal := .next (regionDone s)

/-! ## Initialisation (R317) -/

/-- The check of step 1, with the condition of R313. -/
def initCheck (s : State) (m : Nat) : Bool :=
  let t0 := s.reg (R.DMC_TIM0 m)
  let t1 := s.reg (R.DMC_TIM1 m)
  let refi := s.f (R.DMC_TIM2 m) F.DMC_TIM2_trefi
  let rb := s.f (R.DMC_CFG m) F.DMC_CFG_row_bits
  let ranks := s.f (R.DMC_CFG m) F.DMC_CFG_ranks + 1
  decide (14 ≤ rb) && decide (rb ≤ 17) && decide (ranks * 2 ^ rb ≤ 131072) &&
  [fld t0 0 8, fld t0 8 8, fld t0 16 8, fld t0 24 8, fld t1 0 8, fld t1 8 8, fld t1 16 8, refi].all (· ≠ 0) &&
  decide (fld t1 16 8 + fld t1 0 8 < 16 * (refi / 4))

/-- A step fails: err with the step's number, and fault 0x11 (R317, R472). -/
def State.initFails (s : State) (m step : Nat) : State :=
  (((s.setF (R.DMC_INIT m) F.DMC_INIT_err 1).setF (R.DMC_INIT m) F.DMC_INIT_step step).updChan m (fun x => { x with initing := false })).report
    (chanHalf m) 0x11 (chanIsland m)

/-- DRAM_INIT_START (R317): a channel neither initialised, failed nor under way runs step 1, which reads its settings. -/
def initStart (m : Nat) (s : State) : State :=
  let a := R.DMC_INIT m
  if s.on a F.DMC_INIT_done || s.on a F.DMC_INIT_err || (s.chan m).initing then s
  else if !initCheck s m then s.initFails m 1
  else (s.setF a F.DMC_INIT_step 1).updChan m (fun x => { x with
    initing := true, rate := s.f (R.DMC_CFG m) F.DMC_CFG_rate, ranks := s.f (R.DMC_CFG m) F.DMC_CFG_ranks + 1, rowBits := s.f (R.DMC_CFG m) F.DMC_CFG_row_bits,
    iecc := s.on (R.DMC_CTL m) F.DMC_CTL_iecc, lecc := s.on (R.DMC_CTL m) F.DMC_CTL_lecc })

/-- DRAM_INIT_START (R317). -/
def execDramInitStart (ag : Agent) (channel : Nat) (s : State) : Host.Outcome State Fault Refusal :=
  atChan channel s (fun s => regCmd .dmc (R.DMC_INIT channel) ag s (initStart channel))

/-- The lines of a channel lose what they held: each of their bytes reads as unwritten memory does, which after step 10 of an
initialisation with inline ECC is the zero data that step wrote (R317, R498). -/
def State.wipeChannel (s : State) (m : Nat) : State :=
  let here := fun (line : Nat) => decide (64 * line < s.map.populated) && decide (channelOf s.map line = m)
  { s with mem := s.mem.filter (fun c => !here (c.1 / 64)), poison := s.poison.filter (fun l => !here l) }

/-- DRAM_INIT_END (R313, R317): steps 2 to 10 end, with the refresh rate of the first MR4 read, or step `fail` fails. -/
def initEnd (m fail mr4 : Nat) (s : State) : State :=
  if !(s.chan m).initing then s
  else if 2 ≤ fail ∧ fail ≤ 10 then s.initFails m fail
  else (((s.setF (R.DMC_INIT m) F.DMC_INIT_done 1).setF (R.DMC_INIT m) F.DMC_INIT_step 10).setF (R.DMC_TIM2 m) F.DMC_TIM2_mult (min 2 mr4)).updChan m
    (fun x => { x with initing := false, refBank := [], rows := [], deferred := [] })
    |>.wipeChannel m

/-- DRAM_INIT_END (R317). -/
def execDramInitEnd (channel fail mr4 : Nat) (s : State) : Host.Outcome State Fault Refusal := atChan channel s (initEnd channel fail mr4)

/-- DMC_ERR_CLEAR (R318). -/
def dmcErrClear (m : Nat) (s : State) : State :=
  let e := R.DMC_ERR m
  (((s.setF e F.DMC_ERR_icorr 0).setF e F.DMC_ERR_iuncorr 0).setF e F.DMC_ERR_lcorr 0).setF e F.DMC_ERR_luncorr 0

/-- DMC_ERR_CLEAR (R318). -/
def execDmcErrClear (ag : Agent) (channel : Nat) (s : State) : Host.Outcome State Fault Refusal :=
  atChan channel s (fun s => regCmd .dmc (R.DMC_ERR channel) ag s (dmcErrClear channel))

end Sys2Proof.Machine
end

