-- ==== Sys2Proof/Machine/Phys.lean ====
section
/-! DEFINITION. Physical memory as the security block reads and writes it, and values of the TRNG (R435, R456). -/

namespace Sys2Proof.Machine

/-- Whether an address is in the Closed SRAM (R438). -/
def inSram (pa : Nat) : Bool := decide (0xF8000100000 ≤ pa) && decide (pa < 0xF8000140000)

/-- Whether an access of a world may reach a byte: DRAM that does not decode as an error, or the Closed SRAM. -/
def physOk (s : State) (closed write : Bool) (pa : Nat) : Bool :=
  if inSram pa then closed else addrClass pa = .dram && !decodeFails s.map closed write pa

/-- Whether every byte of a range may be reached, line by line: the first and the last byte of each line. -/
def physRangeOk (s : State) (closed write : Bool) (pa n : Nat) : Bool :=
  n = 0 || (physOk s closed write pa && physOk s closed write (pa + n - 1) &&
    (List.range ((pa + n - 1) / 64 - pa / 64)).all (fun i => physOk s closed write ((pa / 64 + i + 1) * 64)))

/-- One byte of physical memory, coherent. -/
def physByte (s : State) (pa : Nat) : Byte :=
  if inSram pa then memGet s.mem pa else BitVec.ofNat 8 (cohRead s pa 1)

/-- `n` bytes of physical memory. -/
def physBytes (s : State) (pa : Nat) : Nat → List Byte
  | 0 => []
  | n + 1 => physByte s pa :: physBytes s (pa + 1) n

/-- Whether a line of a range is poisoned. -/
def physPoison (s : State) (pa n : Nat) : Bool :=
  n ≠ 0 && (List.range ((pa + n - 1) / 64 - pa / 64 + 1)).any (fun i => (cohLine s (pa / 64 + i)).2)

/-- Bytes written to physical memory, coherently and a line at a time; `n` bounds the lines. -/
def State.physWrite (s : State) (pa : Nat) (bs : List Byte) : Nat → State
  | 0 => s
  | n + 1 =>
    if bs = [] then s
    else
      let k := min (64 - pa % 64) bs.length
      let v := bytesNat (bs.take k)
      let s1 := if inSram pa then { s with mem := memWrite s.mem pa v k }
        else s.cohWrite (pa / 64) (setLineField 0 (pa % 64) k v) (byteMask (pa % 64) k)
      s1.physWrite (pa + k) (bs.drop k) n

/-- Bytes written to physical memory. -/
def State.physPut (s : State) (pa : Nat) (bs : List Byte) : State := s.physWrite pa bs (bs.length / 64 + 2)

/-- A number of 256 bits from the TRNG: a free value of the run. -/
def trng256 (s : State) : Nat :=
  ((List.range 4).map (fun i => (Config.freeWord (s.draws + i)).toNat * 2 ^ (64 * i))).sum

/-- The free values of one TRNG output are used up. -/
def State.drewTrng (s : State) : State := { s with draws := s.draws + 4 }

end Sys2Proof.Machine
end

