-- ==== Sys2Proof/Machine/Sched.lean ====
section
/-! DEFINITION. The cluster scheduler: threads, events, semaphores, selection, the bank switch, loads and frozen banks
(R157 to R169, R182 to R189, R481). -/

namespace Sys2Proof.Machine

/-- A command of one cluster. -/
def atCluster (cluster : Nat) (s : State) (f : State → State) : Host.Outcome State Fault Refusal :=
  atL2 cluster s f

/-- The threads of a cluster. -/
def allThreads : List Nat := List.range 256

/-! ## The thread table (R160, R481) -/

/-- Whether a thread entry is rejected (R160, R481). -/
def thrRejected (s : State) (k n : Nat) : Bool :=
  let core := thrCore s k n
  let fast := s.on (R.SCHED_THR_B k n) F.SCHED_THR_B_fast
  let ten := thrTenant s k n
  let half := clusterHalf k
  let h := tenantHalf s half ten
  let needPair := s.on (R.SAFE_CTL half) F.SAFE_CTL_lock && s.on (R.SAFE_TCLS half ten) F.SAFE_TCLS_pair
  (fast && !s.on (R.SCHED_CORE k (core % 8)) F.SCHED_CORE_fast_en)
    || (fast && allThreads.any (fun m => m ≠ n && thrState s k m ≠ 0 && thrCore s k m = core && s.on (R.SCHED_THR_B k m) F.SCHED_THR_B_fast))
    || s.f (R.SCHED_THR_A k n) F.SCHED_THR_A_folio = 0
    || (ten ≠ 0 && classS s half ten && h ≠ 2 && h ≠ half)
    || (needPair && !(core % 2 = 0 && (s.f (pairReg core) F.SAFE_PAIR_formed).testBit (core % 8 / 2)))

/-- A write of SCHED_THR_A.valid (R159, R160): 1 while OFF validates the entry, 0 while OFF or FROZEN turns the thread
OFF and discards its pending events; a write while OFF or FROZEN clears ferr (R189). -/
def thrValidate (k n : Nat) (valid : Bool) (s : State) : State :=
  let st := thrState s k n
  let clr := fun (s : State) => s.setF (R.SCHED_THR_B k n) F.SCHED_THR_B_ferr 0
  if valid then
    if st ≠ 0 then (if st = 6 then clr s else s)
    else if thrRejected s k n then (clr s).setF (R.SCHED_THR_A k n) F.SCHED_THR_A_valid 0
    else
      (((clr s).setF (R.SCHED_THR_A k n) F.SCHED_THR_A_valid 1).setThrState k n
        (if s.on (R.SCHED_THR_B k n) F.SCHED_THR_B_fast then 2 else 1)).wakeThread k n
  else if st = 0 || st = 6 then
    let h := (clusterHalf k, thrTenant s k n)
    { ((((clr s).setF (R.SCHED_THR_A k n) F.SCHED_THR_A_valid 0).setThrState k n 0).setF (R.SCHED_THR_B k n)
        F.SCHED_THR_B_pend 0).updCluster k (fun q => { q with held := q.held.filter (· ≠ n), parked := mdel q.parked n }) with
      faulted := if safeLevel s h.1 = 0 then s.faulted.filter (· ≠ h) else s.faulted }
  else s

/-- THREAD_VALIDATE (R160). -/
def execThreadValidate (cluster thread : Nat) (valid : Bool) (s : State) : Host.Outcome State Fault Refusal :=
  if thread < 256 then atL2 cluster s (thrValidate cluster thread valid) else .fault .noSuchUnit

/-! ## Events (R162, R163, R166) -/

/-- The event-table entries of a kind and source, as thread and bit; bits 14 and 15 are ignored (R162). -/
def bindings (s : State) (k kind source : Nat) : List (Nat × Nat) :=
  (List.range 512).filterMap (fun e =>
    let a := R.SCHED_EVT k e
    let src := s.f a F.SCHED_EVT_source
    let m := if kind = 0 then src else if kind = 1 then src % 1024 else src % 64
    if s.on a F.SCHED_EVT_valid && s.f a F.SCHED_EVT_kind = kind && m = source && decide (s.f a F.SCHED_EVT_bit < 14) then
      some (s.f a F.SCHED_EVT_thread, s.f a F.SCHED_EVT_bit)
    else none)

/-- Every binding of a source sets its bit. -/
def State.fireBindings (s : State) (k kind source : Nat) : State :=
  (bindings s k kind source).foldl (fun s b => s.raiseEvent k b.1 b.2) s

/-- A notice of a queue pair that has reached its cluster's router sets the bits bound to it, and is answered by nothing (R162, R355). -/
def notice (k tenant qp : Nat) (s : State) : State :=
  match s.inbox.find? (fun p => isNotice p && p.dst = clusterUnit k && p.tenant = tenant && p.tag = qp) with
  | none => s
  | some p => (s.take p).fireBindings k 0 (tenant * 8 + qp)

/-- COMPLETION_NOTICE (R162). -/
def execCompletionNotice (cluster tenant qp : Nat) (s : State) : Host.Outcome State Fault Refusal :=
  atCluster cluster s (notice cluster tenant qp)

/-- INTERRUPT_EVENT_LEVEL (R162, R329): on an edge on which the routed level is high. -/
def execInterruptEventLevel (cluster source : Nat) (s : State) : Host.Outcome State Fault Refusal :=
  atCluster cluster s (fun s => if (s.cluster cluster).levels.contains source then s.fireBindings cluster 1 source else s)

/-- SCHED_SEM_POST (R163): the count gains the value and stops at 65,535, which sets ovf. -/
def semPost (k j add : Nat) (s : State) : State :=
  let a := R.SCHED_SEM_CNT k (j / 8) (j % 8)
  let v := s.f a F.SCHED_SEM_CNT_count + add % 65536
  if 65535 < v then (s.setF a F.SCHED_SEM_CNT_count 65535).setF a F.SCHED_SEM_CNT_ovf 1 else s.setF a F.SCHED_SEM_CNT_count v

/-- SCHED_SEM_POST (R163). -/
def execSchedSemPost (cluster sem add : Nat) (s : State) : Host.Outcome State Fault Refusal :=
  if sem < 64 then atL2 cluster s (semPost cluster sem add) else .fault .noSuchUnit

/-- The threads that wait for a semaphore: bound to it, waiting, with the bound bit in the mask (R163). -/
def semWaiters (s : State) (k j : Nat) : List (Nat × Nat) :=
  (bindings s k 2 j).filter (fun b => (thrState s k b.1 = 1 || thrState s k b.1 = 3) && (thrMask s k b.1).testBit b.2)

/-- SEMAPHORE_TAKE (R163): one unit goes to the waiting thread of highest priority, among equals of lowest number. -/
def semTake (k j : Nat) (s : State) : State :=
  let a := R.SCHED_SEM_CNT k (j / 8) (j % 8)
  if s.f a F.SCHED_SEM_CNT_count = 0 then s
  else
    match argMin (fun b => (7 - thrPrio s k b.1) * 256 + b.1) (semWaiters s k j) with
    | none => s
    | some b => (s.setF a F.SCHED_SEM_CNT_count (s.f a F.SCHED_SEM_CNT_count - 1)).raiseEvent k b.1 b.2

/-- SEMAPHORE_TAKE (R163). -/
def execSemaphoreTake (cluster sem : Nat) (s : State) : Host.Outcome State Fault Refusal :=
  if sem < 64 then atL2 cluster s (semTake cluster sem) else .fault .noSuchUnit

/-- THREAD_TIMER_FIRE (R166): an armed timer whose deadline the time has reached sets bit 14, and is re-armed by its
period or disarmed. -/
def timerFire (k n : Nat) (s : State) : State :=
  let a := R.SCHED_THR_T k n
  let d := s.f a F.SCHED_THR_T_deadline
  if s.on a F.SCHED_THR_T_armed && decide ((s.ref + 2 ^ 40 - d) % 2 ^ 40 < 2 ^ 39) then
    let s1 := s.raiseEvent k n 14
    let p := s.f a F.SCHED_THR_T_period
    if p = 0 then s1.setF a F.SCHED_THR_T_armed 0 else s1.setF a F.SCHED_THR_T_deadline (d + p)
  else s

/-- THREAD_TIMER_FIRE (R166). -/
def execThreadTimerFire (cluster thread : Nat) (s : State) : Host.Outcome State Fault Refusal :=
  if thread < 256 then atL2 cluster s (timerFire cluster thread) else .fault .noSuchUnit

/-! ## Selection and the bank switch (R164, R165, R167, R168) -/

/-- The priority of the thread in a bank; a bank without a thread has the lowest. -/
def bankPrio (s : State) (c bi : Nat) : Nat :=
  match (s.bank c bi).thread with
  | some n => thrPrio s (clusterOf c) n
  | none => 0

/-- Whether the scheduler may select a bank: READY or RUN, not the fast bank, of a tenant that runs in the half (R157,
R167, R478). -/
def selectable (s : State) (c bi : Nat) : Bool :=
  let b := s.bank c bi
  (b.st = .ready || b.st = .run) && !b.psw.fast && tenantRuns s (clusterHalf (clusterOf c)) b.tenant

/-- The banks of a core in bank order after the one last switched in. -/
def bankOrder (last : Nat) : List Nat := (List.range 8).map (fun i => (last + 1 + i) % 8)

/-- The best READY bank: highest priority, first in bank order after the bank last switched in (R167). DESIGN CHOICE (log 77): before any
switch bank 7 counts as the one last switched in, so that bank 0 is first. -/
def bestReady (s : State) (c : Nat) : Option Nat :=
  let last := mget 7 (s.cluster (clusterOf c)).lastIn (c % 8)
  argMin (fun bi => 7 - bankPrio s c bi) ((bankOrder last).filter (fun bi => (s.bank c bi).st = .ready && selectable s c bi))

/-- The bank that should issue on a core: the RUN bank unless a READY bank has higher priority (R167). -/
def chosen (s : State) (c : Nat) : Option Nat :=
  match runBank (s.core c), bestReady s c with
  | some r, some q => if !selectable s c r || bankPrio s c r < bankPrio s c q then some q else some r
  | some r, none => if selectable s c r then some r else none
  | none, q => q

/-- The scheduler's decision for a core stands until its switch command is usable there. -/
def State.decide1 (s : State) (c : Nat) : State :=
  match chosen s c with
  | none => s
  | some q =>
    if runBank (s.core c) = some q then s.updCluster (clusterOf c) (fun k => { k with decide_ := mdel k.decide_ (c % 8) })
    else s.updCluster (clusterOf c) (fun k => { k with decide_ := mset k.decide_ (c % 8) q })

/-- SCHEDULER_DECISION (R167): for every core of the cluster; a RUN bank of a tenant that may not run leaves RUN (R478). -/
def schedDecision (k : Nat) (s : State) : State :=
  (clusterCores k).foldl (fun s c =>
    let s := match runBank (s.core c) with
      | some r =>
        if selectable s c r || bestReady s c ≠ none then s
        else
          let s := s.updBank c r (fun b => { b with st := .ready, resv := none })
          match (s.bank c r).thread with
          | some n => s.setThrState k n 4
          | none => s
      | none => s
    s.decide1 c) s

/-- SCHEDULER_DECISION (R167). -/
def execSchedulerDecision (cluster : Nat) (s : State) : Host.Outcome State Fault Refusal := atCluster cluster s (schedDecision cluster)

/-- QUANTUM_EXPIRY (R167): a RUN bank at entry depth 0 that has run for its quantum gives way to an equal-priority READY
bank. -/
def quantumExpiry (c : Nat) (s : State) : State :=
  let q := s.f (R.SCHED_CORE (clusterOf c) (c % 8)) F.SCHED_CORE_quantum
  match runBank (s.core c), bestReady s c with
  | some r, some n =>
    let b := s.bank c r
    if q ≠ 0 && decide (b.runSince + q ≤ s.ref) && b.depth = 0 && bankPrio s c r = bankPrio s c n then
      s.updCluster (clusterOf c) (fun k => { k with decide_ := mset k.decide_ (c % 8) n })
    else s
  | _, _ => s

/-- QUANTUM_EXPIRY (R167). -/
def execQuantumExpiry (core : Nat) (s : State) : Host.Outcome State Fault Refusal := atCore core s (quantumExpiry core)

/-- A thread's state follows its bank's. -/
def State.bankThread (s : State) (c bi st : Nat) : State :=
  match (s.bank c bi).thread with
  | some n => s.setThrState (clusterOf c) n st
  | none => s

/-- The events of a mask that are pending are consumed, and the bank's WAITEV completes with them in g1 (R164). -/
def State.completeWait (s : State) (c bi n m : Nat) : State :=
  let k := clusterOf c
  let v := thrPend s k n &&& m
  (s.setF (R.SCHED_THR_B k n) F.SCHED_THR_B_pend (thrPend s k n - v)).updBank c bi
    (fun b => { b.wphys 1 (BitVec.ofNat 64 v) with waitev := none, slept := none })

/-- A bank goes to WAIT with its wait mask (R164); its reservation goes (R105). -/
def State.sleepBank (s : State) (c bi m : Nat) : State :=
  (s.updBank c bi (fun b => { b with st := .wait, slept := some m, waitev := none, waitSince := s.ref, resv := none })).bankThread c bi 3

/-- Whether a bank that is to be switched in still waits: it left WAITEV for events that are pending no more. -/
def stillWaits (s : State) (c bi : Nat) : Bool :=
  match (s.bank c bi).slept, (s.bank c bi).thread with
  | some m, some n => thrPend s (clusterOf c) n &&& m = 0
  | _, _ => false

/-- A bank is switched in: it completes the WAITEV that it left (R164), and its first bundle issues 3 [core] after the command is usable
(R168). -/
def State.switchIn (s : State) (c bi : Nat) : State :=
  if stillWaits s c bi then (s.sleepBank c bi ((s.bank c bi).slept.getD 0)).updCluster (clusterOf c) (fun k => { k with decide_ := mdel k.decide_ (c % 8) })
  else
    let s1 := match (s.bank c bi).slept, (s.bank c bi).thread with
      | some m, some n => s.completeWait c bi n m
      | _, _ => s
    let e := (s.core c).cyc + 3
    ((s1.updBank c bi (fun b => { b with st := .run, runSince := s.ref, ready := max b.ready e, swIn := true })).bankThread c bi 5 |>.ev c bi 0x34 1).updCluster (clusterOf c)
      (fun k => { k with lastIn := mset k.lastIn (c % 8) bi, decide_ := mdel k.decide_ (c % 8) })

/-- The RUN bank of a core stops issuing and is READY; its reservation goes (R105, R168). -/
def State.switchOut (s : State) (c : Nat) : State :=
  match runBank (s.core c) with
  | none => s
  | some r => (s.updBank c r (fun b => { b with st := .ready, waitSince := s.ref, resv := none })).bankThread c r 4

/-- BANK_SWITCH (R168): the decision reaches the core; a core without a running clock, or with a folio sequence under way, keeps it
waiting (R184, R331). -/
def bankSwitch (c : Nat) (s : State) : State :=
  let k := s.cluster (clusterOf c)
  match k.decide_.find? (fun p => p.1 = c % 8) with
  | none => s
  | some (_, bi) =>
    if !coreClocked s c || pairBlocked s c || (s.core c).move.isSome then s
    else if (s.bank c bi).st = .ready then (s.switchOut c).switchIn c bi
    else s.updCluster (clusterOf c) (fun k => { k with decide_ := mdel k.decide_ (c % 8) })

/-- BANK_SWITCH (R168). -/
def execBankSwitch (core : Nat) (s : State) : Host.Outcome State Fault Refusal := atCore core s (bankSwitch core)

/-- A thread ends (R161): its bank is saved by the sequence of R184 without window spills; while another sequence has the core, the
answer waits. -/
def State.exitThread (s : State) (c bi n : Nat) : State :=
  let s1 := if bi = 7 && (s.bank c 7).psw.fast && (s.core c).fastRun then s.fastEnd c (s.core c).cyc else s
  if (s.core c).move.isSome then s
  else (s1.updBank c bi (fun b => { b with waitev := none })).startMove c { bank := bi, victim := some n, ends := true }

/-- The thread yields (R164, R167): it is READY, last of its priority in bank order, and the best READY bank that is not below it runs.
DESIGN CHOICE (log 78): so it is at entry depth 1 or more as well; R167 lets WAITEV end the RUN bank's hold and says of such a bank only that
no equal displaces it. -/
def State.yield_ (s : State) (c bi : Nat) : State :=
  let run := (s.bank c bi).st = .run
  let s1 := ((s.updBank c bi (fun b => { b with waitev := none })).updCluster (clusterOf c) (fun q => { q with lastIn := mset q.lastIn (c % 8) bi }))
  if !run then s1
  else
    let s2 := s1.switchOut c
    match bestReady s2 c with
    | some q => if bankPrio s c q < bankPrio s c bi then s2.switchIn c bi else s2.switchIn c q
    | none => s2.switchIn c bi

/-- The answer to the WAITEV of mask `m` of a bank's thread (R161, R164, R165). The fast bank, which the scheduler does not select, goes
on where it stands: its answer waits for an event of its mask (log 81). -/
def State.answerWait (s : State) (c bi n m : Nat) : State :=
  let k := clusterOf c
  let fast := (s.bank c bi).psw.fast
  let s := s.setF (R.SCHED_THR_B k n) F.SCHED_THR_B_wmask m
  let go := fun (s : State) => s.updBank c bi (fun b => { b with ready := max b.ready ((s.core c).cyc + 3) })
  if m = 0 then (if fast then go (s.updBank c bi (fun b => { b with waitev := none })) else s.yield_ c bi)
  else if m = 0xFFFF && decide (2 ≤ (s.bank c bi).psw.pl.toNat) then s.exitThread c bi n
  else if thrPend s k n &&& m ≠ 0 then go ((s.completeWait c bi n m).bankThread c bi (if (s.bank c bi).st = .run then 5 else 4))
  else if fast then s
  else (s.sleepBank c bi m).decide1 c

/-- WAITEV_ANSWER (R161, R164, R165): the thread yields, ends, completes with its pending events, or waits. -/
def waitevAnswer (c bi : Nat) (s : State) : State :=
  let b := s.bank c bi
  match b.waitev with
  | none => s
  | some m =>
    match b.thread with
    | none => s.updBank c bi (fun b => { b with waitev := none, ready := max b.ready ((s.core c).cyc + 3) })
    | some n => s.answerWait c bi n m

/-- WAITEV_ANSWER (R165). -/
def execWaitevAnswer (core bank : Nat) (s : State) : Host.Outcome State Fault Refusal := atBank core bank s (waitevAnswer core bank)

/-! ## Loads and evictions (R183, R184) -/

/-- Whether a bank may be a victim: at entry depth 0 with no entry accepted, its long operations ended, not the fast bank, not at world 1
(R183, R186; log 82). -/
def evictable (b : Bank) : Bool :=
  b.depth = 0 && b.entry.isNone && b.fly.all (fun f => f.kind ≠ .div && f.kind ≠ .dec && f.kind ≠ .fpLong) && !b.psw.fast && !b.psw.world

/-- The victim for a thread of a priority (R183): a WAIT bank of lowest priority that has waited longest; else a READY
bank of lowest, lower priority that has gone longest unselected; else the RUN bank if its priority is lower. DESIGN CHOICE (log 80): of two that
are equal in both the lower bank number is taken. -/
def victim (s : State) (c prio : Nat) : Option Nat :=
  let key := fun bi => bankPrio s c bi * 2 ^ 64 + (s.bank c bi).waitSince
  let of_ := fun (st : BankState) => (List.range 8).filter (fun bi => (s.bank c bi).st = st && evictable (s.bank c bi) && (s.bank c bi).thread.isSome)
  match argMin key (of_ .wait) with
  | some v => some v
  | none =>
    match argMin key ((of_ .ready).filter (fun bi => decide (bankPrio s c bi < prio))) with
    | some v => some v
    | none => ((of_ .run).filter (fun bi => decide (bankPrio s c bi < prio))).head?

/-- The READY-OUT threads of a core without a debug hold. -/
def outThreads (s : State) (c : Nat) : List Nat :=
  let k := clusterOf c
  allThreads.filter (fun n => thrState s k n = 2 && thrCore s k n = c && !(s.cluster k).held.contains n)

/-- The bank of a core that takes a thread: bank 7 for a fast thread; else an EMPTY bank. DESIGN CHOICE (log 79): of several the lowest. -/
def emptyBank (s : State) (c n : Nat) : Option Nat :=
  let fast := s.on (R.SCHED_THR_B (clusterOf c) n) F.SCHED_THR_B_fast
  (List.range 8).find? (fun bi => (s.bank c bi).st = .empty && (s.bank c bi).psw.fast = fast)

/-- The sequence that brings a thread into its core: into an EMPTY bank, or in place of a victim; a fast thread has no victim (R160,
R183). -/
def moveFor (s : State) (c n : Nat) : Option Move :=
  match emptyBank s c n with
  | some bi => some { bank := bi, next := some n, row := 2 }
  | none =>
    if s.on (R.SCHED_THR_B (clusterOf c) n) F.SCHED_THR_B_fast then none
    else (victim s c (thrPrio s (clusterOf c) n)).map (fun bi =>
      { bank := bi, victim := (s.bank c bi).thread, next := some n, w := (s.bank c bi).psw.wres - 1 })

/-- The thread that is loaded next: of those that have a place the highest priority, among equals the lowest number (R183). -/
def nextOut (s : State) (c : Nat) : Option Move :=
  let k := clusterOf c
  let cand := (outThreads s c).filter (fun n => (moveFor s c n).isSome)
  (argMin (fun n => (7 - thrPrio s k n) * 256 + n) cand).bind (fun n => moveFor s c n)

/-- After a sequence the scheduler decides anew; the bank it has loaded, where it is the one that should issue, is switched in at once
(R184). -/
def State.afterMove (s : State) (c bi : Nat) : State :=
  if (s.bank c bi).st = .ready && !(s.bank c bi).psw.fast && chosen s c = some bi then (s.switchOut c).switchIn c bi else s.decide1 c

/-- THREAD_LOAD (R183 to R188): the sequence under way on a core goes on by a row, or, with none, one starts for the next READY-OUT
thread that has a place. -/
def threadLoad (c : Nat) (s : State) : State :=
  match (s.core c).move with
  | some m =>
    let s1 := if coreClocked s c then moveStep s c else s
    if (s1.core c).move.isNone then s1.afterMove c m.bank else s1
  | none =>
    if !domOn s c || !coreClocked s c || pairBlocked s c then s
    else
      match nextOut s c with
      | none => s
      | some m => moveStep (s.startMove c m) c

/-- THREAD_LOAD (R184). -/
def execThreadLoad (core : Nat) (s : State) : Host.Outcome State Fault Refusal := atCore core s (threadLoad core)

/-- BANK_FREEZE (R182, R458): a frozen bank's current view is saved, its pending writes having ended, the state word saying frozen and windows lost; its
thread is FROZEN, the bank EMPTY, and the supervisor's event bit 15 set. -/
def bankFreeze (c bi : Nat) (s : State) : State :=
  let b := s.bank c bi
  if b.st ≠ .frozen then s
  else
    match b.thread with
    | none => (s.setBank c bi b.freed).decide1 c
    | some n =>
      if b.loads ≠ [] then s
      else
        let s1 := s.settle c bi
        let b := s1.bank c bi
        let r := thenRow (saveLow s1 c bi (BitVec.ofNat 64 (b.depth % 4 + 4 + (if b.psw.wres = 1 then 0 else 8)))) (fun s => saveHigh s c bi)
        (if r.2 then ((r.1.setBank c bi (r.1.bank c bi).freed).setThrState (clusterOf c) n 6).contextFault (clusterOf c) n
         else r.1.frozenThread c bi n).decide1 c

/-- BANK_FREEZE (R182). -/
def execBankFreeze (core bank : Nat) (s : State) : Host.Outcome State Fault Refusal := atBank core bank s (bankFreeze core bank)

/-- FAST_ENABLE_APPLY (R151, R157, R189): while bank 7 is EMPTY, it becomes or ceases to be the fast bank. -/
def fastApply (c : Nat) (s : State) : State :=
  let en := s.on (R.SCHED_CORE (clusterOf c) (c % 8)) F.SCHED_CORE_fast_en
  let b := s.bank c 7
  if b.st = .empty && b.psw.fast ≠ en && !(s.core c).move.any (fun m => m.bank = 7) then
    let s1 := s.setBank c 7 { b with psw := { b.psw with fast := en } }
    if en then s1.loadFastBuf c else s1.updCore c (fun k => { k with fastBuf := none })
  else s

/-- FAST_ENABLE_APPLY (R189). -/
def execFastEnableApply (core : Nat) (s : State) : Host.Outcome State Fault Refusal := atCore core s (fastApply core)

end Sys2Proof.Machine
end

