-- ==== Sys2Proof/Machine/Security.lean ====
section
/-! DEFINITION. The security block: carve-outs, measurement, the key store, attestation, crypto jobs, the TRNG, the
Closed-world watchdog and restart, and debug certificates (R436 to R441, R448 to R467). -/

namespace Sys2Proof.Machine

/-! ## Registers of the block -/

/-- A command of the SEC_CW_ block, reached only with world 1. -/
def cwCmd (a : Nat) (ag : Agent) (s : State) (f : State → State) : State := regCmd .seccw a ag s f

/-- Consecutive 64-bit registers as bytes, lowest first. -/
def regBytes (s : State) (a : Nat → Nat) (n : Nat) : List Byte :=
  (List.range n).flatMap (fun k => wordBytes 8 (s.reg (a k)).toNat)

/-- Bytes put into consecutive 64-bit registers. -/
def State.putRegs (s : State) (a : Nat → Nat) (bs : List Byte) (n : Nat) : State :=
  (List.range n).foldl (fun s k => s.setReg (a k) (BitVec.ofNat 64 (bytesNat (sub bs (8 * k) 8)))) s

/-- KSDATA words from `k`, `n` of them, as bytes. -/
def ksBytes (s : State) (k n : Nat) : List Byte := regBytes s (fun i => R.SEC_CW_KSDATA (k + i)) n

/-- KSDATA words from `k` as one number. -/
def ksNat (s : State) (k n : Nat) : Nat := bytesNat (ksBytes s k n)

/-! ## Measurement (R449) -/

def measBytes (s : State) (i : Nat) : List Byte := regBytes s (R.SEC_MEAS i) 4

/-- MEASi ← SM3(MEASi ‖ v). -/
def State.extend (s : State) (i : Nat) (v : List Byte) : State := s.putRegs (R.SEC_MEAS i) (sm3 (measBytes s i ++ v)) 4

/-- A write of SEC_CW_MREXT (R449): MEAS0 to MEAS7 after bootlock, and MEAS15, are refused with result 1. -/
def measExtend (i : Nat) (s : State) : State :=
  let i := i % 16
  let locked := s.on R.SEC_CW_CTL F.SEC_CW_CTL_bootlock
  let done := fun (s : State) (r : Nat) => s.setReg R.SEC_CW_MRSTAT (BitVec.ofNat 64 (1 + 4 * r))
  if (i < 8 ∧ locked) ∨ i = 15 then done s 1 else done (s.extend i (ksBytes s 0 4)) 0

/-- MEASUREMENT_EXTEND (R449). -/
def execMeasurementExtend (ag : Agent) (index : Nat) (s : State) : Host.Outcome State Fault Refusal :=
  .next (cwCmd R.SEC_CW_MREXT ag s (measExtend index))

/-! ## Keys derived from the device-unique secret (R451, R452) -/

/-- The device-unique secret as 32 bytes. -/
def dusBytes (s : State) : List Byte := beBytes 32 (s.sec.dus.getD 0)

/-- ASCII labels of R451. -/
def labelId : List Byte := [0x41, 0x5A, 0x31, 0x32, 0x38, 0x2D, 0x49, 0x44]
def labelAl : List Byte := [0x41, 0x5A, 0x31, 0x32, 0x38, 0x2D, 0x41, 0x4C]

/-- The private key that a derivation gives. -/
def privKey (z : List Byte) : Nat := beNat (kdf z) % (sm2N - 1) + 1

def idPriv (s : State) : Nat := privKey (dusBytes s ++ labelId)
def aliasPriv (s : State) : Nat := privKey (dusBytes s ++ labelAl ++ beBytes 32 s.sec.measHash)

/-- Whether the part is PROVISIONED. -/
def provisioned (s : State) : Bool := s.sec.life = 1

/-- The secret number of an SM2 signature: a free value from 1 to n − 1. -/
def sigNonce (s : State) : Nat := trng256 s % (sm2N - 1) + 1

/-- The alias certificate's first 168 bytes (R452). -/
def aliasBody (s : State) (idp alp : List Byte) : List Byte :=
  wordBytes 4 0x43494C41 ++ wordBytes 4 1 ++ idp ++ alp ++ beBytes 32 s.sec.measHash

/-- The key store derives both public keys and signs the alias certificate. -/
def State.deriveKeys (s : State) : State :=
  let idp := sm2Pub (idPriv s)
  let alp := sm2Pub (aliasPriv s)
  let body := aliasBody s idp alp
  let sig := sm2Sign (idPriv s) (sigNonce s) idp body
  ({ s with sec := { s.sec with idPub := beNat idp, aliasPub := beNat alp } }.drewTrng).putRegs R.SEC_ALIAS (body ++ sig) 29

/-- Carve-out 0 becomes the golden store of every holder of the map (R436). -/
def State.goldenStore (s : State) : State :=
  let g : Option (Nat × Nat) := if s.on (R.SEC_CW_CO 0) F.SEC_CW_CO_v then
    some (s.f (R.SEC_CW_CO 0) F.SEC_CW_CO_base * 2 ^ 24, s.f (R.SEC_CW_CO 0) F.SEC_CW_CO_size * 2 ^ 21) else none
  let put := fun (m : DecodeMap) => { m with golden := g }
  { s with map := put s.map,
           cores := s.cores.map (fun p => (p.1, { p.2 with map := put p.2.map })),
           routers := s.routers.map (fun p => (p.1, { p.2 with map := put p.2.map })),
           pcies := s.pcies.map (fun p => (p.1, { p.2 with map := put p.2.map })) }

/-- Setting SEC_CW_CTL.bootlock (R436, R449, R451): MEAS0 to MEAS7 freeze, their hash is kept, carve-out 0 is the golden
store, and in PROVISIONED the keys are derived. -/
def bootlock (s : State) : State :=
  if s.on R.SEC_CW_CTL F.SEC_CW_CTL_bootlock then s
  else
    let h := beNat (sm3 ((List.range 8).flatMap (measBytes s)))
    let s1 := ({ s with sec := { s.sec with measHash := h } }.setF R.SEC_CW_CTL F.SEC_CW_CTL_bootlock 1).goldenStore
    if provisioned s1 then s1.deriveKeys else s1

/-- BOOTLOCK_SET (R451). -/
def execBootlockSet (ag : Agent) (s : State) : Host.Outcome State Fault Refusal := .next (cwCmd R.SEC_CW_CTL ag s bootlock)

/-! ## Carve-outs (R436, R437, R581) -/

/-- The valid carve-outs as start and length. -/
def carveOuts (s : State) : List (Nat × Nat) :=
  (List.range 4).filterMap (fun k =>
    if s.on (R.SEC_CW_CO k) F.SEC_CW_CO_v then some (s.f (R.SEC_CW_CO k) F.SEC_CW_CO_base * 2 ^ 24, s.f (R.SEC_CW_CO k) F.SEC_CW_CO_size * 2 ^ 21)
    else none)

/-- Whether the valid carve-outs lie in half-local East regions of the committed table and do not overlap. -/
def carveOk (s : State) (l : List (Nat × Nat)) : Bool :=
  l.all (fun c => s.map.regions.any (fun r => r.2.2 = 2 && decide (r.1 ≤ c.1) && decide (c.1 + c.2 ≤ r.1 + r.2.1))) &&
  (List.range l.length).all (fun i => (List.range i).all (fun j =>
    match l[i]?, l[j]? with
    | some a, some b => decide (a.1 + a.2 ≤ b.1) || decide (b.1 + b.2 ≤ a.1)
    | _, _ => true))

/-- Once every holder has the map, a lock asked for reads 1. -/
def State.lockWhenHeld (s : State) : State :=
  if s.sec.lockReq && mapEverywhere s then
    { s with sec := { s.sec with lockReq := false } }.setF R.SEC_CW_COCTL F.SEC_CW_COCTL_lock 1
  else s

/-- A write of SEC_CW_COCTL.lock (R437): refused with err, or the carve-outs go into the map, which is sent to every
holder. -/
def carveLock (s : State) : State :=
  if s.on R.SEC_CW_COCTL F.SEC_CW_COCTL_lock || s.sec.lockReq then s
  else if carveOk s (carveOuts s) then
    { s with map := { s.map with carve := carveOuts s }, sec := { s.sec with lockReq := true } }.lockWhenHeld
  else s.setF R.SEC_CW_COCTL F.SEC_CW_COCTL_err 1

/-- CARVE_OUT_LOCK (R437). -/
def execCarveOutLock (ag : Agent) (s : State) : Host.Outcome State Fault Refusal := .next (cwCmd R.SEC_CW_COCTL ag s carveLock)

/-- DECODE_MAP_CHANGE (R581): the map reaches a holder; the last one lets the lock of the carve-outs take effect. -/
def execDecodeMapChange (target : Nat) (s : State) : Host.Outcome State Fault Refusal :=
  if target < 160 then .next (mapChange target s).lockWhenHeld else .fault .noSuchUnit

/-! ## The key store (R450, R453) -/

/-- SEC_CW_KSSTAT reports VALID with a result. -/
def State.ksResult (s : State) (r : Nat) : State := s.setReg R.SEC_CW_KSSTAT (BitVec.ofNat 64 (1 + 4 * r))

/-- An operation of the key store: refused with result 2, or done. -/
def ksOp (refused : Bool) (f : State → State) (s : State) : State := if refused then s.ksResult 2 else (f s).ksResult 0

/-- A delivery slot takes a key of 128 or 256 bits; its consumer stays (log 46). -/
def State.putKey (s : State) (slot key : Nat) (k256 : Bool) : State :=
  let x := mget {} s.sec.slots slot
  { s with sec := { s.sec with slots := mset s.sec.slots slot { x with key := key % 2 ^ (if k256 then 256 else 128) } } }

/-- SEC_CW_KSDATA is zeroed. -/
def State.clearKsData (s : State) : State := (List.range 16).foldl (fun s k => s.setReg (R.SEC_CW_KSDATA k) 0) s

def ksSlot (v : Word) : Nat := fld v 4 4
def ksConsumer (v : Word) : Nat := fld v 8 6

/-- Op 1 (R453): K(dus ‖ label), with mbind also ‖ H. -/
def deriveSlot (v : Word) (s : State) : State :=
  ksOp (!provisioned s) (fun s =>
    s.putKey (ksSlot v) (bytesNat (kdf (dusBytes s ++ ksBytes s 0 4 ++ (if bit v 14 then beBytes 32 s.sec.measHash else [])))) (bit v 15)) s

/-- DERIVE_INTO_SLOT (R453). -/
def execDeriveIntoSlot (ag : Agent) (v : Word) (s : State) : Host.Outcome State Fault Refusal := .next (cwCmd R.SEC_CW_KSCMD ag s (deriveSlot v))

/-- Op 2 (R453, R467): the key is loaded and KSDATA zeroed. -/
def loadSlot (v : Word) (s : State) : State := ksOp false (fun s => (s.putKey (ksSlot v) (ksNat s 0 4) (bit v 15)).clearKsData) s

/-- LOAD_KEY_INTO_SLOT (R453). -/
def execLoadKeyIntoSlot (ag : Agent) (v : Word) (s : State) : Host.Outcome State Fault Refusal := .next (cwCmd R.SEC_CW_KSCMD ag s (loadSlot v))

/-- Op 3 (R453): the slot is released to a consumer up to 43. -/
def releaseSlot (v : Word) (s : State) : State :=
  ksOp (decide (43 < ksConsumer v)) (fun s =>
    { s with sec := { s.sec with slots := mset s.sec.slots (ksSlot v) { mget {} s.sec.slots (ksSlot v) with consumer := some (ksConsumer v) } } }) s

/-- RELEASE_SLOT (R453). -/
def execReleaseSlot (ag : Agent) (v : Word) (s : State) : Host.Outcome State Fault Refusal := .next (cwCmd R.SEC_CW_KSCMD ag s (releaseSlot v))

/-- Op 4 (R453): key and consumer go. -/
def revokeSlot (v : Word) (s : State) : State := ksOp false (fun s => { s with sec := { s.sec with slots := mdel s.sec.slots (ksSlot v) } }) s

/-- REVOKE_SLOT (R453). -/
def execRevokeSlot (ag : Agent) (v : Word) (s : State) : Host.Outcome State Fault Refusal := .next (cwCmd R.SEC_CW_KSCMD ag s (revokeSlot v))

/-- The signed part of a report (R454). -/
def reportBody (s : State) : List Byte :=
  wordBytes 4 0x54535441 ++ wordBytes 2 1 ++ wordBytes 2 0xB1 ++ wordBytes 4 (s.sec.life + s.sec.ordering * 16 + grantBits s * 256)
    ++ wordBytes 4 (s.f R.SEC_RSTCNT F.SEC_RSTCNT_count) ++ wordBytes 4 s.sec.rollback ++ wordBytes 4 s.sec.version ++ wordBytes 8 (s.ref % 2 ^ 48)
    ++ ksBytes s 0 4 ++ ksBytes s 4 4 ++ (List.range 16).flatMap (measBytes s) ++ beBytes 64 s.sec.aliasPub

/-- Op 5 (R454): the report and its signature by the alias key are written to SEC_CW_KSDST. -/
def attest (s : State) : State :=
  ksOp (!provisioned s) (fun s =>
    let body := reportBody s
    let sig := sm2Sign (aliasPriv s) (sigNonce s) (beBytes 64 s.sec.aliasPub) body
    let dst := s.f R.SEC_CW_KSDST F.SEC_CW_KSDST_pa * 64
    if physRangeOk s true true dst 736 then s.drewTrng.physPut dst (body ++ sig) else s.drewTrng) s

/-- ATTEST (R454). -/
def execAttest (ag : Agent) (s : State) : Host.Outcome State Fault Refusal := .next (cwCmd R.SEC_CW_KSCMD ag s attest)

/-- A root slot's hash; 0 is unprogrammed. -/
def rootHash (s : State) (k : Nat) : Nat := mget 0 s.sec.roots k

/-- Op 6 (R453): root[k] is programmed once; a number above 3 names none (log 46). -/
def programRoot (v : Word) (s : State) : State :=
  let k := ksSlot v
  ksOp (rootHash s k ≠ 0 || decide (3 < k)) (fun s => { s with sec := { s.sec with roots := mset s.sec.roots k (beNat (ksBytes s 0 4)) } }) s

/-- PROGRAM_ROOT (R453). -/
def execProgramRoot (ag : Agent) (v : Word) (s : State) : Host.Outcome State Fault Refusal := .next (cwCmd R.SEC_CW_KSCMD ag s (programRoot v))

/-- Whether a root is programmed and unrevoked. -/
def rootLive (s : State) (k : Nat) : Bool := rootHash s k ≠ 0 && !s.sec.revoked.testBit k

/-- Op 7 (R453): root[k] is revoked while another live root remains. -/
def revokeRoot (v : Word) (s : State) : State :=
  let k := ksSlot v
  ksOp (decide (3 < k) || !(List.range 4).any (fun i => i ≠ k && rootLive s i)) (fun s => { s with sec := { s.sec with revoked := s.sec.revoked ||| 2 ^ k } }) s

/-- REVOKE_ROOT (R453). -/
def execRevokeRoot (ag : Agent) (v : Word) (s : State) : Host.Outcome State Fault Refusal := .next (cwCmd R.SEC_CW_KSCMD ag s (revokeRoot v))

def trngFailed (s : State) : Bool := s.on R.SEC_STAT F.SEC_STAT_trng_fail

/-- Op 8 (R450, R453, R465): dus from the TRNG; fuses once blown stay blown; every certificate grant is revoked. -/
def generateDus (s : State) : State :=
  ksOp (s.sec.life ≠ 0 || trngFailed s) (fun s =>
    { s.drewTrng with sec := { s.sec with dus := some (s.sec.dus.getD 0 ||| trng256 s), certGrants := 0 } }) s

/-- GENERATE_DUS (R453). -/
def execGenerateDus (ag : Agent) (s : State) : Host.Outcome State Fault Refusal := .next (cwCmd R.SEC_CW_KSCMD ag s generateDus)

/-- Op 9 (R453): BLANK with dus and a root becomes PROVISIONED. -/
def sealPart (s : State) : State :=
  ksOp (s.sec.life ≠ 0 || s.sec.dus.isNone || !(List.range 4).any (fun k => rootHash s k ≠ 0)) (fun s => { s with sec := { s.sec with life := 1 } }) s

/-- SEAL (R453). -/
def execSealKey (ag : Agent) (s : State) : Host.Outcome State Fault Refusal := .next (cwCmd R.SEC_CW_KSCMD ag s sealPart)

/-- Op 10 (R453): the counter advances to the value in KSDATA[0] (log 46). -/
def advanceRollback (s : State) : State :=
  let n := ksNat s 0 1
  ksOp (decide (n < s.sec.rollback) || decide (64 < n)) (fun s => { s with sec := { s.sec with rollback := n } }) s

/-- ADVANCE_ROLLBACK (R453). -/
def execAdvanceRollback (ag : Agent) (s : State) : Host.Outcome State Fault Refusal := .next (cwCmd R.SEC_CW_KSCMD ag s advanceRollback)

/-- Op 11 (R453): dbgkey from KSDATA[0–3] and dbgpol from KSDATA[4], once (log 46). -/
def programDebug (s : State) : State :=
  ksOp s.sec.dbgkey.isSome (fun s => { s with sec := { s.sec with dbgkey := some (beNat (ksBytes s 0 4)), dbgpol := ksNat s 4 1 % 256 } }) s

/-- PROGRAM_DEBUG_KEY (R453). -/
def execProgramDebugKey (ag : Agent) (s : State) : Host.Outcome State Fault Refusal := .next (cwCmd R.SEC_CW_KSCMD ag s programDebug)

/-- Op 12 (R453). -/
def decommission (s : State) : State := ksOp false (fun s => { s with sec := { s.sec with life := 2 } }) s

/-- DECOMMISSION (R453). -/
def execDecommission (ag : Agent) (s : State) : Host.Outcome State Fault Refusal := .next (cwCmd R.SEC_CW_KSCMD ag s decommission)

/-! ## Crypto jobs (R455 to R457) -/

/-- The key registers of a channel as numbers: the key, and the IV above it. -/
def jobKeyRegs (s : State) (j n o : Nat) : Nat := ((List.range n).map (fun i => (mget 0 s.sec.jobKey (12 * j + o + i)).toNat * 2 ^ (32 * i))).sum

/-- The delivery slot released to a job channel, the lowest where there are several (log 44). -/
def jobSlot (s : State) (j : Nat) : Option Nat := (s.sec.slots.find? (fun p => p.2.consumer = some (40 + j))).map (fun p => p.2.key)

/-- A job of a channel ends FAILED with a code. -/
def State.jobFails (s : State) (j code : Nat) : State :=
  { s with sec := { s.sec with jobs := mdel s.sec.jobs j } }.setReg (R.SEC_JOB_STAT j) (BitVec.ofNat 64 (3 + 16 * code))

/-- A job of a channel ends VALID. -/
def State.jobDone (s : State) (j : Nat) : State :=
  { s with sec := { s.sec with jobs := mdel s.sec.jobs j } }.setReg (R.SEC_JOB_STAT j) 1

/-- A write of SEC_JOB_CMD (R457): the job takes its inputs, the key registers are zeroed and the status is NOT_READY; a
job of the channel still under way is replaced (R375). -/
def jobStart (op j : Nat) (v : Word) (s : State) : State :=
  let k256 := bit v 5
  let ksrc := bit v 4
  let key := if ksrc then (jobSlot s j).getD 0 else jobKeyRegs s j (if k256 then 8 else 4) 0
  let x : Job := { op := op, k256 := k256, src := s.f (R.SEC_JOB_SRC j) F.SEC_JOB_SRC_pa, dst := s.f (R.SEC_JOB_DST j) F.SEC_JOB_DST_pa,
                   len := s.f (R.SEC_JOB_LEN j) F.SEC_JOB_LEN_len, key := key, iv := jobKeyRegs s j 4 8 }
  let keys := s.sec.jobKey.filter (fun p => p.1 / 12 ≠ j)
  let s1 := { s with sec := { s.sec with jobs := mset s.sec.jobs j x, jobKey := keys } }.setReg (R.SEC_JOB_STAT j) 0
  if op = 0 ∨ 7 < op then s1.jobFails j 5
  else if ksrc ∧ 2 ≤ op ∧ op ≤ 5 ∧ (jobSlot s j).isNone then s1.jobFails j 2
  else s1

/-- A command of a job channel. -/
def jobCmd (op : Nat) (ag : Agent) (j : Nat) (v : Word) (s : State) : Host.Outcome State Fault Refusal :=
  atUnit 4 j s (fun s => regCmd .sec (R.SEC_JOB_CMD j) ag s (jobStart op j v))

/-- SM3_JOB (R457). -/
def execSm3Job (ag : Agent) (chan : Nat) (v : Word) (s : State) : Host.Outcome State Fault Refusal := jobCmd 1 ag chan v s
/-- SM4_GCM_ENCRYPT (R457). -/
def execSm4GcmEncrypt (ag : Agent) (chan : Nat) (v : Word) (s : State) : Host.Outcome State Fault Refusal := jobCmd 2 ag chan v s
/-- SM4_GCM_DECRYPT (R457). -/
def execSm4GcmDecrypt (ag : Agent) (chan : Nat) (v : Word) (s : State) : Host.Outcome State Fault Refusal := jobCmd 3 ag chan v s
/-- AES_GCM_ENCRYPT (R457). -/
def execAesGcmEncrypt (ag : Agent) (chan : Nat) (v : Word) (s : State) : Host.Outcome State Fault Refusal := jobCmd 4 ag chan v s
/-- AES_GCM_DECRYPT (R457). -/
def execAesGcmDecrypt (ag : Agent) (chan : Nat) (v : Word) (s : State) : Host.Outcome State Fault Refusal := jobCmd 5 ag chan v s
/-- SM2_VERIFY (R457). -/
def execSm2Verify (ag : Agent) (chan : Nat) (v : Word) (s : State) : Host.Outcome State Fault Refusal := jobCmd 6 ag chan v s
/-- TRNG_JOB (R457). -/
def execTrngJob (ag : Agent) (chan : Nat) (v : Word) (s : State) : Host.Outcome State Fault Refusal := jobCmd 7 ag chan v s

/-- Whether a job's read of its input faults: an address it may not read, or poison. -/
def jobReadBad (s : State) (x : Job) : Bool := !physRangeOk s false false x.src x.len || physPoison s x.src x.len

/-- A job's end (R455 to R457): its digest, output and tag, verdict or random bits, or its failure. -/
def jobEnd (j : Nat) (x : Job) (s : State) : State :=
  if x.op = 7 then
    if trngFailed s then s.jobFails j 4
    else (s.drewTrng.putRegs (R.SEC_JOB_RES j) (wordBytes 32 (trng256 s)) 4).jobDone j
  else if jobReadBad s x then s.jobFails j 1
  else
    let input := physBytes s x.src x.len
    match x.op with
    | 1 => (s.putRegs (R.SEC_JOB_RES j) (sm3 input) 4).jobDone j
    | 6 => if Config.sm2JobGood x.key input then (s.setReg (R.SEC_JOB_RES j 0) 1).jobDone j else s.jobFails j 3
    | _ =>
      if !physRangeOk s false true x.dst x.len then s.jobFails j 1
      else if (x.op = 3 ∨ x.op = 5) ∧ !Config.gcmJobGood x.op x.k256 x.key x.iv input then s.jobFails j 3
      else
        let s1 := s.physPut x.dst ((List.range x.len).map (Config.gcmJobOut x.op x.k256 x.key x.iv input))
        if x.op = 2 ∨ x.op = 4 then (s1.putRegs (R.SEC_JOB_RES j) (wordBytes 16 (Config.gcmJobTag x.op x.k256 x.key x.iv input).toNat) 2).jobDone j
        else s1.jobDone j

/-- JOB_COMPLETE (R455): the job of a channel ends, while the crypto domain is ON. -/
def jobComplete (j : Nat) (s : State) : State :=
  match s.sec.jobs.find? (fun p => p.1 = j) with
  | none => s
  | some (_, x) => if domOn s 216 then jobEnd j x s else s

/-- JOB_COMPLETE (R455). -/
def execJobComplete (chan : Nat) (s : State) : Host.Outcome State Fault Refusal := atUnit 4 chan s (jobComplete chan)

/-! ## The TRNG (R456) -/

/-- TRNG_HEALTH_FAILURE (R456). -/
def execTrngHealthFailure (s : State) : Host.Outcome State Fault Refusal := .next (s.setF R.SEC_STAT F.SEC_STAT_trng_fail 1)

/-- TRNG_RESTART (R456): the failure is cleared when the start-up test passes. -/
def execTrngRestart (ag : Agent) (pass : Bool) (s : State) : Host.Outcome State Fault Refusal :=
  .next (cwCmd R.SEC_CW_CTL ag s (fun s => if pass then s.setF R.SEC_STAT F.SEC_STAT_trng_fail 0 else s))

/-! ## The Closed-world watchdog and triggers (R458) -/

/-- A write of SEC_CW_WDT: while armed the period keeps its value; arm with period 0 has no effect. -/
def wdtWrite (v : Word) (s : State) : State :=
  let a := R.SEC_CW_WDT
  if s.on a F.SEC_CW_WDT_arm then s
  else
    let s1 := s.setF a F.SEC_CW_WDT_period (fld v 0 24)
    if bit v 24 && fld v 0 24 ≠ 0 then
      { s1.setF a F.SEC_CW_WDT_arm 1 with sec := { s1.sec with wdtEnd := some (s.ref + fld v 0 24 * 256) } }
    else s1

/-- A kick of the armed watchdog restarts its period. -/
def wdtKick (s : State) : State :=
  if s.on R.SEC_CW_WDT F.SEC_CW_WDT_arm then
    { s with sec := { s.sec with wdtEnd := some (s.ref + s.f R.SEC_CW_WDT F.SEC_CW_WDT_period * 256) } }
  else s

/-- CW_WATCHDOG_ARM (R458). -/
def execCwWatchdogArm (ag : Agent) (v : Word) (s : State) : Host.Outcome State Fault Refusal :=
  .next (cwCmd R.SEC_CW_WDT ag s (fun s => wdtWrite (setBit v 24 true) (if bit v 25 then wdtKick s else s)))

/-- CW_WATCHDOG_KICK (R458). -/
def execCwWatchdogKick (ag : Agent) (v : Word) (s : State) : Host.Outcome State Fault Refusal :=
  .next (cwCmd R.SEC_CW_WDT ag s (fun s => wdtWrite v (wdtKick s)))

/-- CW_WATCHDOG_EXPIRY (R458). -/
def wdtExpiry (s : State) : State :=
  match s.sec.wdtEnd with
  | none => s
  | some e => if e ≤ s.ref then { s with sec := { s.sec with wdtEnd := none } }.cwTrigger else s

/-- CW_WATCHDOG_EXPIRY (R458). -/
def execCwWatchdogExpiry (s : State) : Host.Outcome State Fault Refusal := .next (wdtExpiry s)

/-- CW_RESTART_REQUEST (R458): SEC_CW_CTL.restart. -/
def execCwRestartRequest (ag : Agent) (s : State) : Host.Outcome State Fault Refusal := .next (cwCmd R.SEC_CW_CTL ag s State.cwTrigger)

/-- CW_RESTART (R458): SEC_CTL.cw_restart. -/
def execCwRestart (ag : Agent) (s : State) : Host.Outcome State Fault Refusal := .next (regCmd .sec R.SEC_CTL ag s State.cwTrigger)

/-! ## The restart of the Closed world (R226, R459, R460) -/

/-- The banks at world 1. -/
def closedBanks (s : State) : List (Nat × Nat) :=
  (List.range 128).flatMap (fun c => if domOn s c then ((List.range 8).filter (fun bi => (s.bank c bi).psw.world && (s.bank c bi).st ≠ .empty)).map (fun bi => (c, bi)) else [])

/-- What a forced return writes after the record is reloaded: BUSY in g1, zeros in g7 to g15, the kept and handed
registers of the trap window `w`, P0 to P3, QT, RM and the RW fields of DVS (R460). -/
def Bank.scrub (b : Bank) (w : Nat) : Bank :=
  let b1 := ((List.range 9).map (· + 7)).foldl (fun b i => b.wphys i 0) (b.wphys 1 busyWord)
  let b2 := (List.range 16).foldl (fun b i => (b.wphys (physK w i) 0).wphys (physH w i) 0) b1
  (List.range 7).foldl (fun b i => b.setM i 0) b2

/-- The forced return of a bank to the record of its Closed-entry latch; a bank that R68 would refuse to return, and one
without a latch, is frozen (R460). -/
def State.forcedReturn (s : State) (c bi : Nat) : State :=
  let b := s.bank c bi
  match b.closedEntry with
  | none => bankFreeze c bi (s.updBank c bi (fun b => { b with st := .frozen, entry := none, missing := false, fwait := none, stc := none }))
  | some (idx, folio, rsd) =>
    let s1 := (s.stopHeld c bi |>.loseBank c bi).settle c bi
    let b := s1.bank c bi
    let b0 := { b with folio := folio, depth := idx + 1, loads := [], bars := [], stc := none, isync := none, waitev := none, slept := none, fwait := none,
                       fsent := none, held := none, cons := none, entry := none, missing := false, fly := [] }
    match folioAt s1 c b0 (folio.toNat + 0x180 + 0x40 * idx) false with
    | none => bankFreeze c bi (s1.updBank c bi (fun b => { b with st := .frozen }))
    | some pa =>
      let ws := readWords s1 c bi pa 8
      let r := Psw.ofWord (ws.getD 0 0)
      if (rettExc b0 r).isSome || r.world then bankFreeze c bi (s1.updBank c bi (fun b => { b with st := .frozen }))
      else
        let t := (s1.core c).cyc
        let w := flushEdges (s1.core c)
        let b1 := (rettBank b0 ws (t + 9 + w)).scrub b.psw.wcur
        let b2 := { b1 with psw := { b1.psw with rsd := rsd }, closedEntry := none }
        ((s1.worldFlush c).setBank c bi b2).endNotice c bi

/-- Every Closed bank makes its forced return; one frozen already is saved and freed. -/
def State.forcedReturns (s : State) : State :=
  (closedBanks s).foldl (fun s p => if (s.bank p.1 p.2).st = .frozen then bankFreeze p.1 p.2 s else s.forcedReturn p.1 p.2) s

/-- Ways 14 and 15 of every L2 and slice go without writeback (step 3). -/
def State.dropClosedWays (s : State) : State :=
  let s1 := (List.range 16).foldl (fun s q => (((s.cluster q).l2.filter (fun x => decide (14 ≤ x.way))).map (·.line)).foldl (fun s l => s.l2Maint q 0 l) s) s
  (List.range 16).foldl (fun s k => (((s.slice k).lines.filter (fun x => decide (14 ≤ x.way))).map (·.line)).foldl (fun s l => s.sliceMaint k 0 l) s) s1

/-- The SEC_CW_ registers that step 4 returns to their Reset values: WDT, KSDST, KSDATA, the two status registers, err,
and TVBM and the carve-outs while they are not locked. -/
def State.resetClosedRegs (s : State) : State :=
  let s1 := ((((s.resetReg R.SEC_CW_WDT).resetReg R.SEC_CW_KSDST).resetReg R.SEC_CW_MRSTAT).resetReg R.SEC_CW_KSSTAT).setF R.SEC_CW_COCTL F.SEC_CW_COCTL_err 0
  let s2 := s1.clearKsData
  let s3 := if s2.on R.SEC_CW_CTL F.SEC_CW_CTL_tvbm_lock then s2 else s2.resetReg R.SEC_CW_TVBM
  let s4 := if s3.on R.SEC_CW_COCTL F.SEC_CW_COCTL_lock || s3.sec.lockReq then s3 else (List.range 4).foldl (fun s k => s.resetReg (R.SEC_CW_CO k)) s3
  { s4 with sec := { s4.sec with wdtEnd := none } }

/-- The Closed SRAM is zeroed. -/
def State.zeroSram (s : State) : State := { s with mem := s.mem.filter (fun c => !inSram c.1) }

/-- Steps 5 and 6: the golden monitor is copied and checked; with its hash as recorded the Closed world serves again,
else it has FAILED and fault 0x13 goes to both anchors. -/
def State.restoreMonitor (s : State) : State :=
  let n := s.f R.SEC_CW_GLEN F.SEC_CW_GLEN_len
  let dst := s.f R.SEC_CW_GDST F.SEC_CW_GDST_pa * 64
  let img := physBytes s (s.f (R.SEC_CW_CO 0) F.SEC_CW_CO_base * 2 ^ 24) n
  let h := sm3 img
  let s1 := s.physPut dst img
  if h = regBytes s1 R.SEC_CW_GOLD 4 then
    ((((s1.extend 15 h).setF R.SEC_RSTCNT F.SEC_RSTCNT_count (s1.f R.SEC_RSTCNT F.SEC_RSTCNT_count + 1)).setF R.SEC_CW_STAT F.SEC_CW_STAT_fresh 1).setF
      R.SEC_STAT F.SEC_STAT_cw_state 1)
  else ((s1.setF R.SEC_STAT F.SEC_STAT_cw_state 3).report 0 0x13 202).report 1 0x13 202

/-- The cores of the Closed banks. -/
def closedCores (s : State) : List Nat := (List.range 128).filter (fun c => (closedBanks s).any (fun p => p.1 = c))

/-- CLOSED_WORLD_RESTART (R459): while RESTARTING, the cores with Closed banks drain their write buffers, and once they
are drained and the pending writes of every Closed bank have ended steps 2 to 6 follow. -/
def closedRestart (s : State) : State :=
  if s.f R.SEC_STAT F.SEC_STAT_cw_state ≠ 2 then s
  else
    let cs := closedCores s
    if cs.all (fun c => (s.core c).wb = []) && (closedBanks s).all (fun p => ((s.bank p.1 p.2).loads = [] && (s.bank p.1 p.2).stc.isNone)) then
      let s1 := cs.foldl (fun s c => s.updCore c (fun k => { k with drain := none })) s.forcedReturns
      s1.dropClosedWays.zeroSram.resetClosedRegs.restoreMonitor
    else cs.foldl (fun s c => s.updCore c (fun k => { k with drain := some (k.drain.getD (s.ref + dtoOf s c)) })) s

/-- CLOSED_WORLD_RESTART (R459). -/
def execClosedWorldRestart (s : State) : Host.Outcome State Fault Refusal := .next (closedRestart s)

/-! ## Debug certificates (R463 to R465) -/

/-- A read of SEC_DBG_CHAL: a fresh challenge of 16 bytes, unless the TRNG has failed. -/
def challengeRead (s : State) : State :=
  if trngFailed s then s
  else
    let v := trng256 s
    let s1 := (List.range 4).foldl (fun s k => s.setReg (R.SEC_DBG_CHAL k) (BitVec.ofNat 64 (v / 2 ^ (32 * k) % 2 ^ 32))) s.drewTrng
    { s1 with sec := { s1.sec with chalFresh := true } }

/-- DEBUG_CHALLENGE_READ (R464). -/
def execDebugChallengeRead (s : State) : Host.Outcome State Fault Refusal := .next (challengeRead s)

/-- The certificate last written, 192 bytes. -/
def certBytes (s : State) : List Byte := (List.range 48).flatMap (fun k => wordBytes 4 (mget 0 s.sec.cert k).toNat)

/-- Whether a certificate passes the checks of R464. -/
def certGood (s : State) (c : List Byte) : Bool :=
  let signer := sub c 0x40 64
  bytesNat (sub c 0 4) = 0x47424544
    && sub c 8 32 = sm3 (beBytes 64 s.sec.idPub)
    && s.sec.chalFresh && sub c 0x28 16 = (List.range 4).flatMap (fun k => wordBytes 4 (s.reg (R.SEC_DBG_CHAL k)).toNat)
    && (match s.sec.dbgkey with
        | some h => h ≠ 0 && beNat (sm3 signer) = h
        | none => false)
    && sm2Verify signer (sub c 0 0x80) (sub c 0x80 64)

/-- A write of SEC_DBG_CMD.go: the challenge is consumed, and a good certificate grants each bit whose policy is 0. -/
def certCheck (s : State) : State :=
  let c := certBytes s
  let g := bytesNat (sub c 4 4) % 16
  let new := ((List.range 4).map (fun i => if g.testBit i && s.sec.dbgpol / 4 ^ i % 4 = 0 then 2 ^ i else 0)).sum
  let good := certGood s c
  { s with sec := { s.sec with chalFresh := false, certGrants := if good then s.sec.certGrants ||| new else s.sec.certGrants } }.setF
    R.SEC_DBG_STAT F.SEC_DBG_STAT_rstat (if good then 1 else 3)

/-- A command of the SEC_DBG_ registers, which the debug port may write. -/
def dbgRegCmd (a : Nat) (ag : Agent) (s : State) (f : State → State) : State := regCmd .sec a ag s f

/-- DEBUG_CERTIFICATE_CHECK (R464). -/
def execDebugCertificateCheck (ag : Agent) (s : State) : Host.Outcome State Fault Refusal := .next (dbgRegCmd R.SEC_DBG_CMD ag s certCheck)

/-- Every certificate grant goes. -/
def State.revokeGrants (s : State) : State := { s with sec := { s.sec with certGrants := 0 } }

/-- DEBUG_REVOKE (R465). -/
def execDebugRevoke (ag : Agent) (s : State) : Host.Outcome State Fault Refusal := .next (dbgRegCmd R.SEC_DBG_CTL ag s State.revokeGrants)

/-- DBG_REVOKE (R465): SEC_CW_CTL.dbg_revoke. -/
def execDbgRevoke (ag : Agent) (s : State) : Host.Outcome State Fault Refusal := .next (cwCmd R.SEC_CW_CTL ag s State.revokeGrants)

end Sys2Proof.Machine
end

