-- ==== Sys2Proof/Machine/Hub.lean ====
section
/-! DEFINITION. The management hub: power domains, clock islands, the VDD_CORE rail, idle gating, and what a domain's
reset makes of its unit (R494 to R508, R573). -/

namespace Sys2Proof.Machine

/-! ## Registers of a reset scope (R15, R494, R500) -/

/-- The domain that a register belongs to, if it has one (R494). The MMU_ fields other than MMU_DWL and MMU_INVS are
mirrored in the hub and belong to none (R500). -/
def regDomain (a : Nat) : Option Nat :=
  match findBlock a with
  | none => none
  | some b =>
    let j := (a - b.base) / 0x10000
    let o := (a - b.base) % 0x10000
    match b.kind with
    | .mmu => if o = 0x28 || o = 0x38 then some j else none
    | .sched => some (128 + j)
    | .cache => some (128 + j)
    | .dmc => some (160 + j)
    | .meqp => some (168 + j)
    | .meqt => some (168 + pipeOf j)
    | .eth => if o < 0x4000 then some (170 + j) else some (168 + j / 20)
    | .tsn => if o < 0x4000 then some (170 + j) else some (168 + j / 20)
    | .can => if o < 0x4000 then some (212 + j / 6) else some (168 + j / 12)
    | .lin => some (212 + j / 4)
    | .pcie => some (210 + j)
    | .trc => some 217
    | _ => none

/-- The resets that return a field: 0 any, 1 only cold and warm, 2 only cold and a power-down; an RWL field whose lock only cold and warm
chip reset clear is kept with its lock (R15, R500). -/
def fieldKeep (r : RegAt) (fd : FieldD) : Nat :=
  match fd.ty with
  | .rwl off b =>
    match findReg (r.base + off) with
    | some q => max fd.keep (((q.d.fields.find? (fun x => x.lo = b)).map (·.keep)).getD 0)
    | none => fd.keep
  | _ => fd.keep

/-- A register's value after a reset of a level: 0 of a domain or half, 1 warm, 2 cold, 3 a power-down, which returns every
field but what the hub mirrors (R240, R497, R500). SAFE_TIME runs on but at a cold reset (R511). -/
def resetWord (s : State) (lvl a : Nat) : Word :=
  match findReg a with
  | none => regReset a
  | some r =>
    if r.kind = .safe && r.off = 0x18 && decide (lvl < 2) then s.reg a
    else r.d.fields.foldl (fun v fd => if lvl < fieldKeep r fd || (lvl = 3 && fieldKeep r fd = 1) then setFld v fd.lo fd.w (fld (s.reg a) fd.lo fd.w) else v) (regReset a)

/-- The registers of a scope return to their reset values but for what the level keeps. -/
def State.resetRegs (s : State) (p : Nat → Bool) (lvl : Nat) : State :=
  { s with regs := s.regs.filterMap (fun q =>
      if p q.1 then (let v := resetWord s lvl q.1; if v = regReset q.1 then none else some (q.1, v)) else some q) }

/-! ## Flushes -/

/-- A core's L1D is cleaned and invalidated into its L2, and its L1I invalidated (R498, R506). -/
def State.l1Flush (s : State) (c : Nat) : State :=
  let k := s.core c
  let s1 := if l1dOn s c then s.updCluster (clusterOf c) (fun q => (k.l1d.filter (·.dirty)).foldl Cluster.takeBack q) else s
  s1.setCore c { k with l1i := [], l1d := [] }

/-- A written-back line stands at its home at once: in the slice's copy, else in DRAM (log 52). -/
def State.homeWrite (s : State) (x : CLine) : State :=
  let k := homeSlice s.map x.line
  match sliceLine s k x.line with
  | some y => s.updSlice k (fun q => { q with lines := q.lines.map (fun z => if z.line = x.line then { y with data := x.data, dirty := true, poison := x.poison } else z) })
  | none => s.putLine x.line x.data x.poison

/-- The directories forget a cluster, but for lines whose eviction is on its way. -/
def State.forgetCluster (s : State) (q : Nat) : State :=
  let out := (s.cluster q).evq.map (·.line)
  let one := fun (d : DirLine) => if out.contains d.line then d
    else { d with holders := d.holders.filter (· ≠ q), owner := if d.owner = some q then none else d.owner }
  { s with slices := s.slices.map (fun p => (p.1, { p.2 with dir := (p.2.dir.map one).filter (fun d => d.holders ≠ [] || d.poison) })) }

/-- The L2 of a cluster and its L1s are cleaned and invalidated, in one step (R269, R498, R512; log 52). -/
def State.flushCluster (s : State) (q : Nat) : State :=
  let s1 := (clusterCores q).foldl (fun s c => s.l1Flush c) s
  let s2 := if l2On s q then ((s1.cluster q).l2.filter (·.dirty)).foldl State.homeWrite s1 else s1
  (s2.updCluster q (fun y => { y with l2 := [] })).forgetCluster q

/-! ## Units at their reset -/

/-- The counters of an island return to 0 (R540). -/
def State.clearCounters (s : State) (island : Nat) : State :=
  { s with pmu := { s.pmu with cnt := s.pmu.cnt.filter (fun q => q.1 / 64 ≠ island), wraps := s.pmu.wraps.filter (fun k => k / 64 ≠ island) } }

/-- A core at its reset: every bank EMPTY with the values of R71, caches, predictor and translation caches empty, nothing
waiting at its cluster; its edge count runs on and it holds the decode map in force. -/
def State.resetCore (s : State) (c : Nat) : State :=
  let q := clusterOf c
  let k := s.core c
  let s0 := s.loseCore c
  let s1 := (s0.setCore c { cyc := k.cyc, idle := k.cyc, ahead := k.ahead, map := s.map }).setBank c 7 (bankReset s c 7)
  let s2 := s1.updCluster q (fun y => { y with
    mshr := y.mshr.map (fun m => { m with ports := m.ports.filter (fun p => p / 2 ≠ c % 8), wports := m.wports.filter (fun p => p / 2 ≠ c % 8) }),
    decide_ := mdel y.decide_ (c % 8), lastIn := mdel y.lastIn (c % 8) })
  let s3 := { s2 with invals := s2.invals.filter (fun i => i.by_ ≠ c),
                      hub := { s2.hub with slept := mdel s2.hub.slept c, tlbRec := s2.hub.tlbRec.filter (· ≠ c) },
                      icu := { s2.icu with wake := s2.icu.wake.filter (· ≠ c) } }
  ((s3.clearCounters c).setF (R.PWR_CORE c) F.PWR_CORE_asleep 0).resetRegs (fun a => regDomain a = some c) 0

/-- A cluster's scheduler and L2 at their reset: every thread OFF (R161), the caches empty, its transactions over; the snoops it holds are
still to be answered. -/
def State.resetCluster (s : State) (q : Nat) : State :=
  let y := s.cluster q
  ((s.loseUnit (clusterUnit q)).setCluster q { snoops := y.snoops, levels := y.levels }).resetRegs (fun a => regDomain a = some (128 + q)) 0

/-- A pipeline at its reset (R373, R416). -/
def State.resetPipe (s : State) (p : Nat) : State :=
  { s.loseUnit (pipeUnit p) with qps := s.qps.filter (fun x => pipeOf (x.1 / 8) ≠ p), bridges := mdel s.bridges p, gws := mdel s.gws p }

/-- The unit of a domain at its reset, with the fields of the domain (R497, R498). -/
def State.resetUnit (s : State) (d : Nat) : State :=
  if d < 128 then s.resetCore d
  else if d < 144 then s.resetCluster (d - 128)
  else
    let s1 :=
      if d < 160 then (s.loseUnit (sliceUnit (d - 144))).setSlice (d - 144) {}
      else if d < 168 then (s.clearCounters (30 + d)).setChan (d - 160) {}
      else if d < 170 then s.resetPipe (d - 168)
      else if d < 210 then { s with ports := mdel s.ports (d - 170) }
      else if d < 212 then (s.loseUnit (pcieUnit (d - 210))).setPcie (d - 210) { perstIn := (s.pcie (d - 210)).perstIn, map := s.map }
      else if d < 216 then { s with cans := s.cans.filter (fun x => canDom x.1 ≠ d), lins := s.lins.filter (fun x => linDom x.1 ≠ d) }
      else if d = 217 then { s.loseUnit ledgerUnit with ledger := {}, encs := [] }
      else s
    s1.resetRegs (fun a => regDomain a = some d) 0

/-! ## Requests for power domains (R461, R495, R496) -/

def domState (s : State) (d : Nat) : Nat := s.f (R.PWR_DOM d) F.PWR_DOM_state

/-- A request's status stands in its register; one that reads other than DONE is unread (R518). -/
def State.hubStatus (s : State) (a : Nat) (x : Fld) (v : Nat) : State :=
  let s1 := s.setF a x v
  let rest := s.hub.unread.filter (· ≠ a)
  { s1 with hub := { s1.hub with unread := if v = 0 || v = 1 then rest else a :: rest } }

/-- Whether the Closed world holds a domain, or an island (R461). -/
def cwHeld (s : State) (island : Bool) (n : Nat) : Bool :=
  (s.f (R.PWR_CWHOLD ((if island then 7 else 0) + n / 32)) F.PWR_CWHOLD_hold).testBit (n % 32)

/-- A refused cut is recorded in SEC_CW_DENY, or sets over (R461). -/
def State.deny (s : State) (island : Bool) (n : Nat) (ag : Agent) (reg : Nat) : State :=
  let a := R.SEC_CW_DENY
  if s.on a F.SEC_CW_DENY_valid then s.setF a F.SEC_CW_DENY_over 1
  else (((((s.setF a F.SEC_CW_DENY_target n).setF a F.SEC_CW_DENY_requester ag.router).setF a F.SEC_CW_DENY_tenant ag.tenant).setF a
    F.SEC_CW_DENY_reg reg).setF a F.SEC_CW_DENY_kind (if island then 1 else 0)).setF a F.SEC_CW_DENY_valid 1

/-- The island whose clock a domain's power-down stops, if it has one of its own (R494, R510). -/
def domIsland (d : Nat) : Option Nat :=
  if d < 160 then some d else if d < 168 then some (d + 30) else if d < 170 then some (d + 30) else if d = 217 then some 203 else none

/-- What of a power-down the Closed world holds: the domain, or the island it stops. -/
def heldTarget (s : State) (d : Nat) : Option (Bool × Nat) :=
  if cwHeld s false d then some (false, d)
  else match domIsland d with
    | some i => if cwHeld s true i then some (true, i) else none
    | none => none

/-- Whether a request breaks a dependency of R496. -/
def depBreaks (s : State) (d cmd : Nat) : Bool :=
  let off := fun (l : List Nat) => l.all (fun x => domState s x = 0)
  let regions := s.on (R.DMC_REGCTL 0) F.DMC_REGCTL_done
  if cmd = 1 then
    if d < 128 then !domOn s (128 + d / 8)
    else if 170 ≤ d ∧ d < 210 then !domOn s (168 + (d - 170) / 20)
    else if 212 ≤ d ∧ d < 216 then !domOn s (168 + (d - 212) / 2)
    else false
  else if d < 128 then s.on (R.SCHED_CORE (d / 8) (d % 8)) F.SCHED_CORE_fast_en
  else if d < 144 then !off (clusterCores (d - 128))
  else if d < 160 then regions
  else if d < 168 then cmd = 2 && regions
  else if d < 170 then !off ((List.range 20).map (170 + 20 * (d - 168) + ·) ++ [212 + 2 * (d - 168), 213 + 2 * (d - 168)])
  else if d = 216 then s.sec.jobs ≠ []
  else false

/-- Whether a core is of a formed or a faulted pair (R488). -/
def inPair (s : State) (c : Nat) : Bool :=
  (s.f (pairReg c) F.SAFE_PAIR_formed).testBit (c % 8 / 2) || (s.f (pairReg c) F.SAFE_PAIR_faulted).testBit (c % 8 / 2)

/-- A write of PWR_DOM.cmd (R495): the checks in their order, and then the sequence starts. A domain that is already in
the state asked for reads DONE (log 53). -/
def powerRequest (cmd : Nat) (ag : Agent) (d : Nat) (s : State) : State :=
  let a := R.PWR_DOM d
  let st := domState s d
  if s.hub.seqs.any (fun q => q.1 = d) then s.hubStatus a F.PWR_DOM_status 5
  else
    match (if cmd = 1 || ag.closed then none else heldTarget s d) with
    | some t => (s.deny t.1 t.2 ag a).hubStatus a F.PWR_DOM_status 2
    | none =>
      if depBreaks s d cmd then s.hubStatus a F.PWR_DOM_status 3
      else if d < 128 && inPair s d then s.hubStatus a F.PWR_DOM_status 4
      else if cmd = 3 && !(decide (160 ≤ d) && decide (d < 168)) then s.hubStatus a F.PWR_DOM_status 6
      else if (cmd = 1 && st = 2) || (cmd = 2 && st = 0) || (cmd = 3 && (st = 0 || st = 4)) then s.hubStatus a F.PWR_DOM_status 1
      else
        let s1 := (s.setF a F.PWR_DOM_state (if cmd = 1 then 1 else 3)).hubStatus a F.PWR_DOM_status 0
        { s1 with hub := { s1.hub with seqs := mset s1.hub.seqs d { cmd := cmd } } }

/-- A command of PWR_DOM. -/
def powerCmd (cmd : Nat) (ag : Agent) (d : Nat) (s : State) : Host.Outcome State Fault Refusal :=
  atUnit 218 d s (fun s => regCmd .pwr (R.PWR_DOM d) ag s (powerRequest cmd ag d))

/-- POWER_UP (R497). -/
def execPowerUp (ag : Agent) (domain : Nat) (s : State) : Host.Outcome State Fault Refusal := powerCmd 1 ag domain s
/-- POWER_DOWN (R498). -/
def execPowerDown (ag : Agent) (domain : Nat) (s : State) : Host.Outcome State Fault Refusal := powerCmd 2 ag domain s
/-- POWER_DOWN_RETENTION (R499). -/
def execPowerDownRetention (ag : Agent) (domain : Nat) (s : State) : Host.Outcome State Fault Refusal := powerCmd 3 ag domain s

/-! ## The voltage of a core (R502) -/

/-- V(mult) in steps of 10 mV above 0.65 V. -/
def vSteps (mult : Nat) : Nat := if mult ≤ 32 then 0 else if mult ≤ 48 then 5 else if mult ≤ 60 then 10 else if mult ≤ 70 then 15 else 20

/-- Whether a rail setting carries a multiplier: V + 50 mV does not exceed it. -/
def railCarries (cur mult : Nat) : Bool := decide (vSteps mult + 5 ≤ cur)

def railCur (s : State) : Nat := s.f R.PWR_RAIL F.PWR_RAIL_cur

/-! ## The end of a sequence (R497 to R499) -/

/-- The generator of a core locks at the multiplier stored, or at 16 with status RAIL (R503). -/
def State.startCoreClock (s : State) (c : Nat) : State :=
  let a := R.CLK_CORE c
  let m := s.f a F.CLK_CORE_mult
  if railCarries (railCur s) m then (s.setF a F.CLK_CORE_cur m).setF (R.PWR_CORE c) F.PWR_CORE_vreq (vSteps m)
  else ((s.setF a F.CLK_CORE_cur 16).setF (R.PWR_CORE c) F.PWR_CORE_vreq 0).hubStatus a F.CLK_CORE_status 3

/-- A sequence is over: the domain's state stands and status reads DONE. -/
def State.endSeq (s : State) (d st : Nat) : State :=
  let s1 := (s.setF (R.PWR_DOM d) F.PWR_DOM_state st).hubStatus (R.PWR_DOM d) F.PWR_DOM_status 1
  { s1 with hub := { s1.hub with seqs := mdel s1.hub.seqs d } }

/-- The lock bit of a domain's own generator. -/
def State.setLock (s : State) (d v : Nat) : State :=
  match domIsland d with
  | some i => s.setF (R.CLK_ISL i) F.CLK_ISL_locked v
  | none => s

/-- The domain is ON: its generator is locked, its unit as its reset left it with every field of the domain; a channel that was
retained has its saved state and fields (R497, R499). -/
def State.powerOn (s : State) (d : Nat) : State :=
  let s0 := if domState s d = 4 || (decide (160 ≤ d) && decide (d < 168)) then s else s.resetRegs (fun a => regDomain a = some d) 3
  let s1 := (s0.setLock d 1).endSeq d 2
  if d < 128 then ((s1.updCore d (fun k => { k with map := s1.map })).startCoreClock d).traceWake d
  else if d = 210 ∨ d = 211 then s1.updPcie (d - 210) (fun p => { p with map := s1.map })
  else s1

/-- The domain is OFF or RETAINED: its unit is reset with every field of the domain, but for a channel that keeps its trained state,
whose queued writes are issued. -/
def State.powerOff (s : State) (d cmd : Nat) : State :=
  let s1 := if cmd = 3 then s.updChan (d - 160) (fun x => { x with wq := [] })
    else (if d < 128 then (s.l1Flush d).traceSleep d 1 else if d < 144 then s.flushCluster (d - 128) else s).resetUnit d |>.resetRegs (fun a => regDomain a = some d) 3
  let s2 := if decide (160 ≤ d) && decide (d < 168) && decide (cmd ≠ 3) then s1.wipeChannel (d - 160) else s1
  (s2.setLock d 0).endSeq d (if cmd = 3 then 4 else 0)

/-- A folio sequence of a core runs to its end, as far as nothing holds it. -/
def State.runMove (s : State) (c : Nat) : State := moveRows s c 16

/-- Every resident bank of a core that may be a victim is evicted, with no priority test, one after the other (R498). -/
def State.evictAll (s : State) (c : Nat) : State :=
  (List.range 8).foldl (fun s bi =>
    let b := s.bank c bi
    if (s.core c).move.isSome || b.st = .empty || b.st = .frozen || b.thread.isNone || !evictable b then s
    else (s.startMove c { bank := bi, victim := b.thread, w := b.psw.wres - 1 }).runMove c) (s.runMove c)

/-- The core's work is stopped, its drain begun, and, once all is out, its domain is cut (R226, R498); while a bank or a sequence
waits, so does the cut. -/
def State.corePowerDown (s : State) (c : Nat) : State :=
  let s1 := s.evictAll c
  if (s1.core c).move.isSome || !(List.range 8).all (fun bi => (s1.bank c bi).st = .empty) then s1
  else if (s1.core c).wb = [] then s1.powerOff c 2
  else s1.updCore c (fun k => { k with drain := some (k.drain.getD (s1.ref + dtoOf s1 c)) })

/-- POWER_SEQUENCE_DONE (R495): the sequence of a domain runs to its end. -/
def sequenceDone (d : Nat) (s : State) : State :=
  match s.hub.seqs.find? (fun q => q.1 = d) with
  | none => s
  | some (_, q) => if q.cmd = 1 then s.powerOn d else if d < 128 then s.corePowerDown d else s.powerOff d q.cmd

/-- POWER_SEQUENCE_DONE (R495). -/
def execPowerSequenceDone (domain : Nat) (s : State) : Host.Outcome State Fault Refusal := atUnit 218 domain s (sequenceDone domain)

/-- RETENTION_WAKE (R499): a request that waits at the port of a retained channel counts as its power-up request. -/
def retentionWake (m : Nat) (s : State) : State :=
  if domState s (dramDom m) = 4 && s.inbox.any (fun p => p.dst = dramUnit m) && !s.hub.seqs.any (fun q => q.1 = dramDom m) then
    let s1 := s.setF (R.PWR_DOM (dramDom m)) F.PWR_DOM_state 1
    { s1 with hub := { s1.hub with seqs := mset s1.hub.seqs (dramDom m) { cmd := 1 } } }
  else s

/-- RETENTION_WAKE (R499). -/
def execRetentionWake (channel : Nat) (s : State) : Host.Outcome State Fault Refusal := atUnit 8 channel s (retentionWake channel)

/-! ## Core frequency (R503) -/

/-- A write of CLK_CORE.mult. -/
def freqChange (c v : Nat) (s : State) : State :=
  let a := R.CLK_CORE c
  if v < 16 ∨ 80 < v then s
  else if s.on a F.CLK_CORE_busy then s.hubStatus a F.CLK_CORE_status 5
  else if !powered s c then s.setF a F.CLK_CORE_mult v
  else if isChecker s c then s.hubStatus a F.CLK_CORE_status 4
  else if !railCarries (railCur s) v then s.hubStatus a F.CLK_CORE_status 3
  else ((s.setF a F.CLK_CORE_mult v).setF a F.CLK_CORE_busy 1).hubStatus a F.CLK_CORE_status 0

/-- CORE_FREQUENCY_CHANGE (R503). -/
def execCoreFrequencyChange (ag : Agent) (core mult : Nat) (s : State) : Host.Outcome State Fault Refusal :=
  atUnit 128 core s (fun s => regCmd .clk (R.CLK_CORE core) ag s (freqChange core (mult % 128)))

/-- A core's regulator setting and multiplier stand, and those of the checker of a formed pair with them (R489). -/
def State.setClock (s : State) (c v m : Nat) : State :=
  let one := fun (s : State) c => (s.setF (R.PWR_CORE c) F.PWR_CORE_vreq v).setF (R.CLK_CORE c) F.CLK_CORE_cur m
  if (s.f (pairReg c) F.SAFE_PAIR_formed).testBit (c % 8 / 2) then one (one s c) (c + 1) else one s c

/-- One [ref] edge of a change: a raise moves the regulator first, a lowering the generator first; on the edge after the
last step status reads DONE. -/
def freqStep (c : Nat) (s : State) : State :=
  let a := R.CLK_CORE c
  let v := s.f (R.PWR_CORE c) F.PWR_CORE_vreq
  let m := s.f a F.CLK_CORE_cur
  let t := s.f a F.CLK_CORE_mult
  if !s.on a F.CLK_CORE_busy then s
  else if v < vSteps t then s.setClock c (v + 1) m
  else if m < t then s.setClock c v (m + 1)
  else if t < m then s.setClock c v (m - 1)
  else if vSteps t < v then s.setClock c (v - 1) m
  else (s.setF a F.CLK_CORE_busy 0).hubStatus a F.CLK_CORE_status 1

/-- CORE_FREQUENCY_STEP (R503). -/
def execCoreFrequencyStep (core : Nat) (s : State) : Host.Outcome State Fault Refusal := atUnit 128 core s (freqStep core)

/-! ## The rail (R504, R573) -/

/-- A write of PWR_RAIL.vcore: refused with err below what a core that is ON needs, and above 25; lost while busy
(log 54). -/
def railChange (v : Nat) (s : State) : State :=
  let a := R.PWR_RAIL
  if s.on a F.PWR_RAIL_busy then s
  else if 25 < v ∨ (List.range 128).any (fun c => domOn s c && !railCarries v (s.f (R.CLK_CORE c) F.CLK_CORE_mult)) then s.setF a F.PWR_RAIL_err 1
  else
    let s1 := (s.setF a F.PWR_RAIL_vcore v).setF a F.PWR_RAIL_busy 1
    { s1 with hub := { s1.hub with rail := some (v, 0), ackAt := none } }

/-- RAIL_CHANGE (R504). -/
def execRailChange (ag : Agent) (vcore : Nat) (s : State) : Host.Outcome State Fault Refusal :=
  .next (regCmd .pwr R.PWR_RAIL ag s (railChange (vcore % 32)))

/-- PMIC_ANSWER (R573): the ACK starts the settling wait; the third NACK ends the change with err. -/
def pmicAnswer (ack : Bool) (s : State) : State :=
  match s.hub.rail with
  | none => s
  | some (v, n) =>
    if s.hub.ackAt.isSome then s
    else if ack then { s with hub := { s.hub with ackAt := some s.ref } }
    else if n < 2 then { s with hub := { s.hub with rail := some (v, n + 1) } }
    else { (s.setF R.PWR_RAIL F.PWR_RAIL_busy 0).setF R.PWR_RAIL F.PWR_RAIL_err 1 with hub := { s.hub with rail := none } }

/-- PMIC_ANSWER (R573). -/
def execPmicAnswer (ack : Bool) (s : State) : Host.Outcome State Fault Refusal := .next (pmicAnswer ack s)

/-- RAIL_SETTLED (R504): settle [ref] after the ACK cur is set and busy clears. -/
def railSettled (s : State) : State :=
  match s.hub.rail, s.hub.ackAt with
  | some (v, _), some t =>
    if t + s.f R.PWR_RAIL F.PWR_RAIL_settle ≤ s.ref then
      { (s.setF R.PWR_RAIL F.PWR_RAIL_cur v).setF R.PWR_RAIL F.PWR_RAIL_busy 0 with hub := { s.hub with rail := none, ackAt := none } }
    else s
  | _, _ => s

/-- RAIL_SETTLED (R504). -/
def execRailSettled (s : State) : Host.Outcome State Fault Refusal := .next (railSettled s)

/-! ## Clock gates and loss of lock (R501, R505) -/

/-- Whether an island has a gate: routers, anchors and the hub have none. -/
def gateable (i : Nat) : Bool := !(decide (160 ≤ i) && decide (i < 190)) && i ≠ 200 && i ≠ 201 && i ≠ 204

/-- A write of CLK_ISL.gate. -/
def clockGate (ag : Agent) (i : Nat) (gate : Bool) (s : State) : State :=
  let a := R.CLK_ISL i
  if !gateable i then s
  else if gate && !ag.closed && cwHeld s true i then (s.deny true i ag a).hubStatus a F.CLK_ISL_status 2
  else (s.setF a F.CLK_ISL_gate (if gate then 1 else 0)).hubStatus a F.CLK_ISL_status 1

/-- CLOCK_GATE (R505). -/
def execClockGate (ag : Agent) (island : Nat) (gate : Bool) (s : State) : Host.Outcome State Fault Refusal :=
  atUnit 205 island s (fun s => regCmd .clk (R.CLK_ISL island) ag s (clockGate ag island gate))

/-- LOSS_OF_LOCK (R501): the island's clock stops and lol is set; the fault report follows after 64 [ref]. -/
def lossOfLock (i : Nat) (s : State) : State :=
  let a := R.CLK_ISL i
  if !locked s i then s
  else
    let s1 := (s.setF a F.CLK_ISL_locked 0).setF a F.CLK_ISL_lol 1
    { s1 with hub := { s1.hub with lolAt := mset s1.hub.lolAt i s.ref } }

/-- LOSS_OF_LOCK (R501). -/
def execLossOfLock (island : Nat) (s : State) : Host.Outcome State Fault Refusal := atUnit 205 island s (lossOfLock island)

/-- The half of an island (R23, R510). -/
def islandHalf (i : Nat) : Nat :=
  if i < 128 then clusterHalf (i / 8) else if i < 144 then clusterHalf (i - 128) else if i < 160 then clusterHalf (i - 144)
  else if i < 190 then routerHalf (i - 160) else if i < 198 then (if i < 194 then 0 else 1)
  else if i = 198 ∨ i = 200 ∨ i = 204 then 0 else 1

/-- The losses of lock that 64 [ref] have passed since are reported: 0x08 of a core island, 0x09 of any other (R472,
R501). -/
def State.reportLocks (s : State) : State :=
  let due := s.hub.lolAt.filter (fun p => decide (p.2 + 64 ≤ s.ref))
  due.foldl (fun s p => s.report (islandHalf p.1) (if p.1 < 128 then 8 else 9) p.1)
    { s with hub := { s.hub with lolAt := s.hub.lolAt.filter (fun p => !decide (p.2 + 64 ≤ s.ref)) } }

/-! ## Idle gating (R506, R507) -/

/-- Whether nothing keeps a core awake. -/
def coreIdle (s : State) (c : Nat) : Bool :=
  let k := s.core c
  !k.fastRun && k.move.isNone && k.pres = [] && k.wb = [] && k.mshr = [] && k.imshr = [] && k.walkI.isNone && k.walkD.isNone &&
  (List.range 8).all (fun bi =>
    let b := k.bank bi
    b.st ≠ .run && b.st ≠ .ready && b.fly = [] && b.loads = [] && b.fwait.isNone)

/-- IDLE_SLEEP (R506): after idle_dly idle edges the L1s are flushed and the clock stops, unless a wake is asked for. -/
def idleSleep (c : Nat) (s : State) : State :=
  let a := R.PWR_CORE c
  if s.on a F.PWR_CORE_ig_en && coreIdle s c && decide ((s.core c).idle + max 1 (s.f a F.PWR_CORE_idle_dly) ≤ (s.core c).cyc) then
    let s1 := s.l1Flush c
    if s.icu.wake.contains c then { s1 with icu := { s1.icu with wake := s1.icu.wake.filter (· ≠ c) } }
    else
      let s2 := s1.traceSleep c 0
      { s2.setF a F.PWR_CORE_asleep 1 with hub := { s2.hub with slept := mset s2.hub.slept c s.ref } }
  else s

/-- IDLE_SLEEP (R506). -/
def execIdleSleep (core : Nat) (s : State) : Host.Outcome State Fault Refusal := atRunning 128 core (coreClocked s core) s (idleSleep core)

/-- CORE_WAKE (R506, R507): the clock gate opens for a wake request, and a recorded invalidation empties the core's TLBs
and walk caches; the core issues 4 [core] later. -/
def coreWake (c : Nat) (s : State) : State :=
  if s.on (R.PWR_CORE c) F.PWR_CORE_asleep && s.icu.wake.contains c then
    let s1 := if s.hub.tlbRec.contains c then s.updCore c (fun k => k.dropTr (fun _ => true) (fun _ => true) (fun _ => true) (fun _ => true)) else s
    let s2 := (s1.traceWake c).updCore c (fun k => { k with idle := k.cyc, banks := k.banks.map (fun p => (p.1, { p.2 with ready := max p.2.ready (k.cyc + 4) })) })
    { s2.setF (R.PWR_CORE c) F.PWR_CORE_asleep 0 with
      hub := { s2.hub with slept := mdel s2.hub.slept c, tlbRec := s2.hub.tlbRec.filter (· ≠ c) },
      icu := { s2.icu with wake := s2.icu.wake.filter (· ≠ c) } }
  else s

/-- CORE_WAKE (R507). -/
def execCoreWake (core : Nat) (s : State) : Host.Outcome State Fault Refusal := atRunning 128 core (unitRuns s core core) s (coreWake core)

/-! ## Reads of a status (R518) -/

/-- POWER_CLOCK_STATUS_READ (R518): the status at a register offset has been read. -/
def execPowerClockStatusRead (addr : Nat) (s : State) : Host.Outcome State Fault Refusal :=
  .next { s with hub := { s.hub with unread := s.hub.unread.filter (· ≠ addr) } }

end Sys2Proof.Machine
end

