-- ==== Sys2Proof/Machine/Reset.lean ====
section
/-! DEFINITION. Resets: their requests, the drain of write buffers before them, their record and their effect (R226,
R227, R373, R484, R511 to R515). -/

namespace Sys2Proof.Machine

/-! ## Entries abandoned by a drain (R226, R518) -/

/-- The kind by which RST_LOST names an entry; maintenance operations are no stores. -/
def WbKind.lostKind : WbKind → Option Nat
  | .dev => some 0
  | .nc => some 1
  | .normal => some 2
  | .stack => some 2
  | .clean => none
  | .inval => none

/-- An abandoned entry is counted, and recorded in the lowest free RST_LOST or by over. -/
def State.logLost (s : State) (e : WbEnt) : State :=
  match e.kind.lostKind with
  | none => s
  | some kd =>
    let s1 := s.incSat R.RST_LOSTN F.RST_LOSTN_count 1
    match (List.range 8).find? (fun k => !s.on (R.RST_LOST k) F.RST_LOST_valid) with
    | none => s1.setF R.RST_LOSTN F.RST_LOSTN_over 1
    | some k =>
      (((s1.setF (R.RST_LOST k) F.RST_LOST_pa e.pa).setF (R.RST_LOST k) F.RST_LOST_tenant e.tenant).setF (R.RST_LOST k)
        F.RST_LOST_kind kd).setF (R.RST_LOST k) F.RST_LOST_valid 1

/-- Every entry of a core's write buffer is abandoned. -/
def State.abandon (s : State) (c : Nat) : State :=
  let s1 := ((s.core c).wb.filter (fun e => e.sent)).foldl (fun s e => s.loseTag (clusterUnit (clusterOf c)) e.tag) s
  ((s.core c).wb.foldl State.logLost s1).updCore c (fun k => { k with wb := [] })

/-! ## What resets do -/

/-- act of every source routed to one of the cores is cleared (R333). -/
def State.clearAct (s : State) (p : Nat → Bool) : State :=
  { s with regs := s.regs.map (fun q =>
      let o := q.1 - R.ICU_SRC 0 0
      if decide (R.ICU_SRC 0 0 ≤ q.1) && decide (o < 0x11000) && decide (o % 0x10000 < 0x1000) && p (fld q.2 3 7) then (q.1, setBit q.2 29 false) else q) }

/-- A cluster reset (R512): its caches are cleaned and invalidated, then the cluster and its cores are at their reset. -/
def State.clusterReset (s : State) (q : Nat) : State :=
  let s1 := (s.flushCluster q).resetCluster q
  ((clusterCores q).foldl (fun s c => s.resetCore c) s1).clearAct (fun c => clusterOf c = q)

/-- The threads of a core's banks are FROZEN with ferr, and event bit 15 of their supervisors is set (R512). -/
def State.freezeThreads (s : State) (c : Nat) : State :=
  (List.range 8).foldl (fun s bi =>
    match (s.bank c bi).thread with
    | some n => ((s.setThrState (clusterOf c) n 6).setF (R.SCHED_THR_B (clusterOf c) n) F.SCHED_THR_B_ferr 1).contextFault (clusterOf c) n
    | none => s) s

/-- A core reset (R512). -/
def State.coreReset (s : State) (c : Nat) : State := (((s.l1Flush c).freezeThreads c).resetCore c).clearAct (fun d => d = c)

/-- A tenant reset (R514): in every cluster its threads are OFF and their banks EMPTY; its queue pairs abort; its
translations go. -/
def tenantReset (t : Nat) (s : State) : State :=
  let banks := s.cores.flatMap (fun p => (List.range 8).filterMap (fun bi =>
    let b := p.2.bank bi
    if b.st ≠ .empty && b.tenant = t then some (p.1, bi) else none))
  let s1 := banks.foldl (fun s p => (s.loseBank p.1 p.2).setBank p.1 p.2 (bankReset s p.1 p.2)) s
  let s2 := (List.range 16).foldl (fun s k => (allThreads.filter (fun n => thrState s k n ≠ 0 && thrTenant s k n = t)).foldl (fun s n =>
    (((s.setThrState k n 0).setF (R.SCHED_THR_A k n) F.SCHED_THR_A_valid 0).setF (R.SCHED_THR_B k n) F.SCHED_THR_B_pend 0).updCluster k
      (fun q => { q with parked := mdel q.parked n })) s) s1
  let s3 := (List.range 8).foldl (fun s q => abortQp t q s) s2
  let v : Word := BitVec.ofNat 64 (1 + 8 + 16 * t)
  (invTargets s3 0 v).foldl (fun s c => (s.invAt c v).1) s3

/-- The anchors right after a chip reset: FULL, with their clocks running on (R511). -/
def freshAnchors (s : State) : SMap Anchor :=
  (List.range 2).map (fun j => (j, { peerAt := s.f (R.SAFE_TIME j) F.SAFE_TIME_ticks, beatAt := s.f (R.SAFE_TIME j) F.SAFE_TIME_ticks }))

/-- The fuses (R450). -/
def Sec.fuses (x : Sec) : Sec :=
  { life := x.life, dus := x.dus, roots := x.roots, revoked := x.revoked, rollback := x.rollback, dbgkey := x.dbgkey, dbgpol := x.dbgpol, ordering := x.ordering }

/-- The start-up's registers put over those that a warm reset leaves; sticky fields beside them stand. -/
def overlay (m l : SMap Word) : SMap Word := l.foldl (fun m p => mset m p.1 (p.2 ||| mget 0 m p.1)) m

/-- What every chip reset keeps: fuses, levels at pins, the run's free values and the commands that wait. -/
def State.bootFrom (s : State) : State :=
  { State.reset with sec := s.sec.fuses, pcies := (List.range 2).map (fun j => (j, { perstIn := (s.pcie j).perstIn })),
                     icu := { pins := s.icu.pins }, draws := s.draws, pending := s.pending }

/-- A cold reset with its start-up (R511, R515). -/
def State.coldReset (s : State) : State := s.bootFrom

/-- A warm chip reset (R511, R513): only the boot set is ON, DRAM contents are lost, sticky fields, SAFE_TIME and the [ref]
count stand. -/
def State.warmReset (s : State) : State :=
  { s.bootFrom with regs := overlay (s.resetRegs (fun _ => true) 1).regs bootRegs, ref := s.ref, anchors := freshAnchors s }

/-- The domains of a half but for its DRAM channels (R23, R484). -/
def halfDomains (h : Nat) : List Nat :=
  ((List.range 16).filter (fun k => clusterHalf k = h)).map (144 + ·) ++ [168 + h] ++ (List.range 20).map (170 + 20 * h + ·)
    ++ [210 + h, 212 + 2 * h, 213 + 2 * h] ++ (if h = 1 then [217] else [])

/-- A router at its reset. -/
def State.resetRouter (s : State) (r : Nat) : State :=
  (s.clearCounters (160 + r)).setRouter r { map := s.map, lastWord := (List.range 4).map (fun d => (d, s.ref)) }

/-- The ports of a router that face the cut: the next buffers it has filled and its own input there (R484). -/
def State.resetCutPort (s : State) (r : Nat) : State :=
  let d := if rx r = 2 then 1 else 3
  let off := fun (q : Nat) => q % 32 / 4 ≠ d
  let s1 := s.updRouter r (fun x => { x with
    bufs := x.bufs.filter (fun q => off q.1), used := x.used.filter (fun q => off q.1), freed := x.freed.filter (fun q => off q.1),
    dueCnt := mdel x.dueCnt d, lastWord := mset x.lastWord d s.ref })
  s1.setF (R.NOC_LINK r) ⟨4 * d, 2⟩ 1

/-- The routers of a half, and its routers on the cut. -/
def halfRouters (h : Nat) : List Nat := (List.range 30).filter (fun r => routerHalf r = h)
def cutRouters (h : Nat) : List Nat := (List.range 30).filter (fun r => rx r = if h = 0 then 2 else 3)

/-- Registers of the unswitched logic of a half that a half reset returns: those of its routers, and of its distributor
(R333, R494). -/
def halfReg (h a : Nat) : Bool :=
  match findBlock a with
  | none => false
  | some b =>
    let j := (a - b.base) / 0x10000
    match b.kind with
    | .noc => routerHalf j = h
    | .icu => j = h
    | _ => false

/-- A half reset (R484): every switched domain of the half but its DRAM channels, its routers, its distributor and the
ports that face the cut from the other side. -/
def State.halfReset (s : State) (h : Nat) : State :=
  let s1 := ((List.range 16).filter (fun q => clusterHalf q = h)).foldl State.clusterReset s
  let s2 := (halfDomains h).foldl State.resetUnit s1
  let s3 := (halfRouters h).foldl State.resetRouter (s2.resetRegs (halfReg h) 0)
  let s4 := (cutRouters (1 - h)).foldl State.resetCutPort (if h = 1 then s3.loseUnit debugUnit else s3)
  let here := fun (u : Nat) => routerHalf (u / 4) = h
  { s4 with inbox := s4.inbox.filter (fun p => !here p.dst || (List.range 8).any (fun m => p.dst = dramUnit m)),
            dbg := if h = 1 then {} else s4.dbg }

/-! ## The record of a reset (R518) -/

/-- RST_REC and RST_RECT name a reset. -/
def State.recordReset (s : State) (r : RSeq) : State :=
  let a := R.RST_REC
  let s1 := ((((s.setF a F.RST_REC_cause r.cause).setF a F.RST_REC_src r.src).setF a F.RST_REC_world (if r.closed then 1 else 0)).setF a
    F.RST_REC_pl r.pl).setF a F.RST_REC_target r.target
  let s2 := if r.cause = 1 ∨ r.cause = 2 then s1.incSat a F.RST_REC_warm_cnt 1
    else if r.cause = 3 ∨ r.cause = 4 then s1.incSat a F.RST_REC_half_cnt 1 else s1
  s2.setReg R.RST_RECT (BitVec.ofNat 64 (s.ref % 2 ^ 48))

/-- RST_CMDSTAT reports a state and a result (R375, R518). -/
def State.rstStat (s : State) (st res : Nat) : State := s.setReg R.RST_CMDSTAT (BitVec.ofNat 64 (st + 4 * res))

/-- A pair's command after both its cores left reset: a form waits 64 [core] from here, a dissolve is done (R489). -/
def State.pairAfterReset (s : State) (c : Nat) : State :=
  let a := pairReg c
  let k := c % 8 / 2
  let i := clusterOf c * 4 + k
  match s.hub.pairs.find? (fun p => p.1 = i) with
  | none => s
  | some (_, cmd, _) =>
    if cmd = 1 then { s with hub := { s.hub with pairs := mset s.hub.pairs i (3, (s.core c).cyc) } }
    else
      let drop := fun (v : Nat) => v - (if v.testBit k then 2 ^ k else 0)
      let s1 := ((s.setF a F.SAFE_PAIR_formed (drop (s.f a F.SAFE_PAIR_formed))).setF a F.SAFE_PAIR_faulted (drop (s.f a F.SAFE_PAIR_faulted))).setF a F.SAFE_PAIR_rstat 1
      { s1 with hub := { s1.hub with pairs := mdel s1.hub.pairs i } }

/-- The cut and the inter-distributor link are fenced no more (R484). -/
def State.releaseCut (s : State) : State :=
  let s1 := (cutRouters 0 ++ cutRouters 1).foldl (fun s r => s.updRouter r (fun x => { x with anchorFence := [] })) s
  (List.range 2).foldl (fun s j => (s.setF (R.SAFE_STAT j) F.SAFE_STAT_cutfence 0).setF (R.ICU_STAT j) F.ICU_STAT_xfence 0) s1

/-- After the half reset of a rejoin both anchors release the cut, and the staying one waits for its links (R484). -/
def State.rejoinRelease (s : State) (h : Nat) : State :=
  let x := mget {} s.anchors h
  match x.rejoin with
  | some _ => { s.releaseCut with anchors := mset s.anchors h { x with rejoin := some (2, s.f (R.SAFE_TIME h) F.SAFE_TIME_ticks) } }
  | none => s

/-- The effect of a reset once its drain is over, with its record; cause 9 is the hold of SAFE-STATE, which no record
names (R477). -/
def State.performReset (s : State) (r : RSeq) : State :=
  match r.cause with
  | 1 => s.warmReset.recordReset r
  | 2 => s.warmReset.recordReset r
  | 3 => ((s.recordReset r).halfReset 0).rejoinRelease 1
  | 4 => ((s.recordReset r).halfReset 1).rejoinRelease 0
  | 9 => ((List.range 16).filter (fun q => clusterHalf q = r.target)).foldl State.clusterReset s
  | 5 => ((s.recordReset r).clusterReset r.target).rstStat 1 0
  | 6 => ((s.recordReset r).coreReset r.target).rstStat 1 0
  | 7 => (s.recordReset r).coreReset r.target
  | _ => (((s.recordReset r).coreReset r.target).coreReset (r.target + 1)).pairAfterReset r.target

/-- The cores that a reset drains. -/
def RSeq.cores (r : RSeq) : List Nat :=
  match r.cause with
  | 1 => List.range 128
  | 2 => List.range 128
  | 3 => (List.range 128).filter (fun c => clusterHalf (clusterOf c) = 0)
  | 4 => (List.range 128).filter (fun c => clusterHalf (clusterOf c) = 1)
  | 5 => clusterCores r.target
  | 8 => [r.target, r.target + 1]
  | 9 => (List.range 128).filter (fun c => clusterHalf (clusterOf c) = r.target)
  | _ => [r.target]

/-- A reset begins: with every write buffer of its scope empty it acts at once, else its cores stop issuing and drain. -/
def State.beginReset (s : State) (r : RSeq) : State :=
  let w := r.cores.filter (fun c => (s.core c).wb ≠ [])
  if w = [] then s.performReset r
  else
    let s1 := (r.cores.filter (fun c => powered s c)).foldl (fun s c => s.updCore c (fun k => { k with drain := some (k.drain.getD (s.ref + dtoOf s c)) })) s
    { s1 with hub := { s1.hub with resets := s1.hub.resets ++ [{ r with wait := w }] } }

/-- The resets whose cores have all drained act, the oldest first; `n` bounds them. -/
def State.performReady (s : State) : Nat → State
  | 0 => s
  | n + 1 =>
    match s.hub.resets.find? (fun r => r.wait = []) with
    | none => s
    | some r =>
      let s1 : State := { s with hub := { s.hub with resets := dropFirst (fun x => x = r) s.hub.resets } }
      (s1.performReset r).performReady n

/-- WRITE_BUFFER_DRAIN_END (R226): the last entry of a draining core is performed, or dto [ref] have passed and what is
left is abandoned; the resets that waited for it alone then act. -/
def drainEndAt (c : Nat) (s : State) : State :=
  match (s.core c).drain with
  | none => s
  | some t =>
    if (s.core c).wb = [] || decide (t ≤ s.ref) then
      let s1 := s.abandon c
      let one := fun (r : RSeq) => ({ r with wait := r.wait.filter (· ≠ c) } : RSeq)
      let s2 : State := { s1 with hub := { s1.hub with resets := s1.hub.resets.map one } }
      s2.performReady s2.hub.resets.length
    else s

/-- WRITE_BUFFER_DRAIN_END (R226). -/
def execWriteBufferDrainEnd (core : Nat) (s : State) : Host.Outcome State Fault Refusal := atUnit 128 core s (drainEndAt core)

/-! ## Requests for resets (R511 to R514) -/

/-- COLD_RESET (R511, R515, R563): PORn, or VDD_AON at `aon` mV, below 700. -/
def execColdReset (aon : Option Nat) (s : State) : Host.Outcome State Fault Refusal :=
  .next (match aon with
    | none => s.coldReset
    | some v => if v < 700 then s.coldReset else s)

/-- A write of RST_CTL (R511). -/
def warmWrite (ag : Agent) (v : Word) (s : State) : State :=
  if bit v 0 && fld v 8 8 = 0xA5 then s.beginReset { cause := 1, src := ag.router, closed := ag.closed, pl := ag.pl.toNat } else s

/-- WARM_CHIP_RESET (R511): WRSTn low for 4 [ref], or a write of RST_CTL with the key. -/
def execWarmChipReset (pin : Bool) (ag : Agent) (v : Word) (s : State) : Host.Outcome State Fault Refusal :=
  .next (if pin then s.beginReset { cause := 2 } else regCmd .rst R.RST_CTL ag s (warmWrite ag v))

/-- Whether a request that RST_CMD holds is still under way. -/
def rstBusy (s : State) : Bool := s.f R.RST_CMDSTAT F.RST_CMDSTAT_rstat = 0


/-- Whether a cluster has a formed pair. -/
def formedIn (s : State) (q : Nat) : Bool := s.f (pairReg (8 * q)) F.SAFE_PAIR_formed ≠ 0

/-- A write of RST_CMD with op 1, 2 or 3 while none is under way (R512, R514): refused with result 2 where it would reach a
formed pair, with result 1 for tenant 0. A number that names no cluster or core changes nothing (log 51). -/
def rstWrite (ag : Agent) (op target : Nat) (s : State) : State :=
  let go := fun (s : State) => (s.rstStat 0 0).beginReset { cause := 4 + op, target := target, src := ag.router, closed := ag.closed, pl := ag.pl.toNat }
  if rstBusy s then s
  else if op = 1 then (if 16 ≤ target then s.rstStat 1 0 else if formedIn s target then s.rstStat 3 2 else go s)
  else if op = 2 then
    (if 128 ≤ target then s.rstStat 1 0
     else if (s.f (pairReg target) F.SAFE_PAIR_formed).testBit (target % 8 / 2) then s.rstStat 3 2 else go s)
  else if target % 512 = 0 then s.rstStat 3 1
  else (tenantReset (target % 512) s).rstStat 1 0

/-- CLUSTER_RESET (R512). -/
def execClusterReset (ag : Agent) (cluster : Nat) (s : State) : Host.Outcome State Fault Refusal :=
  .next (regCmd .rst R.RST_CMD ag s (rstWrite ag 1 cluster))

/-- CORE_RESET (R512). -/
def execCoreReset (ag : Agent) (core : Nat) (s : State) : Host.Outcome State Fault Refusal :=
  .next (regCmd .rst R.RST_CMD ag s (rstWrite ag 2 core))

/-- TENANT_RESET (R514). -/
def execTenantReset (ag : Agent) (tenant : Nat) (s : State) : Host.Outcome State Fault Refusal :=
  .next (regCmd .rst R.RST_CMD ag s (rstWrite ag 3 tenant))

end Sys2Proof.Machine
end

