-- ==== Sys2Proof/Machine/Anchor.lean ====
section
/-! DEFINITION. The safety anchors: faults and their actions, levels of degraded operation, the split and the rejoin, safe
outputs, the watchdog, and lockstep pairs (R468 to R493, R563). -/

namespace Sys2Proof.Machine

def State.anchor (s : State) (h : Nat) : Anchor := mget {} s.anchors h
def State.setAnchor (s : State) (h : Nat) (x : Anchor) : State := { s with anchors := mset s.anchors h x }
def State.updAnchor (s : State) (h : Nat) (f : Anchor → Anchor) : State := s.setAnchor h (f (s.anchor h))

/-- [anchor] edges since cold reset. -/
def anchorNow (s : State) (h : Nat) : Nat := s.f (R.SAFE_TIME h) F.SAFE_TIME_ticks

/-- The island of an anchor (R510). -/
def anchorIsland (h : Nat) : Nat := 200 + h

/-- SAFE_W or SAFE_E (R485). -/
def safePins (s : State) (h : Nat) : Nat := 3 - safeLevel s h

/-! ## The cut (R293, R332, R477, R482) -/

/-- An anchor fences its side of the cut, and the inter-distributor link. -/
def State.fenceCut (s : State) (h : Nat) : State :=
  let d := if h = 0 then 1 else 3
  let s1 := (cutRouters h).foldl (fun s r => s.updRouter r (fun x => { x with anchorFence := d :: x.anchorFence.filter (· ≠ d) })) s
  (List.range 2).foldl (fun s j => s.setF (R.ICU_STAT j) F.ICU_STAT_xfence 1) (s1.setF (R.SAFE_STAT h) F.SAFE_STAT_cutfence 1)

def cutFence (s : State) (h : Nat) : Bool := s.on (R.SAFE_STAT h) F.SAFE_STAT_cutfence

/-! ## Levels (R475 to R479) -/

/-- The tenants that a half's faults reach: those of the other half and of both (R477). -/
def foreignTenants (s : State) (h : Nat) : List Nat := (List.range 512).filter (fun t => t ≠ 0 && tenantHalf s h t ≠ h)

/-- Tenants are faulted in a half (R478): their banks there are reset, their threads FROZEN with ferr and no event, their
queue pairs abort. -/
def State.faultTenants (s : State) (h : Nat) : State :=
  let ts := (foreignTenants s h).filter (fun t => !s.faulted.contains (h, t))
  let banks := s.cores.flatMap (fun p => if clusterHalf (clusterOf p.1) ≠ h then [] else (List.range 8).filterMap (fun bi =>
    let b := p.2.bank bi
    if b.st ≠ .empty && ts.contains b.tenant then some (p.1, bi) else none))
  let s1 := banks.foldl (fun s p => (s.loseBank p.1 p.2).setBank p.1 p.2 (bankReset s p.1 p.2)) s
  let s2 := ((List.range 16).filter (fun k => clusterHalf k = h)).foldl (fun s k =>
    (allThreads.filter (fun n => thrState s k n ≠ 0 && ts.contains (thrTenant s k n))).foldl (fun s n =>
      ((s.setThrState k n 6).setF (R.SCHED_THR_B k n) F.SCHED_THR_B_ferr 1).updCluster k (fun q => { q with parked := mdel q.parked n })) s) s1
  let s3 := (ts.filter (fun t => pipeOf t = h)).foldl (fun s t => (List.range 8).foldl (fun s q => abortQp t q s) s) s2
  { s3 with faulted := s3.faulted ++ ts.map (fun t => (h, t)) }

/-- SAFE-STATE: the ports and the CAN and LIN controllers of the half stop, the cut is fenced, and its clusters are held
in reset after their drain (R226, R477). -/
def State.safeState (s : State) (h : Nat) : State :=
  let s1 := (List.range 20).foldl (fun s p => ethStop (20 * h + p) s) s
  let s2 := (List.range 12).foldl (fun s n => canStop (12 * h + n) s) s1
  let s3 := (List.range 8).foldl (fun s m => linStop (8 * h + m) s) s2
  (s3.fenceCut h).beginReset { cause := 9, target := h }

/-- The safe outputs on entry to a level (R486). -/
def State.safeOutputs (s : State) (h l : Nat) : State :=
  let a := R.SAFE_SOUT h
  let safe := s.f a F.SAFE_SOUT_safe
  let deg := s.f a F.SAFE_SOUT_deg
  let pins := s.f a F.SAFE_SOUT_pins
  s.setF a F.SAFE_SOUT_pins (((List.range 4).map (fun k =>
    if (if l = 3 || ((l = 1 || l = 2) && deg.testBit k) then safe else pins).testBit k then 2 ^ k else 0)).sum)

/-- What a half runs at a level is applied to its units (R477). -/
def State.applyLevel (s : State) (h l : Nat) : State :=
  if l = 3 then s.safeState h
  else if l = 1 || (l = 2 && cutFence s h) then s.faultTenants h
  else s

/-- A rejoin under way ends refused when a level rises (R484). -/
def State.endRejoins (s : State) : State :=
  (List.range 2).foldl (fun s j =>
    if (s.anchor j).rejoin.isSome then
      ((s.setF (R.SAFE_REJOIN j) F.SAFE_REJOIN_rstat 3).setF (R.SAFE_REJOIN j) F.SAFE_REJOIN_reason 7).updAnchor j (fun x => { x with rejoin := none })
    else s) s

/-- A half takes a new level (R474, R476): chg and the code of its cause, the outputs, the settings. -/
def State.raiseLevel (s : State) (h l code : Nat) : State :=
  if l = safeLevel s h then s
  else
    let a := R.SAFE_STAT h
    let s1 := ((s.setF a F.SAFE_STAT_level l).setF a F.SAFE_STAT_chg 1).setF a F.SAFE_STAT_cause code
    ((s1.safeOutputs h l).applyLevel h l).endRejoins

/-- The level that an event takes a level to: events 2 MIN, 3 LOSE, 4 STOP, 5 SPLIT, 6 PEER_LOST (R476). -/
def levelAfter (l ev : Nat) : Nat :=
  if ev = 3 ∨ ev = 4 then 3
  else if l = 3 then 3
  else if ev = 2 then 2
  else if ev = 5 then (if l = 1 then 1 else 2)
  else if ev = 6 then max l 1
  else l

/-- Of the events of one edge, with their codes, the one that decides: the most severe outcome, then the most severe event
(R474). -/
def deciding (l : Nat) (evs : List (Nat × Nat)) : Option (Nat × Nat) :=
  argMin (fun e => (3 - levelAfter l e.1) * 8 + (7 - min 7 (if e.1 = 6 then 1 else e.1))) evs

/-- The flags that an event sets and what it makes the anchor declare (R476). A SPLIT is declared when split is first
set (log 55). -/
def State.takeEvent (s : State) (h ev : Nat) (ownFault : Bool) : State :=
  let a := R.SAFE_STAT h
  let s1 := if ownFault && (ev = 2 || ev = 3) then s.setF a F.SAFE_STAT_own 1 else s
  if ev = 5 then
    (if s1.on a F.SAFE_STAT_split then s1 else (s1.setF a F.SAFE_STAT_split 1).updAnchor h (fun x => { x with decl := x.decl ++ [5] }))
  else if ev = 6 then s1.setF a F.SAFE_STAT_peer_lost 1
  else s1

/-- The anchor's declarations as it enters SAFE-STATE: LOSE, by fault 0x01 over the hardwired path, or STOP (R476). -/
def State.declareEntry (s : State) (h ev code : Nat) : State :=
  let s1 := s.updAnchor h (fun x => { x with stopped := ev = 4, lossCode := code })
  if ev = 3 && code = 1 then { s1 with beats := s1.beats ++ [⟨1 - h, 3, s.on (R.SAFE_STAT h) F.SAFE_STAT_split, true, [3]⟩] }
  else s1.updAnchor h (fun x => { x with decl := x.decl ++ [ev] })

/-- Events of one edge, each with its code and whether it is the half's own fault, act on a half (R474, R476). -/
def State.takeEvents (s : State) (h : Nat) (evs : List (Nat × Nat × Bool)) : State :=
  let l := safeLevel s h
  let s1 := evs.foldl (fun s e => s.takeEvent h e.1 e.2.2) s
  match deciding l (evs.map (fun e => (e.1, e.2.1))) with
  | none => s1
  | some (ev, code) =>
    let l' := levelAfter l ev
    let s2 := s1.raiseLevel h l' code
    if l' = 3 && l ≠ 3 then s2.declareEntry h ev code else s2

/-! ## Faults (R471 to R474) -/

/-- The action of a fault code in a half, from the count it has reached (R473). -/
def faultAction (s : State) (h code : Nat) : Nat :=
  let a := R.SAFE_FMAP h code
  let act := s.f a F.SAFE_FMAP_act
  let esc := s.f a F.SAFE_FMAP_esc
  let thr := s.f a F.SAFE_FMAP_thr
  if s.on a F.SAFE_FMAP_fixed then act
  else if thr ≠ 0 && decide (thr ≤ s.f a F.SAFE_FMAP_cnt) then max act esc else act

/-- A fault is recorded and counted (R474). -/
def State.recordReport (s : State) (h code island : Nat) : State :=
  let a := R.SAFE_FREC h
  let s1 :=
    if s.on a F.SAFE_FREC_valid then s.setF a F.SAFE_FREC_over 1
    else (((s.setF a F.SAFE_FREC_code code).setF a F.SAFE_FREC_island island).setF a F.SAFE_FREC_time (anchorNow s h)).setF a F.SAFE_FREC_valid 1
  s1.incSat (R.SAFE_FMAP h code) F.SAFE_FMAP_cnt 1

/-- Faults that become usable in an anchor on one edge (R474), with their codes and islands: each is recorded, its
action chosen and its containment applied (R472). -/
def State.takeFaults (s : State) (h : Nat) (fs : List (Nat × Nat)) : State :=
  let r := fs.foldl (fun (q : State × List (Nat × Nat × Bool)) f =>
    let code := f.1 % 64
    let s1 := q.1.recordReport h code f.2
    let act := faultAction s1 h code
    let s2 := if act = 1 then s1.setF (R.SAFE_STAT h) F.SAFE_STAT_irqf 1 else s1
    let s3 := if code = 8 && decide (f.2 < 128) then s2.beginReset { cause := 7, target := f.2 } else s2
    (s3, if 2 ≤ act && act ≤ 5 then q.2 ++ [(act, code, true)] else q.2)) (s, [])
  r.1.takeEvents h r.2

/-- A fault that the anchor detects itself. -/
def State.selfFault (s : State) (h code : Nat) : State := s.takeFaults h [(code, anchorIsland h)]

/-- A command of one anchor. -/
def atAnchor (h : Nat) (s : State) (f : State → State) : Host.Outcome State Fault Refusal := atUnit 2 h s f

/-- FAULT_REPORT (R474): the first `n` reports on their way to an anchor become usable on one edge. -/
def faultReport (h n : Nat) (s : State) : State :=
  let fs := (s.reports.filter (fun r => r.anchor = h)).take n
  if fs = [] then s
  else (({ s with reports := fs.foldl (fun l r => dropFirst (fun x => x = r) l) s.reports } : State)).takeFaults h (fs.map (fun (r : FaultRep) => (r.code, r.island)))

/-- FAULT_REPORT (R474). -/
def execFaultReport (half n : Nat) (s : State) : Host.Outcome State Fault Refusal := atAnchor half s (faultReport half n)

/-- CLOCK_RATE_WINDOW (R470): the counts of 40,000 own edges, of heartbeats and of the main reference in one window, by
their nominal 40,000, 100 and 2,500; a clock that differs by more than 2 % from both others is failed. -/
def clockWindow (h own peer main : Nat) (s : State) : State :=
  let differs := fun (x y : Nat) => decide (y < 50 * (max x y - min x y))
  let o := own
  let p := peer * 400
  let m := main * 16
  let f := (if differs o p && differs o m then [(3, anchorIsland h)] else []) ++ (if differs m o && differs m p then [(2, anchorIsland h)] else [])
  if f = [] then s else s.takeFaults h f

/-- CLOCK_RATE_WINDOW (R470). -/
def execClockRateWindow (half own peer main : Nat) (s : State) : Host.Outcome State Fault Refusal := atAnchor half s (clockWindow half own peer main)

/-- Whether a rail (0 VDD_CORE, 1 VDD_SOC, 2 VDD_SAFE) at `mv` is outside its window (R563). -/
def railOutside (s : State) (rail mv : Nat) : Bool :=
  let set := fun (v : Nat) => 650 + 10 * v
  let cur := railCur s
  let new := match s.hub.rail with
    | some (v, _) => if s.on R.PWR_RAIL F.PWR_RAIL_busy then v else cur
    | none => cur
  match rail with
  | 0 => decide (100 * mv < 95 * set (min cur new)) || decide (105 * set (max cur new) < 100 * mv)
  | 1 => decide (mv < 710) || decide (790 < mv)
  | 2 => decide (mv < 760) || decide (840 < mv)
  | _ => false

/-- SUPPLY_VIOLATION (R563): a rail has been at `mv` mV for 16 [anchor]. -/
def execSupplyViolation (half rail mv : Nat) (s : State) : Host.Outcome State Fault Refusal :=
  atAnchor half s (fun s => if railOutside s rail mv then s.selfFault half (if rail = 2 then 6 else 5) else s)

/-- JUNCTION_OVER_TEMPERATURE (R472): a sensor has read `temp` °C for 16 [anchor]. -/
def execJunctionOverTemperature (half temp : Nat) (s : State) : Host.Outcome State Fault Refusal :=
  atAnchor half s (fun s => if s.f (R.SAFE_CFG half) F.SAFE_CFG_tmax < temp then s.selfFault half 7 else s)

/-- ANCHOR_LOCKSTEP_MISMATCH (R472, R476). -/
def execAnchorLockstepMismatch (half : Nat) (s : State) : Host.Outcome State Fault Refusal := atAnchor half s (fun s => s.selfFault half 1)

/-! ## Heartbeats (R469, R476) -/

/-- ANCHOR_HEARTBEAT (R469): 400 [anchor] after the last one a heartbeat leaves with what the anchor declares. -/
def anchorHeartbeat (h : Nat) (s : State) : State :=
  let x := s.anchor h
  let a := R.SAFE_STAT h
  if x.beatAt + 400 ≤ anchorNow s h then
    { s.setAnchor h { x with beatAt := anchorNow s h, decl := [] } with
      beats := s.beats ++ [⟨1 - h, safeLevel s h, s.on a F.SAFE_STAT_split, s.on a F.SAFE_STAT_own, x.decl⟩] }
  else s

/-- ANCHOR_HEARTBEAT (R469). -/
def execAnchorHeartbeat (half : Nat) (s : State) : Host.Outcome State Fault Refusal := atAnchor half s (anchorHeartbeat half)

/-- The event that a declaration is to the other anchor: LOSE is PEER_LOST (R476). -/
def declEvent (d : Nat) : Nat := if d = 3 then 6 else d

/-- PEER_HEARTBEAT (R476): peer and its level stand, and its declarations act. The code of a change they cause is the
declared half's, which a heartbeat does not carry: a free value (log 55). -/
def peerHeartbeat (h : Nat) (s : State) : State :=
  match s.beats.find? (fun b => b.dest = h) with
  | none => s
  | some b =>
    let a := R.SAFE_STAT h
    let s1 := ({ s with beats := dropFirst (fun x => x = b) s.beats }).updAnchor h (fun x => { x with peerAt := anchorNow s h })
    let s2 := (s1.setF a F.SAFE_STAT_peer 1).setF a F.SAFE_STAT_peer_level b.level
    if b.decl = [] then s2
    else s2.draw.takeEvents h (b.decl.map (fun d => (declEvent d, (Config.freeWord s.draws).toNat % 256, false)))

/-- PEER_HEARTBEAT (R476). -/
def execPeerHeartbeat (half : Nat) (s : State) : Host.Outcome State Fault Refusal := atAnchor half s (peerHeartbeat half)

/-- PEER_SILENCE (R469): after 80,000 [anchor] without a heartbeat the other anchor is not heard, and fault 0x14 is
raised; the count starts again (log 55). -/
def peerSilence (h : Nat) (s : State) : State :=
  if (s.anchor h).peerAt + 80000 ≤ anchorNow s h then
    ((s.updAnchor h (fun x => { x with peerAt := anchorNow s h })).setF (R.SAFE_STAT h) F.SAFE_STAT_peer 0).selfFault h 0x14
  else s

/-- PEER_SILENCE (R469). -/
def execPeerSilence (half : Nat) (s : State) : Host.Outcome State Fault Refusal := atAnchor half s (peerSilence half)

/-! ## The split (R482) -/

/-- SPLIT (R482): an anchor that took the event fences its side of the cut; class A tenants are suspended by its level;
the wait of SAFE_CFG.drain begins. -/
def splitStart (h : Nat) (s : State) : State :=
  if s.on (R.SAFE_STAT h) F.SAFE_STAT_split && !cutFence s h then
    (s.fenceCut h).updAnchor h (fun x => { x with drain := some (anchorNow s h + min 400000 (s.f (R.SAFE_CFG h) F.SAFE_CFG_drain)) })
  else s

/-- SPLIT (R482). -/
def execSplit (half : Nat) (s : State) : Host.Outcome State Fault Refusal := atAnchor half s (splitStart half)

/-- SPLIT_DRAIN_END (R482): the tenants across the cut are faulted, their queue pairs abort, and chg is set. -/
def splitDrainEnd (h : Nat) (s : State) : State :=
  match (s.anchor h).drain with
  | none => s
  | some e =>
    if e ≤ anchorNow s h then
      let s1 := s.updAnchor h (fun x => { x with drain := none })
      if safeLevel s h = 3 then s1 else (s1.faultTenants h).setF (R.SAFE_STAT h) F.SAFE_STAT_chg 1
    else s

/-- SPLIT_DRAIN_END (R482). -/
def execSplitDrainEnd (half : Nat) (s : State) : Host.Outcome State Fault Refusal := atAnchor half s (splitDrainEnd half)

/-! ## The rejoin (R483, R484) -/

/-- The half that returns: after HALF the one that was lost, after a split East (R483). -/
def rejoining (s : State) (h : Nat) : Nat := if s.on (R.SAFE_STAT h) F.SAFE_STAT_peer_lost then 1 - h else 1

/-- Why a rejoin is refused; 0: it is accepted (R483). -/
def rejoinReason (s : State) (h : Nat) : Nat :=
  let l := safeLevel s h
  let r := rejoining s h
  let x := s.anchor r
  if !s.on (R.SAFE_STAT h) F.SAFE_STAT_peer then 1
  else if l = 0 || l = 3 then 2
  else if s.on (R.SAFE_STAT h) F.SAFE_STAT_own then 3
  else if r = h then 4
  else if safeLevel s r = 3 && (x.stopped || !([1, 3, 5, 9, 0xB].contains x.lossCode)) then 5
  else 0

/-- A write of SAFE_REJOIN.go: NOT_READY, and the half reset begins, or refused. -/
def rejoinGo (h : Nat) (s : State) : State :=
  let a := R.SAFE_REJOIN h
  let why := rejoinReason s h
  if why ≠ 0 then (s.setF a F.SAFE_REJOIN_rstat 3).setF a F.SAFE_REJOIN_reason why
  else ((s.setF a F.SAFE_REJOIN_rstat 0).updAnchor h (fun x => { x with rejoin := some (1, anchorNow s h) })).beginReset
    { cause := 3 + rejoining s h }

/-- SAFE_REJOIN (R483). -/
def execSafeRejoin (ag : Agent) (half : Nat) (s : State) : Host.Outcome State Fault Refusal :=
  atAnchor half s (fun s => regCmd .safe (R.SAFE_REJOIN half) ag s (rejoinGo half))

/-- Whether every link of the cut reads up on both sides. -/
def cutUp (s : State) : Bool := (cutRouters 0).all (fun r => linkUp s r 1) && (cutRouters 1).all (fun r => linkUp s r 3)

/-- Steps 3 to 5: a Closed-world restart where East returned; both anchors are at FULL. -/
def State.rejoinDone (s : State) (h : Nat) : State :=
  let s1 := if rejoining s h = 1 then s.cwTrigger else s
  let full := fun (s : State) (j : Nat) =>
    let a := R.SAFE_STAT j
    ((((((s.setF a F.SAFE_STAT_level 0).setF a F.SAFE_STAT_split 0).setF a F.SAFE_STAT_peer_lost 0).setF a F.SAFE_STAT_own 0).setF a
      F.SAFE_STAT_chg 1).setF a F.SAFE_STAT_cause 0xFF).updAnchor j (fun x => { x with rejoin := none, lossCode := 0, stopped := false, drain := none })
  (full (full s1 0) 1).setF (R.SAFE_REJOIN h) F.SAFE_REJOIN_rstat 1

/-- REJOIN_LINKS_UP (R484). -/
def rejoinLinksUp (h : Nat) (s : State) : State :=
  match (s.anchor h).rejoin with
  | some (2, _) => if cutUp s then s.rejoinDone h else s
  | _ => s

/-- REJOIN_LINKS_UP (R484). -/
def execRejoinLinksUp (half : Nat) (s : State) : Host.Outcome State Fault Refusal := atAnchor half s (rejoinLinksUp half)

/-- REJOIN_LINK_TIMEOUT (R484): a link still down after 4,096 [anchor] refuses the rejoin. -/
def rejoinTimeout (h : Nat) (s : State) : State :=
  match (s.anchor h).rejoin with
  | some (2, t) =>
    if !cutUp s && decide (t + 4096 ≤ anchorNow s h) then
      ((s.setF (R.SAFE_REJOIN h) F.SAFE_REJOIN_rstat 3).setF (R.SAFE_REJOIN h) F.SAFE_REJOIN_reason 6).updAnchor h (fun x => { x with rejoin := none })
    else s
  | _ => s

/-- REJOIN_LINK_TIMEOUT (R484). -/
def execRejoinLinkTimeout (half : Nat) (s : State) : Host.Outcome State Fault Refusal := atAnchor half s (rejoinTimeout half)

/-! ## Watchdog, safe outputs and settings (R473, R480, R486, R487, R492) -/

/-- The value that the next kick must have: 0xA5 first, then 0x5A and 0xA5 in turn. -/
def kickValue (n : Nat) : Nat := if n % 2 = 0 then 0xA5 else 0x5A

/-- A kick of the armed watchdog: a wrong value, or one too soon after the last kick, raises fault 0x04; 0 is no kick
(log 56). -/
def wdtKicked (h v : Nat) (s : State) : State :=
  let x := s.anchor h
  let a := R.SAFE_WDT h
  if v = 0 || !s.on a F.SAFE_WDT_arm then s
  else if v ≠ kickValue x.kicks then s.selfFault h 4
  else
    let s1 := s.setAnchor h { x with kicks := x.kicks + 1, kickAt := anchorNow s h }
    if x.kicks ≠ 0 && decide (anchorNow s h < x.kickAt + s.f a F.SAFE_WDT_win * 256) then s1.selfFault h 4 else s1

/-- A write of SAFE_WDT with arm set: period and win stand unless armed, and the watchdog is armed unless its period is
0. -/
def wdtArm (h : Nat) (v : Word) (s : State) : State :=
  let a := R.SAFE_WDT h
  if s.on a F.SAFE_WDT_arm then wdtKicked h (fld v 24 8) s
  else
    let s1 := (s.setF a F.SAFE_WDT_period (fld v 0 16)).setF a F.SAFE_WDT_win (fld v 16 7)
    if bit v 23 && fld v 0 16 ≠ 0 then (s1.setF a F.SAFE_WDT_arm 1).updAnchor h (fun x => { x with kicks := 0, kickAt := anchorNow s h })
    else s1

/-- SAFE_WDT_ARM (R487). -/
def execSafeWdtArm (ag : Agent) (half : Nat) (v : Word) (s : State) : Host.Outcome State Fault Refusal :=
  atAnchor half s (fun s => regCmd .safe (R.SAFE_WDT half) ag s (wdtArm half (setBit v 23 true)))

/-- SAFE_WDT_KICK (R487). -/
def execSafeWdtKick (ag : Agent) (half : Nat) (v : Word) (s : State) : Host.Outcome State Fault Refusal :=
  atAnchor half s (fun s => regCmd .safe (R.SAFE_WDT half) ag s (wdtArm half v))

/-- SAFE_WDT_EXPIRY (R487): no kick within the period. -/
def wdtExpires (h : Nat) (s : State) : State :=
  let a := R.SAFE_WDT h
  if s.on a F.SAFE_WDT_arm && decide ((s.anchor h).kickAt + s.f a F.SAFE_WDT_period * 256 ≤ anchorNow s h) then
    (s.updAnchor h (fun x => { x with kickAt := anchorNow s h })).selfFault h 4
  else s

/-- SAFE_WDT_EXPIRY (R487). -/
def execSafeWdtExpiry (half : Nat) (s : State) : Host.Outcome State Fault Refusal := atAnchor half s (wdtExpires half)

/-- A write of SAFE_CTL.inject (R492, R548): in TEST mode the code is a fault of this anchor. -/
def injectCode (half code : Nat) (s : State) : State := if s.f R.PMU_MODE F.PMU_MODE_mode = 3 then s.selfFault half (code % 64) else s

/-- INJECT (R492). -/
def execInject (ag : Agent) (half code : Nat) (s : State) : Host.Outcome State Fault Refusal :=
  atAnchor half s (fun s => regCmd .safe (R.SAFE_CTL half) ag s (injectCode half code))

/-- Why a lock of the tenant classes is refused; 0: it is not (R480). Tenant 0's class is fixed and is not checked. -/
def lockReason (s : State) (h : Nat) : Nat :=
  let a := R.SAFE_TCLS h
  let ts := (List.range 512).filter (fun t => t ≠ 0 && s.on (a t) F.SAFE_TCLS_cls)
  if ts.any (fun t => decide (2 ≤ s.f (a t) F.SAFE_TCLS_half)) then 1
  else if ts.any (fun t => s.f (a t) F.SAFE_TCLS_half ≠ pipeOf t) then 2
  else if s.on (R.SAFE_STAT h) F.SAFE_STAT_peer && (List.range 512).any (fun t => s.reg (R.SAFE_TCLS 0 t) ≠ s.reg (R.SAFE_TCLS 1 t)) then 3
  else 0

/-- SAFE_CTL_LOCK (R480). -/
def ctlLock (h : Nat) (s : State) : State :=
  let a := R.SAFE_CTL h
  if s.on a F.SAFE_CTL_lock then s
  else
    let why := lockReason s h
    if why = 0 then s.setF a F.SAFE_CTL_lock 1 else s.setF a F.SAFE_CTL_lerr why

/-- SAFE_CTL_LOCK (R480). -/
def execSafeCtlLock (ag : Agent) (half : Nat) (s : State) : Host.Outcome State Fault Refusal :=
  atAnchor half s (fun s => regCmd .safe (R.SAFE_CTL half) ag s (ctlLock half))

/-- FMAP_COUNT_CLEAR (R473). -/
def execFmapCountClear (ag : Agent) (half code : Nat) (s : State) : Host.Outcome State Fault Refusal :=
  atAnchor half s (fun s => regCmd .safe (R.SAFE_FMAP half (code % 64)) ag s (fun s => s.setF (R.SAFE_FMAP half (code % 64)) F.SAFE_FMAP_cnt 0))

/-- A write of SAFE_SOUT.val (R486): at SAFE-STATE the pins keep their values. -/
def outputWrite (h v : Nat) (s : State) : State :=
  let a := R.SAFE_SOUT h
  let s1 := s.setF a F.SAFE_SOUT_val v
  if safeLevel s h = 3 then s1 else s1.setF a F.SAFE_SOUT_pins v

/-- SAFE_OUTPUT_WRITE (R486). -/
def execSafeOutputWrite (ag : Agent) (half v : Nat) (s : State) : Host.Outcome State Fault Refusal :=
  atAnchor half s (fun s => regCmd .safe (R.SAFE_SOUT half) ag s (outputWrite half (v % 16)))

/-! ## Lockstep pairs (R488 to R491) -/

/-- The leader of pair `k` of a cluster. -/
def leader (q k : Nat) : Nat := 8 * q + 2 * k

def bankless (s : State) (c : Nat) : Bool := (List.range 8).all (fun bi => (s.bank c bi).st = .empty)

/-- Whether a thread with this home core is resident or loading. -/
def homeResident (s : State) (c : Nat) : Bool :=
  (s.core c).move.isSome || allThreads.any (fun n => (thrState s (clusterOf c) n = 3 || thrState s (clusterOf c) n = 4 || thrState s (clusterOf c) n = 5) && thrCore s (clusterOf c) n = c)

/-- Why a form is refused; 0: it is not (R488). -/
def formReason (s : State) (q k : Nat) : Nat :=
  let c := leader q k
  if !bankless s c || !bankless s (c + 1) || homeResident s c || homeResident s (c + 1) then 1
  else if s.on (R.SCHED_CORE q (c % 8)) F.SCHED_CORE_fast_en || s.on (R.SCHED_CORE q (c % 8 + 1)) F.SCHED_CORE_fast_en then 2
  else if inPair s c then 3
  else if safeLevel s (clusterHalf q) ≠ 0 then 5
  else 0

/-- Why a dissolve is refused (R488). -/
def dissolveReason (s : State) (q k : Nat) : Nat :=
  if !bankless s (leader q k) || (s.core (leader q k)).move.isSome then 4 else if safeLevel s (clusterHalf q) ≠ 0 then 5 else 0

/-- An accepted command of SAFE_PAIR reports NOT_READY, takes the place of one of the cluster still under way, and resets
both cores after their drain; a checker to be takes its leader's clock (R375, R489). -/
def pairStart (cmd q k : Nat) (s : State) : State :=
  let c := leader q k
  let s1 := s.setF (pairReg c) F.SAFE_PAIR_rstat 0
  let s2 := if cmd = 1 then
      (s1.setF (R.PWR_CORE (c + 1)) F.PWR_CORE_vreq (s.f (R.PWR_CORE c) F.PWR_CORE_vreq)).setF (R.CLK_CORE (c + 1)) F.CLK_CORE_cur (s.f (R.CLK_CORE c) F.CLK_CORE_cur)
    else s1
  ({ s2 with hub := { s2.hub with pairs := mset (s2.hub.pairs.filter (fun p => p.1 / 4 ≠ q)) (4 * q + k) (cmd, 0) } }).beginReset { cause := 8, target := c }

/-- A write of SAFE_PAIR.cmd; an entry of a cluster of the other half ignores it (R492). -/
def pairWrite (cmd h q k : Nat) (s : State) : State :=
  if clusterHalf q ≠ h then s
  else
    let why := if cmd = 1 then formReason s q k else dissolveReason s q k
    if why ≠ 0 then (s.setF (R.SAFE_PAIR h q) F.SAFE_PAIR_rstat 3).setF (R.SAFE_PAIR h q) F.SAFE_PAIR_reason why
    else pairStart cmd q k s

/-- A command of SAFE_PAIR. -/
def pairCmd (cmd : Nat) (ag : Agent) (h q k : Nat) (s : State) : Host.Outcome State Fault Refusal :=
  if h < 2 ∧ q < 16 then .next (regCmd .safe (R.SAFE_PAIR h q) ag s (pairWrite cmd h q (k % 4))) else .fault .noSuchUnit

/-- PAIR_FORM (R488). -/
def execPairForm (ag : Agent) (half cluster k : Nat) (s : State) : Host.Outcome State Fault Refusal := pairCmd 1 ag half cluster k s
/-- PAIR_DISSOLVE (R489). -/
def execPairDissolve (ag : Agent) (half cluster k : Nat) (s : State) : Host.Outcome State Fault Refusal := pairCmd 2 ag half cluster k s

/-- PAIR_FORMED (R489): 64 [core] after both cores left reset. -/
def pairFormed (q k : Nat) (s : State) : State :=
  let a := pairReg (8 * q)
  match s.hub.pairs.find? (fun p => p.1 = 4 * q + k) with
  | some (_, 3, e) =>
    if e + 64 ≤ (s.core (leader q k)).cyc then
      let s1 := (s.setF a F.SAFE_PAIR_formed (s.f a F.SAFE_PAIR_formed ||| 2 ^ k)).setF a F.SAFE_PAIR_rstat 1
      { s1 with hub := { s1.hub with pairs := mdel s1.hub.pairs (4 * q + k) } }
    else s
  | _ => s

/-- PAIR_FORMED (R489). -/
def execPairFormed (cluster k : Nat) (s : State) : Host.Outcome State Fault Refusal :=
  if cluster < 16 ∧ k < 4 then .next (pairFormed cluster k s) else .fault .noSuchUnit

/-- LOCKSTEP_MISMATCH (R491): the pair stops, its resident threads are FROZEN with ferr, its banks EMPTY; faulted is set and
fault 0x12 reported. -/
def lockstepMismatch (q k : Nat) (s : State) : State :=
  let a := pairReg (8 * q)
  let c := leader q k
  if !(s.f a F.SAFE_PAIR_formed).testBit k || (s.f a F.SAFE_PAIR_faulted).testBit k then s
  else
    let one := fun (s : State) (c bi : Nat) =>
      let s1 := match (s.bank c bi).thread with
        | some n => (s.setThrState q n 6).setF (R.SCHED_THR_B q n) F.SCHED_THR_B_ferr 1
        | none => s
      (s1.loseBank c bi).setBank c bi (bankReset s c bi)
    let s0 := (s.updCore c (fun x => { x with move := none })).updCore (c + 1) (fun x => { x with move := none })
    let s1 := (List.range 8).foldl (fun s bi => one (one s c bi) (c + 1) bi) s0
    (s1.setF a F.SAFE_PAIR_faulted (s1.f a F.SAFE_PAIR_faulted ||| 2 ^ k)).report (clusterHalf q) 0x12 (c + 1)

/-- LOCKSTEP_MISMATCH (R491). -/
def execLockstepMismatch (cluster k : Nat) (s : State) : Host.Outcome State Fault Refusal :=
  if cluster < 16 ∧ k < 4 then .next (lockstepMismatch cluster k s) else .fault .noSuchUnit

end Sys2Proof.Machine
end

