-- ==== Sys2Proof/Machine/Icu.lean ====
section
/-! DEFINITION. The interrupt distributors: source lines, presentation, notices, routing entries and wakes (R319 to
R336). -/

namespace Sys2Proof.Machine

/-! ## The lines (R319, R320) -/

/-- The line of a unit outside the tables of R320: tenants, ports, controllers, sampling, pins and software lines (R235,
R238, R319, R322, R347, R386, R426, R442, R456, R461, R493, R518, R534, R556). -/
def unitLine (s : State) (n : Nat) : Bool :=
  if n < 512 then (List.range 8).any (fun q =>
    let x := s.qp n q
    s.on (R.MEQ_QP_CFG n q) F.MEQ_QP_CFG_irq && x.acked ≠ x.posted)
  else if n < 552 then s.reg (R.ETH_IRQ (n - 512)) &&& s.reg (R.ETH_IRQEN (n - 512)) ≠ 0
  else if n < 576 then s.reg (R.CAN_IRQ (n - 552)) &&& s.reg (R.CAN_IRQEN (n - 552)) ≠ 0
  else if n < 592 then s.reg (R.LIN_IRQ (n - 576)) &&& s.reg (R.LIN_IRQEN (n - 576)) ≠ 0
  else if n < 656 then
    let j := (n - 592) / 32
    let v := (n - 592) % 32
    if v = 0 then s.reg (R.PCIE_IRQ j) &&& s.reg (R.PCIE_IRQEN j) ≠ 0 else !pcieEndpoint s j && bit (s.reg (R.PCIE_MSI j)) v
  else if n < 736 then
    let j := n - 734
    s.on (R.SAFE_STAT j) F.SAFE_STAT_chg || s.on (R.SAFE_STAT j) F.SAFE_STAT_irqf || s.on (R.SAFE_FREC j) F.SAFE_FREC_valid
  else if n = 736 then s.on R.SEC_CW_STAT F.SEC_CW_STAT_fresh
  else if n = 737 then s.on R.SEC_CW_DENY F.SEC_CW_DENY_valid
  else if n = 738 then s.on R.SEC_STAT F.SEC_STAT_trng_fail
  else if n = 739 then s.boot.stage = 12
  else if n = 740 then s.on R.TRC_STAT F.TRC_STAT_full || s.on R.TRC_STAT F.TRC_STAT_err
  else if n = 741 then s.on R.RST_LOSTN F.RST_LOSTN_over || s.hub.unread ≠ []
  else if n < 768 then false
  else if n < 896 then s.on (R.PMU_SREC0 (n - 768)) F.PMU_SREC0_valid
  else if n < 912 then
    s.icu.pins.contains (n - 896) ≠ (s.f (R.ICU_CTL ((n - 896) / 8)) F.ICU_CTL_pol).testBit ((n - 896) % 8)
  else s.icu.soft.contains n

/-- The level of a source's line: the conditions of R320, or the unit's own. -/
def lineLevel (s : State) (n : Nat) : Bool :=
  if n < 656 ∨ 742 < n then unitLine s n
  else if n < 664 then bit (s.reg (R.MEQ_PSTAT ((n - 656) / 4))) ((n - 656) % 4)
  else if n < 672 then
    let j := n - 664
    s.on (R.DMC_ERR j) F.DMC_ERR_poison_lost || s.on (R.DMC_ERRADDR j) F.DMC_ERRADDR_valid || s.on (R.DMC_INIT j) F.DMC_INIT_err ||
      (j = 0 && s.on (R.DMC_REGCTL 0) F.DMC_REGCTL_err)
  else if n < 702 then
    let r := n - 672
    s.on (R.NOC_STAT r) F.NOC_STAT_d_over || s.reg (R.NOC_LINK r) &&& 0xCCCC ≠ 0 ||
      s.on (R.NOC_PRB_CNT r 0) F.NOC_PRB_CNT_ovf || s.on (R.NOC_PRB_CNT r 1) F.NOC_PRB_CNT_ovf
  else if n < 718 then
    let c := n - 702
    s.on (R.CACHE_STAT c) F.CACHE_STAT_err || s.on (R.CACHE_STAT c) F.CACHE_STAT_lost ||
      (List.range 64).any (fun i => s.on (R.SCHED_SEM_CNT c (i / 8) (i % 8)) F.SCHED_SEM_CNT_ovf) ||
      (clusterCores c).any (fun k => s.on (R.MMU_INVS k) F.MMU_INVS_err || s.on (R.MMU_INVS k) F.MMU_INVS_lost)
  else if n < 734 then
    let b := n - 718 + 16
    s.on (R.CACHE_STAT b) F.CACHE_STAT_err || s.on (R.CACHE_STAT b) F.CACHE_STAT_lost
  else if n = 742 then s.boot.xbad
  else unitLine s n

/-! ## Levels as events (R329, R332) -/

/-- The half of a routing entry's target: of the cluster, or of the core's cluster. -/
def icuTargetHalf (s : State) (n : Nat) : Nat :=
  let t := s.f (icuSrc n) F.ICU_SRC_core
  if s.on (icuSrc n) F.ICU_SRC_ev then clusterHalf (t % 16) else clusterHalf (clusterOf t)

/-- Whether a source's target lies across a fenced cut (R332). -/
def cutOff (s : State) (n : Nat) : Bool := icuTargetHalf s n ≠ srcOwner n && s.on (R.ICU_STAT (srcOwner n)) F.ICU_STAT_xfence

/-- The event level of a source stands at the cluster its entry names, and at no other; a level that has not crossed a
fenced cut stays away (R329, R332). The upper bits of the target of an event entry are not looked at. -/
def State.routeLevel (s : State) (n : Nat) : State :=
  let a := icuSrc n
  let cl := s.f a F.ICU_SRC_core % 16
  let was := (s.cluster cl).levels.contains n
  let s1 := { s with clusters := s.clusters.map (fun q => (q.1, { q.2 with levels := q.2.levels.filter (· ≠ n) })) }
  if s.on a F.ICU_SRC_en && s.on a F.ICU_SRC_ev && s.on a F.ICU_SRC_pend && (was || !cutOff s n) then
    s1.updCluster cl (fun k => { k with levels := n :: k.levels })
  else s1

/-- The distributor samples a source's line: pend follows it; a fall before the request is served sets lost; an event
level is passed on (R321, R324, R327, R329). -/
def State.sampleLine (s : State) (n : Nat) : State :=
  let a := icuSrc n
  let hi := lineLevel s n
  let served := s.on a F.ICU_SRC_act || (s.on a F.ICU_SRC_ev && (s.cluster (s.f a F.ICU_SRC_core % 16)).levels.contains n)
  let s1 := if !hi && s.on a F.ICU_SRC_pend && s.on a F.ICU_SRC_en && !served then s.setF a F.ICU_SRC_lost 1 else s
  (s1.setF a F.ICU_SRC_pend (if hi then 1 else 0)).routeLevel n

/-- SOURCE_LEVEL_CHANGE (R321): a changed line reaches its distributor; with no change nothing happens. -/
def levelChange (n : Nat) (s : State) : State := if lineLevel s n = s.on (icuSrc n) F.ICU_SRC_pend then s else s.sampleLine n

/-- SOURCE_LEVEL_CHANGE (R321). -/
def execSourceLevelChange (source : Nat) (s : State) : Host.Outcome State Fault Refusal :=
  if source < 1024 then .next (levelChange source s) else .fault .noSuchUnit

/-- PIN_LEVEL_FILTERED (R322): pin `pin` (0 to 7 West, 8 to 15 East) has held a level for filt edges, and the level counts. -/
def pinFiltered (pin : Nat) (level : Bool) (s : State) : State :=
  let rest := s.icu.pins.filter (· ≠ pin)
  levelChange (896 + pin) { s with icu := { s.icu with pins := if level then pin :: rest else rest } }

/-- PIN_LEVEL_FILTERED (R322). -/
def execPinLevelFiltered (pin : Nat) (level : Bool) (s : State) : Host.Outcome State Fault Refusal :=
  if pin < 16 then .next (pinFiltered pin level s) else .fault .noSuchUnit

/-! ## Presentation (R325, R328, R332) -/

/-- The sources whose owner's routing entry differs from its reset value. -/
def icuListed (s : State) : List Nat :=
  s.regs.filterMap (fun q =>
    let o := q.1 - R.ICU_SRC 0 0
    let n := o % 0x10000 / 4
    if decide (R.ICU_SRC 0 0 ≤ q.1) && decide (o / 0x10000 < 2) && decide (o % 0x10000 < 0x1000) && srcOwner n = o / 0x10000 then some n else none)

/-- Whether a source is routed to a slot of a core, a bank (0 to 7) or the fast slot (8). -/
def routedTo (s : State) (c slot n : Nat) : Bool :=
  let a := icuSrc n
  !s.on a F.ICU_SRC_ev && s.f a F.ICU_SRC_core = c &&
    (if slot = 8 then s.on a F.ICU_SRC_cls else !s.on a F.ICU_SRC_cls && s.f a F.ICU_SRC_bank = slot)

/-- The source a slot is to be presented: of the eligible ones that of highest priority, among equals the lowest. -/
def bestSource (s : State) (c slot : Nat) : Option Nat :=
  let l := (icuListed s).filter (routedTo s c slot)
  if l.any (fun n => s.on (icuSrc n) F.ICU_SRC_act) then none
  else
    argMin (fun n => (15 - s.f (icuSrc n) F.ICU_SRC_prio) * 1024 + n)
      (l.filter (fun n =>
        let a := icuSrc n
        s.on a F.ICU_SRC_en && s.on a F.ICU_SRC_pend && (slot = 8 || s.f a F.ICU_SRC_lvl ≠ 0) &&
          (!cutOff s n || (s.core c).pres.any (fun p => p.2 = n))))

/-- A slot of a core sees no source, or this one. -/
def State.present (s : State) (c slot : Nat) (n : Option Nat) : State :=
  s.updCore c (fun k => { k with pres := match n with
    | some m => mset k.pres slot m
    | none => mdel k.pres slot })

/-- SOURCE_PRESENTATION (R325): what the slot is presented is decided anew; a fast source of a core without the fast class
sets cfg_err instead (R328), and the checker of a formed pair is presented nothing (R490). -/
def presentation (c slot : Nat) (s : State) : State :=
  match (if isChecker s c then none else bestSource s c slot) with
  | none => s.present c slot none
  | some n =>
    if slot = 8 && !s.on (R.SCHED_CORE (clusterOf c) (c % 8)) F.SCHED_CORE_fast_en then
      ((s.setF (R.ICU_STAT (srcOwner n)) F.ICU_STAT_cfg_src n).setF (R.ICU_STAT (srcOwner n)) F.ICU_STAT_cfg_err 1).present c slot none
    else s.present c slot (some n)

/-- SOURCE_PRESENTATION (R325): it waits for the core's clock (R38, R330). -/
def execSourcePresentation (core slot : Nat) (s : State) : Host.Outcome State Fault Refusal :=
  if slot < 9 then atRunning 128 core (coreClocked s core) s (presentation core slot) else .fault .noSuchUnit

/-! ## Notices (R326, R327) -/

/-- No slot of any core sees a source any more. -/
def State.withdraw (s : State) (n : Nat) : State :=
  { s with cores := s.cores.map (fun q => (q.1, { q.2 with pres := q.2.pres.filter (fun p => p.2 ≠ n) })) }

/-- ACCEPT_NOTICE (R326): act is set, even of a source whose line has fallen; a notice lost in the fence is not resent
(R332). -/
def acceptNotice (n : Nat) (s : State) : State :=
  if s.notices.contains (true, n) then
    let s1 := { s with notices := dropFirst (· = (true, n)) s.notices }
    if cutOff s n then s1 else (s1.withdraw n).setF (icuSrc n) F.ICU_SRC_act 1
  else s

/-- ACCEPT_NOTICE (R326). -/
def execAcceptNotice (source : Nat) (s : State) : Host.Outcome State Fault Refusal :=
  if source < 1024 then .next (acceptNotice source s) else .fault .noSuchUnit

/-- END_NOTICE (R327): act is cleared and the line sampled. -/
def endNotice (n : Nat) (s : State) : State :=
  if s.notices.contains (false, n) then
    let s1 := { s with notices := dropFirst (· = (false, n)) s.notices }
    if cutOff s n then s1 else (s1.setF (icuSrc n) F.ICU_SRC_act 0).sampleLine n
  else s

/-- END_NOTICE (R327). -/
def execEndNotice (source : Nat) (s : State) : Host.Outcome State Fault Refusal :=
  if source < 1024 then .next (endNotice source s) else .fault .noSuchUnit

/-! ## Register writes (R335, R336) -/

/-- ICU_SWL: the software line of the number takes the level, if the block owns it. -/
def swlWrite (half : Nat) (v : Word) (s : State) : State :=
  let n := fld v 0 10
  if 912 ≤ n ∧ srcOwner n = half then
    { s with icu := { s.icu with soft := if bit v 10 then n :: s.icu.soft.filter (· ≠ n) else s.icu.soft.filter (· ≠ n) } }
  else s

/-- ICU_SWL (R335). -/
def execIcuSwl (ag : Agent) (half : Nat) (v : Word) (s : State) : Host.Outcome State Fault Refusal :=
  atUnit 2 half s (fun s => regCmd .icu (R.ICU_SWL half) ag s (swlWrite half v))

/-- What a write makes of a routing entry: RWL fields under the block's lock, act and lost W1C, pend the line's. -/
def srcEntry (locked : Bool) (old v : Word) : Word :=
  let o := if locked then old else setFld v 28 36 (old.toNat / 2 ^ 28)
  let w := fun (x : Word) (i : Nat) => if bit v i then setBit x i false else x
  w (w (setFld o 31 33 0) 29) 30

/-- ICU_SRC_WRITE (R336): entries the block does not hold ignore it, and so do, from the Open world, entries of level M, of
sources 736 to 739, and a level M to be written; a source presented and not accepted is withdrawn, and an event level goes
to its new cluster. -/
def srcWrite (ag : Agent) (half n : Nat) (v : Word) (s : State) : State :=
  let a := R.ICU_SRC half n
  let closedOnly := s.f a F.ICU_SRC_lvl = 3 || fld v 13 2 = 3 || (decide (736 ≤ n) && decide (n < 740))
  if !icuHas half n || (closedOnly && !ag.closed) then s
  else
    let s1 := s.setReg a (srcEntry (s.on (R.ICU_CTL half) F.ICU_CTL_lock) (s.reg a) v)
    if srcOwner n = half then (s1.withdraw n).routeLevel n else s1

/-- ICU_SRC_WRITE (R336). -/
def execIcuSrcWrite (ag : Agent) (half source : Nat) (v : Word) (s : State) : Host.Outcome State Fault Refusal :=
  if source < 1024 then atUnit 2 half s (fun s => regCmd .icu (R.ICU_SRC half source) ag s (srcWrite ag half source v)) else .fault .noSuchUnit

/-! ## Wakes (R330, R331) -/

/-- Whether an enabled pending source is routed to a core as an interrupt, or its scheduler has a switch or load for it. -/
def wakeWanted (s : State) (c : Nat) : Bool :=
  (icuListed s).any (fun n =>
    let a := icuSrc n
    s.on a F.ICU_SRC_en && !s.on a F.ICU_SRC_ev && s.on a F.ICU_SRC_pend && s.f a F.ICU_SRC_core = c && !cutOff s n) ||
  (s.cluster (clusterOf c)).decide_.any (fun p => p.1 = c % 8) || (nextOut s c).isSome

/-- CORE_WAKE_REQUEST (R330, R331): a sleeping core with a reason to wake has its wake asked for. -/
def wakeRequest (c : Nat) (s : State) : State :=
  if s.on (R.PWR_CORE c) F.PWR_CORE_asleep && wakeWanted s c then
    { s with icu := { s.icu with wake := c :: s.icu.wake.filter (· ≠ c) } }
  else s

/-- CORE_WAKE_REQUEST (R330). -/
def execCoreWakeRequest (core : Nat) (s : State) : Host.Outcome State Fault Refusal := atUnit 128 core s (wakeRequest core)

end Sys2Proof.Machine
end

