-- ==== Sys2Proof/Machine/Ledger.lean ====
section
/-! DEFINITION. The Ledger: encoder settings, admission of chunks, the output stream and its sinks, halts and releases (R524 to
R532, R534, R536, R539). -/

namespace Sys2Proof.Machine

/-- A write of a TRC_ register; a powered-down Ledger ignores it (R534). -/
def trcCmd (a : Nat) (ag : Agent) (s : State) (f : State → State) : State :=
  regCmd .trc a ag s (fun s => if domOn s 217 then f s else s)

/-! ## Encoders (R524, R527) -/

/-- The fields of TRC_ENC that a write sets while en is 0. -/
def encFields (old v : Word) : Word := setFld (setFld (setFld old 1 7 (fld v 1 7)) 10 18 (fld v 10 18)) 28 1 (fld v 28 1)

/-- An encoder is idle, and its packets are discarded; what it lost is still to be told. -/
def State.encIdle (s : State) (c : Nat) : State :=
  let e := s.enc c
  let lost := ((s.chunks.filter (fun k => k.src = c)).map (·.lost)).foldl Loss.join {}
  let s1 := s.setF (R.TRC_ENC c) F.TRC_ENC_state 0
  { s1.setEnc c { e with buf := [], sync := false, need := none, excl := false, wake := none, since := 0, before := {}, lost := (lost.join e.before).join e.lost }
    with chunks := s1.chunks.filter (fun k => k.src ≠ c) }

/-- TRACE_ENCODER_ENABLE (R524, R539): a write of TRC_ENC. -/
def encWrite (c : Nat) (v : Word) (s : State) : State :=
  let a := R.TRC_ENC c
  if s.on a F.TRC_ENC_en then (if bit v 0 then s else (s.setF a F.TRC_ENC_en 0).encIdle c)
  else
    let s1 := s.setReg a (encFields (s.reg a) v)
    if !bit v 0 then s1
    else
      let st := s1.f a F.TRC_ENC_start
      let s2 := s1.setF a F.TRC_ENC_en 1
      if st = 0 || st = 3 then (s2.setF a F.TRC_ENC_state 2).setEnc c { s2.enc c with need := some 1 }
      else s2.setF a F.TRC_ENC_state 1

/-- TRACE_ENCODER_ENABLE (R524). -/
def execTraceEncoderEnable (ag : Agent) (core : Nat) (v : Word) (s : State) : Host.Outcome State Fault Refusal :=
  atUnit 128 core s (fun s => trcCmd (R.TRC_ENC core) ag s (encWrite core v))

/-- TRACE_TRIGGER (R524). -/
def execTraceTrigger (ag : Agent) (s : State) : Host.Outcome State Fault Refusal := .next (trcCmd R.TRC_CTL ag s State.trigger)

/-- CHUNK_CLOSE_TIMEOUT (R527): 64 [ledger] edges, two of [ref], without a packet close the open chunk. -/
def chunkTimeout (c : Nat) (s : State) : State := if (s.enc c).lastAt + 2 ≤ s.ref then s.closeChunk c else s

/-- CHUNK_CLOSE_TIMEOUT (R527). -/
def execChunkCloseTimeout (core : Nat) (s : State) : Host.Outcome State Fault Refusal := atRunning 128 core (domOn s 217) s (chunkTimeout core)

/-! ## Admission (R528, R529) -/

def State.updLedger (s : State) (f : Ledger → Ledger) : State := { s with ledger := f s.ledger }

/-- What a chunk occupies: its packets with the length and the source-ID byte (R527). -/
def Chunk.size (k : Chunk) : Nat := k.bytes.length + 2

/-- The free bytes of the merge buffer. -/
def Ledger.free (l : Ledger) : Nat := 32768 - (l.merge.map Chunk.size).sum

/-- The priority of a chunk's source. -/
def chunkPrio (s : State) (k : Chunk) : Nat := if k.src < 128 then s.f (R.TRC_SRC k.src) F.TRC_SRC_prio else k.prio

/-- The chunk the Ledger takes: of highest priority, then the source next after the one last taken. -/
def nextChunk (s : State) : Option Chunk :=
  argMin (fun k => (3 - chunkPrio s k) * 256 + (k.src + 255 - s.ledger.last) % 256) s.chunks

/-- The chunk of source 255 that tells a source's losses. -/
def dropChunk (src : Nat) (l : Loss) : Chunk :=
  { src := 255, prio := 3, bytes := pktHead 7 l.cause :: BitVec.ofNat 8 src :: (uvar l.bytes ++ wordBytes 6 l.first) }

/-- A source's losses are told ahead of its chunk, where the DROP fits; else they carry over. -/
def State.tellLoss (s : State) (src : Nat) : State :=
  let l := mget {} s.ledger.losses src
  let d := dropChunk src l
  if l.bytes = 0 || decide (s.ledger.free < d.size) then s
  else s.updLedger (fun g => { g with merge := g.merge ++ [d], losses := mdel g.losses src })

/-- The bytes of a chunk are lost for a cause. -/
def State.loseChunk (s : State) (k : Chunk) (cause : Nat) : State :=
  (s.updLedger (fun g => { g with losses := mset g.losses k.src ((mget ({} : Loss) g.losses k.src).gain k.bytes.length cause s.ref) })).lostBytes k.src k.bytes.length

/-- A chunk is admitted where the space left for its priority holds it, and else lost: a core's later chunks are then
discarded until one begins with a SYNC. -/
def State.judgeChunk (s : State) (k : Chunk) : State :=
  if k.size + s.f R.TRC_CTL F.TRC_CTL_reserve * (3 - chunkPrio s k) * 1024 ≤ s.ledger.free then
    s.updLedger (fun g => { g with merge := g.merge ++ [k] })
  else
    let s1 := s.loseChunk k 2
    if k.src < 128 then
      (s1.updLedger (fun g => { g with skip := k.src :: g.skip.filter (· ≠ k.src) })).setEnc k.src { s1.enc k.src with need := some 2 }
    else s1

/-- The output of a stopped sink is discarded and counted (R531, R532). -/
def State.discardOutput (s : State) : State :=
  if s.ledger.stopped then
    ((s.ledger.merge.foldl (fun s k => s.lostBytes k.src k.bytes.length) s).incSat R.TRC_LOST F.TRC_LOST_bytes s.ledger.out.length).updLedger
      (fun g => { g with merge := [], out := [] })
  else s

/-- CHUNK_ADMISSION (R528): one waiting chunk is taken. -/
def chunkAdmission (s : State) : State :=
  if !s.on R.TRC_CTL F.TRC_CTL_en then s
  else match nextChunk s with
    | none => s
    | some k =>
      let s1 := { s with chunks := dropFirst (· = k) s.chunks }.updLedger (fun g => { g with
        last := k.src, losses := if k.lost.bytes = 0 then g.losses else mset g.losses k.src ((mget ({} : Loss) g.losses k.src).join k.lost) })
      if k.src < 128 && !k.sync && s1.ledger.skip.contains k.src then s1.loseChunk k 0
      else
        let s2 := s1.updLedger (fun g => { g with skip := g.skip.filter (· ≠ k.src) })
        ((s2.tellLoss k.src).judgeChunk k).discardOutput

/-- CHUNK_ADMISSION (R528). -/
def execChunkAdmission (s : State) : Host.Outcome State Fault Refusal := .next (if domOn s 217 then chunkAdmission s else s)

/-! ## The stream (R530) -/

/-- The marker that begins each block of 4 KiB. -/
def marker : List Byte := wordBytes 8 0x7FFFFFFFFFFFFFFF

/-- A chunk as it stands in the stream. -/
def Chunk.stream (k : Chunk) : List Byte := BitVec.ofNat 8 k.bytes.length :: BitVec.ofNat 8 k.src :: k.bytes

/-- What the stream gains by a chunk at a position: a marker where a block begins, and padding to the next block where the
chunk does not fit this one. -/
def streamBytes (pos : Nat) (k : Chunk) : List Byte :=
  let m := if pos % 4096 = 0 then marker else []
  let p := (pos + m.length) % 4096
  if p + k.size ≤ 4096 then m ++ k.stream else m ++ List.replicate (4096 - p) 0 ++ marker ++ k.stream

/-- Chunks join the stream until `n` bytes of it wait or none is left; `fuel` bounds the chunks. -/
def Ledger.fill (g : Ledger) (n : Nat) : Nat → Ledger
  | 0 => g
  | fuel + 1 =>
    if n ≤ g.out.length then g
    else match g.merge with
      | [] => g
      | k :: rest =>
        let b := streamBytes g.pos k
        Ledger.fill { g with merge := rest, out := g.out ++ b, pos := g.pos + b.length } n fuel

/-- The next 64 bytes of the stream, padded where fewer wait; none when nothing waits. -/
def Ledger.line (g : Ledger) : Option (List Byte) × Ledger :=
  let h := g.fill 64 64
  if h.out = [] then (none, h)
  else
    let pad := 64 - h.out.length
    (some (h.out.take 64 ++ List.replicate pad 0), { h with out := h.out.drop 64, pos := h.pos + pad })

/-! ## The memory sink (R531, R532) -/

/-- The sink stops: with `err` for a failed write, else because the ring is full. -/
def State.stopSink (s : State) (err : Bool) : State :=
  ((if err then s.setF R.TRC_STAT F.TRC_STAT_err 1 else s.setF R.TRC_STAT F.TRC_STAT_full 1).updLedger (fun g => { g with stopped := true })).discardOutput

/-- The answer to a sink write that waits for the Ledger: its packet and whether it acknowledges. -/
def sinkAnswer (s : State) : Option (Pkt × Bool) :=
  (s.inbox.find? (fun p => p.dst = ledgerUnit && p.net = 1 && s.ledger.sent.any (fun x => x.1 = p.tag))).map (fun p =>
    (p, decide (p.typ = 0) || decide (p.typ = 1)))

/-- Acknowledgements of sink writes are taken. -/
def State.sinkAcks (s : State) : Nat → State
  | 0 => s
  | n + 1 =>
    match sinkAnswer s with
    | some (p, true) => ((s.take p).updLedger (fun g => { g with sent := g.sent.filter (fun x => x.1 ≠ p.tag) })).sinkAcks n
    | _ => s

/-- The place of the next line moves on; at the end of the ring it wraps, or the sink is full (R531). -/
def State.advanceRing (s : State) : State :=
  let size := 2 ^ s.f R.TRC_MSIZE F.TRC_MSIZE_log2
  let o := s.f R.TRC_MWP F.TRC_MWP_offset + 64
  if o < size then s.setF R.TRC_MWP F.TRC_MWP_offset o
  else if s.on R.TRC_CTL F.TRC_CTL_wrap then (s.setF R.TRC_MWP F.TRC_MWP_offset 0).setF R.TRC_MWP F.TRC_MWP_wrapped 1
  else (s.setF R.TRC_MWP F.TRC_MWP_offset o).stopSink false

/-- One line of the stream is written to the ring; an address that does not decode answers with an error. -/
def State.writeLine (s : State) (bytes : List Byte) : State :=
  let pa := s.f R.TRC_MBASE F.TRC_MBASE_base * 4096 + s.f R.TRC_MWP F.TRC_MWP_offset
  let m := (s.router (ledgerUnit / 4)).map
  if decodeFails m false true pa then s.stopSink true
  else
    let tag := s.nextTag ledgerUnit
    ((s.updLedger (fun g => { g with sent := g.sent ++ [(tag, rtoLate s (ledgerUnit / 4))] })).request
      { net := 0, typ := 9, src := ledgerUnit, dst := targetUnit m pa, size := 6, pa := pa, data := BitVec.ofNat 512 (bytesNat bytes),
        mask := BitVec.allOnes 64 }).advanceRing

/-- MEMORY_SINK_WRITE (R531): the acknowledgements that wait are taken, and one line of stream leaves, where one waits. -/
def memorySink (s : State) : State :=
  let s := s.sinkAcks s.inbox.length
  if s.f R.TRC_CTL F.TRC_CTL_sink ≠ 1 || s.ledger.stopped || !(s.on R.TRC_CTL F.TRC_CTL_en || s.on R.TRC_STAT F.TRC_STAT_busy) then s
  else match s.ledger.line with
    | (none, _) => s
    | (some l, g) => { s with ledger := g }.writeLine l

/-- MEMORY_SINK_WRITE (R531). -/
def execMemorySinkWrite (s : State) : Host.Outcome State Fault Refusal := .next (if domOn s 217 then memorySink s else s)

/-- A sink write that has had no answer in time. -/
def sinkLate (s : State) : Option Nat :=
  (s.ledger.sent.find? (fun x => decide (x.2 ≤ s.ref))).map (·.1)

/-- SINK_ERROR (R291, R532): an error answer, or no answer within rto, stops the sink. -/
def sinkError (s : State) : State :=
  let s := s.sinkAcks s.inbox.length
  match sinkAnswer s, sinkLate s with
  | some (p, _), _ => ((s.take p).updLedger (fun g => { g with sent := g.sent.filter (fun x => x.1 ≠ p.tag) })).stopSink true
  | none, some tag => ((s.loseTag ledgerUnit tag).updLedger (fun g => { g with sent := g.sent.filter (fun x => x.1 ≠ tag) })).stopSink true
  | none, none => s

/-- SINK_ERROR (R532). -/
def execSinkError (s : State) : Host.Outcome State Fault Refusal := .next (if domOn s 217 then sinkError s else s)

/-- The trace port on one [ref] edge: 16 TRCLK periods of 4 bytes of stream or padding; low when it is not the sink (R531). -/
def State.portOut (s : State) : State :=
  let g := s.ledger
  let runs := domOn s 217 && s.f R.TRC_CTL F.TRC_CTL_sink = 2 && (s.on R.TRC_CTL F.TRC_CTL_en || s.on R.TRC_STAT F.TRC_STAT_busy)
  if !runs then (if g.port = [] then s else s.updLedger (fun g => { g with port := [] }))
  else
    match g.line with
    | (some l, h) => { s with ledger := { h with port := l } }
    | (none, h) =>
      let m := if h.pos % 4096 = 0 then marker else []
      { s with ledger := { h with port := m ++ List.replicate (64 - m.length) 0, pos := h.pos + 64 } }

/-! ## Enabling and flushing (R532) -/

/-- The settings of TRC_CTL that a write sets. -/
def State.ctlFields (s : State) (v : Word) : State :=
  s.setReg R.TRC_CTL (setFld (setFld (s.reg R.TRC_CTL) 1 7 (fld v 1 7)) 12 8 (fld v 12 8))

/-- Whether the ring of the memory sink is refused. -/
def ringBad (s : State) : Bool :=
  let g := s.f R.TRC_MSIZE F.TRC_MSIZE_log2
  s.f R.TRC_CTL F.TRC_CTL_sink = 1 &&
    (!(decide (16 ≤ g) && decide (g ≤ 30)) || s.f R.TRC_MBASE F.TRC_MBASE_base * 4096 % 2 ^ g ≠ 0)

/-- LEDGER_ENABLE (R532): a write of TRC_CTL with en = 1. -/
def ledgerEnable (v : Word) (s : State) : State :=
  let s1 := s.ctlFields v
  if ringBad s1 then (s1.setF R.TRC_CTL F.TRC_CTL_en 0).setF R.TRC_STAT F.TRC_STAT_err 1
  else
    (((s1.setF R.TRC_CTL F.TRC_CTL_en 1).setF R.TRC_STAT F.TRC_STAT_busy 0).setReg R.TRC_MWP 0).updLedger
      (fun g => { g with stopped := false, out := [], pos := 0 })

/-- LEDGER_ENABLE (R532). -/
def execLedgerEnable (ag : Agent) (v : Word) (s : State) : Host.Outcome State Fault Refusal := .next (trcCmd R.TRC_CTL ag s (ledgerEnable v))

/-- LEDGER_DISABLE (R532): a write of TRC_CTL with en = 0; the flush begins. -/
def ledgerDisable (v : Word) (s : State) : State :=
  let s1 := s.ctlFields v
  if s.on R.TRC_CTL F.TRC_CTL_en then (s1.setF R.TRC_CTL F.TRC_CTL_en 0).setF R.TRC_STAT F.TRC_STAT_busy 1 else s1

/-- LEDGER_DISABLE (R532). -/
def execLedgerDisable (ag : Agent) (v : Word) (s : State) : Host.Outcome State Fault Refusal := .next (trcCmd R.TRC_CTL ag s (ledgerDisable v))

/-- LEDGER_FLUSH_END (R532): once the sink has taken everything, busy clears; with no sink there is nothing to take it. -/
def flushEnd (s : State) : State :=
  let none_ := s.f R.TRC_CTL F.TRC_CTL_sink = 0 || s.f R.TRC_CTL F.TRC_CTL_sink = 3
  if !s.on R.TRC_STAT F.TRC_STAT_busy then s
  else if none_ then (s.updLedger (fun g => { g with merge := [], out := [] })).setF R.TRC_STAT F.TRC_STAT_busy 0
  else if s.ledger.merge = [] && s.ledger.out = [] then s.setF R.TRC_STAT F.TRC_STAT_busy 0
  else s

/-- LEDGER_FLUSH_END (R532). -/
def execLedgerFlushEnd (s : State) : Host.Outcome State Fault Refusal := .next (if domOn s 217 then flushEnd s else s)

/-- TRC_LOST_CLEAR (R539). -/
def execTrcLostClear (ag : Agent) (s : State) : Host.Outcome State Fault Refusal :=
  .next (trcCmd R.TRC_LOST ag s (fun s => s.setF R.TRC_LOST F.TRC_LOST_bytes 0))

/-! ## Halt and release (R536) -/

/-- TRC_HSTAT takes a result and the hold of the target. -/
def State.haltStat (s : State) (rstat : Nat) (held : Bool) : State :=
  (s.setF R.TRC_HSTAT F.TRC_HSTAT_rstat rstat).setF R.TRC_HSTAT F.TRC_HSTAT_held (if held then 1 else 0)

/-- HALT (R536): refused where its core has no debug events or the thread does not exist; else it waits for the thread's next
boundary at depth 0, in place of a command that waits (R375). -/
def haltCmd (k n : Nat) (s : State) : State :=
  let mode := s.f (R.TRC_DCFG (thrCore s k n)) F.TRC_DCFG_mode
  let held := (s.cluster k).held.contains n
  let s1 := { s with dbg := { s.dbg with hcmd := none } }
  if mode = 0 ∨ mode = 3 ∨ thrState s k n = 0 ∨ thrState s k n = 6 then s1.haltStat 3 held
  else if held then s1.haltStat 1 true
  else { s1.haltStat 0 false with dbg := { s1.dbg with hcmd := some (k, n) } }

/-- RELEASE (R536): the hold goes and the thread is READY-OUT. -/
def releaseCmd (k n : Nat) (s : State) : State :=
  let s1 := { s with dbg := { s.dbg with hcmd := none } }.haltStat 1 false
  if (s.cluster k).held.contains n then
    (s1.updCluster k (fun q => { q with held := q.held.filter (· ≠ n) })).setThrState k n 2
  else s1

/-- HALT (R536). -/
def execHalt (ag : Agent) (cluster thread : Nat) (s : State) : Host.Outcome State Fault Refusal :=
  if cluster < 16 ∧ thread < 256 then .next (trcCmd R.TRC_HCMD ag s (haltCmd cluster thread)) else .fault .noSuchUnit

/-- RELEASE (R536). -/
def execRelease (ag : Agent) (cluster thread : Nat) (s : State) : Host.Outcome State Fault Refusal :=
  if cluster < 16 ∧ thread < 256 then .next (trcCmd R.TRC_HCMD ag s (releaseCmd cluster thread)) else .fault .noSuchUnit

end Sys2Proof.Machine
end

