-- ==== Sys2Proof/Machine/Pmu.lean ====
section
/-! DEFINITION. Device modes, snapshots, readout, sampling records and bandwidth windows of the performance monitors (R548 to
R560). -/

namespace Sys2Proof.Machine

def State.updPmu (s : State) (f : Pmu → Pmu) : State := { s with pmu := f s.pmu }

/-! ## Device modes (R548) -/

/-- A mode is entered, or the command is refused with err. -/
def State.enterMode (s : State) (ok : Bool) (m : Nat) : State :=
  if ok then s.setF R.PMU_MODE F.PMU_MODE_mode m else s.setF R.PMU_MODE F.PMU_MODE_err 1

def deviceMode (s : State) : Nat := s.f R.PMU_MODE F.PMU_MODE_mode

/-- PMU_MODE.cmd 1: from START-UP or RECOVERY, from P or M. -/
def serviceWrite (ag : Agent) (s : State) : State := s.enterMode ((deviceMode s = 0 || deviceMode s = 2) && decide (2 ≤ ag.pl.toNat)) 1

/-- PMU_MODE.cmd 2: from SERVICE, from world 1. -/
def recoveryWrite (ag : Agent) (s : State) : State := s.enterMode (deviceMode s = 1 && ag.closed) 2

/-- PMU_MODE.cmd 3: from START-UP, from world 1, by lifecycle or with Closed invasive debug. -/
def testWrite (ag : Agent) (s : State) : State :=
  s.enterMode (deviceMode s = 0 && ag.closed && (s.sec.life = 0 || s.sec.life = 2 || authorised s 3)) 3

/-- SERVICE_MODE (R548). -/
def execServiceMode (ag : Agent) (s : State) : Host.Outcome State Fault Refusal := .next (regCmd .pmu R.PMU_MODE ag s (serviceWrite ag))
/-- RECOVERY_MODE (R548). -/
def execRecoveryMode (ag : Agent) (s : State) : Host.Outcome State Fault Refusal := .next (regCmd .pmu R.PMU_MODE ag s (recoveryWrite ag))
/-- TEST_MODE (R548). -/
def execTestMode (ag : Agent) (s : State) : Host.Outcome State Fault Refusal := .next (regCmd .pmu R.PMU_MODE ag s (testWrite ag))

/-! ## Snapshot and freeze (R550 to R552) -/

/-- A write of PMU_SNAP.op: the command acts at tick τ; while one is pending it is lost. -/
def snapOp (op : Nat) (s : State) : State :=
  if s.on R.PMU_SNAP F.PMU_SNAP_pend then s.setF R.PMU_SNAP F.PMU_SNAP_lost 1
  else
    (s.setF R.PMU_SNAP F.PMU_SNAP_pend 1).updPmu (fun p => { p with snap := some (op, max (s.f R.PMU_SNAPAT F.PMU_SNAPAT_at) (s.ref + 32)) })

/-- A write of PMU_SNAP.op by an agent. -/
def snapCmd (op : Nat) (ag : Agent) (s : State) : Host.Outcome State Fault Refusal := .next (regCmd .pmu R.PMU_SNAP ag s (snapOp op))

/-- SNAPSHOT (R550). -/
def execSnapshot (ag : Agent) (s : State) : Host.Outcome State Fault Refusal := snapCmd 1 ag s
/-- FREEZE (R550). -/
def execFreeze (ag : Agent) (s : State) : Host.Outcome State Fault Refusal := snapCmd 2 ag s
/-- UNFREEZE (R550). -/
def execUnfreeze (ag : Agent) (s : State) : Host.Outcome State Fault Refusal := snapCmd 3 ag s
/-- FREEZE_AND_SNAPSHOT (R550). -/
def execFreezeAndSnapshot (ag : Agent) (s : State) : Host.Outcome State Fault Refusal := snapCmd 4 ag s

/-- The place of a sampled counter. -/
def shadowKey (island page k : Nat) : Nat := island * 2 ^ 14 + page * 2 ^ 8 + k

/-- Whether an island's domain is OFF (R494, R552). -/
def islandOff (s : State) (i : Nat) : Bool :=
  if i < 128 then domState s i = 0
  else if decide (190 ≤ i) && decide (i < 200) then domState s (i - 30) = 0
  else false

/-- The islands that hold counters (R540). -/
def counterIslands : List Nat := List.range 128 ++ (List.range 40).map (160 + ·)

/-- The place in a pipeline's pages of a counter or time register (R553). -/
def pipeCell (a : Nat) : Option Nat :=
  match findReg a with
  | none => none
  | some r =>
    let j := r.inst
    let n := r.d.name
    if n == "ETH_CNT" then some (shadowKey (198 + j / 20) (j % 20) r.idx1)
    else if n == "CAN_CNT" then some (shadowKey (198 + j / 12) (20 + j % 12 / 6) (10 * (j % 6) + r.idx1))
    else if n == "LIN_CNT" then some (shadowKey (198 + j / 8) 22 (5 * (j % 8) + r.idx1))
    else if n == "CAN_GW_CNT" then some (shadowKey (198 + j / 12) 23 r.idx1)
    else if n == "TSN_TNS" then some (shadowKey (198 + j / 20) 23 8)
    else if n == "TSN_TFR" then some (shadowKey (198 + j / 20) 23 9)
    else none

/-- A sampled count with its wrap flag. -/
def sampled (s : State) (key v : Nat) : Nat := v % 2 ^ 48 + (if s.pmu.wraps.contains key then 2 ^ 48 else 0)

/-- The copies of a sample: every counter of every island, zeros of one that is OFF. -/
def shadowOf (s : State) : SMap Nat :=
  let m := s.pmu.cnt.foldl (fun m q =>
    if islandOff s (q.1 / 64) then m else mset m (shadowKey (q.1 / 64) 0 (q.1 % 64)) (sampled s q.1 q.2)) []
  s.regs.foldl (fun m q =>
    match pipeCell q.1 with
    | some k => if islandOff s (k / 2 ^ 14) then m else mset m k (sampled s q.1 q.2.toNat)
    | none => m) m

/-- A snapshot of tick τ. -/
def State.takeSnapshot (s : State) (tau : Nat) : State :=
  ((s.setF R.PMU_SNAPT F.PMU_SNAPT_tick tau).incWrap R.PMU_SNAPT F.PMU_SNAPT_sn 1).updPmu (fun p => { p with
    shadow := shadowOf s, off := counterIslands.filter (islandOff s), wraps := [], svc := serviceMode s })

/-- SNAPSHOT_TICK (R551): once tick τ has come the command acts in every island. -/
def snapshotTick (s : State) : State :=
  match s.pmu.snap with
  | none => s
  | some (op, tau) =>
    if op = 0 ∨ s.ref < tau then s
    else
      let s1 := s.updPmu (fun p => { p with snap := some (0, tau) })
      let s2 := if op = 1 ∨ op = 4 then s1.takeSnapshot tau else s1
      if op = 1 then s2 else s2.setF R.PMU_SNAP F.PMU_SNAP_frozen (if op = 3 then 0 else 1)

/-- SNAPSHOT_TICK (R551). -/
def execSnapshotTick (s : State) : Host.Outcome State Fault Refusal := .next (snapshotTick s)

/-- PMU_SNAP.pend reads 1 until tick τ + 1 of a command that has acted (R550). -/
def State.endPend (s : State) : State :=
  match s.pmu.snap with
  | some (0, tau) => if tau < s.ref then (s.setF R.PMU_SNAP F.PMU_SNAP_pend 0).updPmu (fun p => { p with snap := none }) else s
  | _ => s

/-! ## Readout (R549, R553) -/

/-- The number of counters of a page of an island; none: there is no such page. -/
def pageLen (island page : Nat) : Option Nat :=
  if island < 128 then (if page = 0 then some 64 else none)
  else if island < 160 then none
  else if island < 198 then (if page = 0 then some 16 else none)
  else if island < 200 then
    (if page < 20 then some 24 else if page < 22 then some 60 else if page = 22 then some 40 else if page = 23 then some 10 else none)
  else none

/-- The copy of a page that a readout latches, by index, with the wrap and masked bits. -/
def pageCopy (s : State) (island page n : Nat) : SMap Nat :=
  (List.range n).map (fun k =>
    (k, if decide (island < 128) && s.pmu.svc && maskedEvent k then 2 ^ 49 else mget 0 s.pmu.shadow (shadowKey island page k)))

/-- PMU_READOUT (R553): the request names an island and a page; its copy is latched and the readout is under way. -/
def readout (v : Word) (s : State) : State :=
  let i := fld v 0 8
  let p := fld v 8 5
  let s1 := (s.setF R.PMU_RD F.PMU_RD_island i).setF R.PMU_RD F.PMU_RD_page p
  match pageLen i p with
  | none => (s1.setF R.PMU_RD F.PMU_RD_rstat 3).updPmu (fun x => { x with rd := none })
  | some n => (s1.setF R.PMU_RD F.PMU_RD_rstat 0).updPmu (fun x => { x with
      rd := some (i, p), copy := pageCopy s i p n, copySn := s.f R.PMU_SNAPT F.PMU_SNAPT_sn, copyOff := s.pmu.off.contains i })

/-- PMU_READOUT (R553). -/
def execPmuReadout (ag : Agent) (v : Word) (s : State) : Host.Outcome State Fault Refusal := .next (regCmd .pmu R.PMU_RD ag s (readout v))

/-- PMU_READOUT_COMPLETE (R549, R553): the copy stands in PMU_VAL; in SERVICE mode the masked events read 0. -/
def readoutComplete (s : State) : State :=
  match s.pmu.rd with
  | none => s
  | some (i, _) =>
    let s1 := s.pmu.copy.foldl (fun s q =>
      s.setReg (R.PMU_VAL q.1) (BitVec.ofNat 64 (if decide (i < 128) && serviceMode s && maskedEvent q.1 then 2 ^ 49 else q.2))) s
    (((s1.setF R.PMU_RD F.PMU_RD_rstat 1).setF R.PMU_RD F.PMU_RD_off (if s.pmu.copyOff then 1 else 0)).setF R.PMU_RD F.PMU_RD_sn s.pmu.copySn).updPmu
      (fun x => { x with rd := none })

/-- PMU_READOUT_COMPLETE (R553). -/
def execPmuReadoutComplete (s : State) : Host.Outcome State Fault Refusal := .next (readoutComplete s)

/-! ## Sampling (R555, R556) -/

/-- The PC of a sample of a bank: that of the first bundle not issued by edge t + 4, or the stacked PC of an entry; none when
it is hidden. -/
def samplePc (s : State) (c : Nat) (h : Hit) : Option Word :=
  match h.bank, h.pc with
  | none, _ => none
  | some _, some w => if h.hidden then none else some w
  | some bi, none =>
    let b := s.bank c bi
    if pmuHidden s b.psw.world then none
    else match b.entry with
      | some e => some e.pc
      | none => some b.pc

/-- The two words of a sample record, valid and over apart. -/
def sampleRec (s : State) (c : Nat) (h : Hit) : Word × Word :=
  let pc := match samplePc s c h with
    | some w => a48 w + 2 ^ 53
    | none => 0
  (BitVec.ofNat 64 (pc + (h.bank.getD 0) % 8 * 2 ^ 48 + min 3 h.skid * 2 ^ 51), BitVec.ofNat 64 (h.ctx + h.cyc * 2 ^ 32))

/-- SAMPLING_FIRE (R555): on edge t + 4 the oldest sample that waits is recorded. -/
def samplingFire (c : Nat) (s : State) : State :=
  let x := mget {} s.pmu.smp c
  match x.hits with
  | [] => s
  | h :: rest =>
    if (s.core c).cyc < h.at_ + 4 then s
    else s.updPmu (fun p => { p with smp := mset p.smp c { x with hits := rest },
                                     recs := mset p.recs c (mget [] p.recs c ++ [sampleRec s c h]) })

/-- SAMPLING_FIRE (R555). -/
def execSamplingFire (core : Nat) (s : State) : Host.Outcome State Fault Refusal := atRunning 128 core (coreClocked s core) s (samplingFire core)

/-- SAMPLE_RECORD_STORED (R556): a record arrives; while valid is 1 it is discarded and over is set. -/
def recordStored (c : Nat) (s : State) : State :=
  match mget [] s.pmu.recs c with
  | [] => s
  | r :: rest =>
    let s1 := s.updPmu (fun p => { p with recs := mset p.recs c rest })
    let a := R.PMU_SREC0 c
    if s.on a F.PMU_SREC0_valid then s1.setF a F.PMU_SREC0_over 1
    else (s1.setReg a (setFld (setFld r.1 63 1 1) 62 1 (s.f a F.PMU_SREC0_over))).setReg (R.PMU_SREC1 c) r.2

/-- SAMPLE_RECORD_STORED (R556). -/
def execSampleRecordStored (core : Nat) (s : State) : Host.Outcome State Fault Refusal := atUnit 128 core s (recordStored core)

/-! ## Bandwidth windows (R557) -/

/-- The window of a monitor's setting in [ref] ticks. -/
def BwMon.win (m : BwMon) : Nat := max 256 (fld m.set 16 32)

/-- BANDWIDTH_WINDOW_END (R557): at the boundary of a window its total stands in PMU_BWLAST and may raise PMU_BWMAX; the first
boundary of a setting only begins a window. -/
def windowEnd (m : Nat) (s : State) : State :=
  let x := mget {} s.pmu.bw m
  if fld x.set 0 2 = 0 || decide (s.ref < x.edge) then s
  else
    let s1 := s.updPmu (fun p => { p with bw := mset p.bw m { x with on_ := true, bytes := 0, edge := (s.ref / x.win + 1) * x.win } })
    if x.on_ then
      let t := x.bytes % 2 ^ 48
      let s2 := (s1.setF (R.PMU_BWLAST m) F.PMU_BWLAST_bytes t).incWrap (R.PMU_BWLAST m) F.PMU_BWLAST_wins 1
      if s.f (R.PMU_BWMAX m) F.PMU_BWMAX_bytes < t then s2.setF (R.PMU_BWMAX m) F.PMU_BWMAX_bytes t else s2
    else s1

/-- BANDWIDTH_WINDOW_END (R557). -/
def execBandwidthWindowEnd (monitor : Nat) (s : State) : Host.Outcome State Fault Refusal := atUnit 16 monitor s (windowEnd monitor)

/-- BWMAX_CLEAR (R560). -/
def execBwmaxClear (ag : Agent) (monitor : Nat) (s : State) : Host.Outcome State Fault Refusal :=
  atUnit 16 monitor s (fun s => regCmd .pmu (R.PMU_BWMAX monitor) ag s (fun s => s.setF (R.PMU_BWMAX monitor) F.PMU_BWMAX_bytes 0))

/-! ## Settings (R558) -/

/-- A setting comes into force: a comparator counts anew, a monitor restarts at the next boundary of its window. -/
def State.enforce (s : State) (a : Nat) : State :=
  match findReg a with
  | none => s
  | some r =>
    let v := s.reg a
    let j := r.idx1
    if r.d.name == "PMU_SMP" then s.updPmu (fun p => { p with smp := mset p.smp j { mget {} p.smp j with set := v, n := 0 } })
    else if r.d.name == "PMU_BWSEL" then
      let x : BwMon := { set := v }
      s.updPmu (fun p => { p with bw := mset p.bw j { x with edge := (s.ref / x.win + 1) * x.win } })
    else s.updPmu (fun p => { p with force := mset p.force a v })

/-- SETTING_PROPAGATE (R558): a threshold, sampling or monitor setting that was written, named by its register's offset,
reaches its island. -/
def settingPropagate (a : Nat) (s : State) : State :=
  if s.pmu.moved.contains a then (s.updPmu (fun p => { p with moved := p.moved.filter (· ≠ a) })).enforce a else s

/-- SETTING_PROPAGATE (R558). -/
def execSettingPropagate (addr : Nat) (s : State) : Host.Outcome State Fault Refusal := .next (settingPropagate addr s)

end Sys2Proof.Machine
end

