-- ==== Sys2Proof/Machine/RegWrite.lean ====
section
/-! DEFINITION. A write of a configuration register by its address: fields by their types, and what the write does in its
unit (R10 to R15, and the register tables of every chapter). -/

namespace Sys2Proof.Machine

/-! ## Writes that have no effect -/

/-- Whether an entry of an Ethernet port's receive SAs is enabled. -/
def rxEnabled (s : State) (p i : Nat) : Bool := bit (s.reg (R.ETH_MSRXEN p)) i

/-- Whether the whole write is ignored: the block of a checker core (R490), a powered-down Ledger (R534), a register that only
the Closed world writes (R228, R461), a translation entry in use (R231), an SA in use (R409), a pair entry of the other half
(R492). -/
def writeIgnored (s : State) (ag : Agent) (r : RegAt) : Bool :=
  let n := r.d.name
  (match perCore r with
   | some (c, _) => isChecker s c
   | none => false) ||
  match r.kind with
  | .trc => !domOn s 217
  | .mmu => n == "MMU_MROOT" && !ag.closed
  | .pwr => n == "PWR_CWHOLD" && !ag.closed
  | .pcie => (n == "PCIE_ATT1" || n == "PCIE_ATT2") && pcieState s r.inst ≠ 0 && attV s r.inst r.idx1
  | .eth =>
    (n == "ETH_MSTXSA" && (s.f (R.ETH_MSTX r.inst) F.ETH_MSTX_txen).testBit r.idx1) ||
    (n == "ETH_MSRXSC" && (List.range 4).any (fun a => rxEnabled s r.inst (4 * r.idx1 + a))) ||
    (n == "ETH_MSRXSA" && rxEnabled s r.inst (4 * r.idx1 + r.idx2))
  | .safe => n == "SAFE_PAIR" && clusterHalf r.idx1 ≠ r.inst
  | _ => false

/-- Whether a register's own command takes the whole write, no field being left to the types. -/
def writeTaken (r : RegAt) (v : Word) : Bool :=
  let n := r.d.name
  match r.kind with
  | .pcie => n == "PCIE_ATT0"
  | .icu => n == "ICU_SRC"
  | .safe => n == "SAFE_WDT"
  | .seccw => n == "SEC_CW_WDT"
  | .trc => n == "TRC_CTL" || n == "TRC_ENC"
  | .tsn => n == "TSN_GCTL" && bit v 1
  | _ => false

/-! ## The value a write leaves -/

/-- A field of the new value gets back its old one. -/
def keepFld (old new : Word) (x : Fld) (keep : Bool) : Word := if keep then setFld new x.lo x.w (fld old x.lo x.w) else new

/-- The entries of SAFE_FMAP: reserved actions leave a field, and a fixed entry keeps its action (R472, R473). -/
def fmapValue (old new : Word) : Word :=
  let closed := fun (v : Nat) => decide (6 ≤ v) || (decide (v = 5) && !bit old 22)
  let a := keepFld old new F.SAFE_FMAP_act (bit old 22 || closed (fld new F.SAFE_FMAP_act.lo F.SAFE_FMAP_act.w))
  keepFld old a F.SAFE_FMAP_esc (closed (fld new F.SAFE_FMAP_esc.lo F.SAFE_FMAP_esc.w))

/-- The mask of SAs that hold a key. -/
def keyMask (m : SMap Nat) : Nat := m.foldl (fun n q => n ||| 2 ^ q.1) 0

/-- The value of NOC_LINK: a fence that the anchor holds stays (R293). -/
def linkValue (s : State) (r : Nat) (new : Word) : Word :=
  (s.router r).anchorFence.foldl (fun w d => setFld w (linkFld d 1).lo 1 1) new

/-- What a write leaves in a register, beyond the types of its fields (R390, R409, R228, R298, R473). -/
def writeValue (s : State) (ag : Agent) (r : RegAt) (old new : Word) : Word :=
  let n := r.d.name
  match r.kind with
  | .mmu => if n == "MMU_CTL" then keepFld old new F.MMU_CTL_m_en (!ag.closed) else new
  | .noc => if n == "NOC_CTL" then keepFld old new F.NOC_CTL_cw_grp (!ag.closed) else if n == "NOC_LINK" then linkValue s r.inst new else new
  | .eth =>
    if n == "ETH_MSTX" then setFld new 4 4 (fld new 4 4 &&& keyMask (s.port r.inst).txKey)
    else if n == "ETH_MSRXEN" then new &&& BitVec.ofNat 64 (keyMask (s.port r.inst).rxKey)
    else if n == "ETH_BR_VLAN" && (r.idx1 = 0 || r.idx1 = 4095) then setFld new 44 1 0
    else new
  | .safe => if n == "SAFE_FMAP" then fmapValue old new else new
  | _ => new

/-! ## What a write does in its unit -/

/-- SCHED_ and MMU_ registers. -/
def schedEffect (r : RegAt) (v : Word) (s : State) : State :=
  let n := r.d.name
  if n == "SCHED_THR_A" then thrValidate r.inst r.idx1 (bit v 63) s
  else if n == "SCHED_SEM_POST" then semPost r.inst (8 * r.idx1 + r.idx2) (fld v 0 16) s
  else s

/-- The record of lost device stores is cleared with its valid bit (R225). -/
def mmuEffect (ag : Agent) (r : RegAt) (v : Word) (s : State) : State :=
  let n := r.d.name
  let a := R.MMU_DWL r.inst
  if n == "MMU_INV" then mmuInv ag.closed r.inst v s
  else if n == "MMU_DWL" && bit v 63 then (((s.setF a F.MMU_DWL_pa 0).setF a F.MMU_DWL_tenant 0).setF a F.MMU_DWL_bank 0).setF a F.MMU_DWL_dropped 0
  else s

/-- PCIE_ registers; the record of an error is cleared with its valid bit (R237). -/
def pcieEffect (r : RegAt) (v : Word) (s : State) : State :=
  let n := r.d.name
  let j := r.inst
  let a := R.PCIE_ERR j
  if n == "PCIE_CTL" then
    let s1 := if bit v 0 then pcieResume j s else s
    if bit v 1 then pcieStop j s1 else s1
  else if n == "PCIE_ERR" && bit v 63 then ((s.setF a F.PCIE_ERR_addr 0).setF a F.PCIE_ERR_kind 0).setF a F.PCIE_ERR_tenant 0
  else if n == "PCIE_MSIGEN" then msiGen j (fld v 0 5) s
  else if n == "PCIE_ATT0" then attWrite j r.idx1 v s
  else s

/-- CACHE_ registers (R269). -/
def cacheEffect (ag : Agent) (r : RegAt) (v : Word) (s : State) : State :=
  if r.d.name == "CACHE_MAINT" then
    (if fld v 0 2 = 3 then
       (if s.on (R.CACHE_STAT r.inst) F.CACHE_STAT_busy then s.setF (R.CACHE_STAT r.inst) F.CACHE_STAT_lost 1
        else s.setF (R.CACHE_STAT r.inst) F.CACHE_STAT_err 1)
     else cacheMaint (fld v 0 2) r.inst (fld v 2 2) (fld v 4 3) (fld v 8 16) ag.closed s)
  else s

/-- NOC_ registers: a write of 1 to a due bit restarts the count of its input (R290, R298). -/
def nocEffect (r : RegAt) (v : Word) (s : State) : State :=
  let n := r.d.name
  if n == "NOC_ERR" then (if bit v 63 then nocErrClear r.inst s else s)
  else if n == "NOC_LINK" then
    s.updRouter r.inst (fun x => { x with dueCnt := x.dueCnt.filter (fun q => !bit v (linkFld q.1 3).lo) })
  else s

/-- The bucket of a regulator fills when it is enabled, and never holds more than its limit (R315). -/
def regulatorSet (m g : Nat) (old : Word) (s : State) : State :=
  let a := R.DMC_REG m g
  let top := s.f a F.DMC_REG_burst * 64
  let opens := s.on a F.DMC_REG_en && !bit old F.DMC_REG_en.lo
  s.updChan m (fun x => { x with tokens := mset x.tokens g (if opens then top else min top (mget 0 x.tokens g)) })

/-- DMC_ registers. -/
def dmcEffect (r : RegAt) (old v : Word) (s : State) : State :=
  let n := r.d.name
  if n == "DMC_INIT" then (if bit v 0 then initStart r.inst s else s)
  else if n == "DMC_ERR" then (if bit v 63 then dmcErrClear r.inst s else s)
  else if n == "DMC_REGCTL" then (if bit v 0 then regionCommit s else s)
  else if n == "DMC_REG" then regulatorSet r.inst r.idx1 old s
  else s

/-- ICU_ registers. -/
def icuEffect (ag : Agent) (r : RegAt) (v : Word) (s : State) : State :=
  let n := r.d.name
  if n == "ICU_SWL" then swlWrite r.inst v s else if n == "ICU_SRC" then srcWrite ag r.inst r.idx1 v s else s

/-- MEQ_ registers of a tenant. -/
def meqEffect (r : RegAt) (v : Word) (s : State) : State :=
  let n := r.d.name
  if n == "MEQ_QP_SEQ" then qpSeq r.inst r.idx1 v s else if n == "MEQ_QP_CNTREQ" then qpCntreq r.inst r.idx1 v s else s

/-- FDB commands by their op (R391). -/
def fdbEffect (half : Nat) (v : Word) (s : State) : State :=
  let ports := fld v 3 22
  match fld v 0 3 with
  | 0 => fdbRead half s
  | 1 => fdbWrite true half ports s
  | 2 => fdbWrite false half ports s
  | 3 => fdbDelete half s
  | 4 => fdbFlush none half s
  | 5 => fdbFlush (some (if ports = 0 then 0 else 2 ^ ctzFrom (BitVec.ofNat 64 ports) 0 22)) half s
  | _ => s

/-- ETH_ registers: commands, the write-only key registers, and the numbers of a transmit SA (R382, R391, R408, R409, R413). -/
def ethEffect (r : RegAt) (v : Word) (s : State) : State :=
  let n := r.d.name
  let p := r.inst
  let key := fun (k : Nat) => s.updPort p (fun x => { x with sak := mset x.sak k (fld v 0 32) })
  if n == "ETH_CTL" then
    let s1 := if bit v 0 then ethResume p s else s
    if bit v 1 then ethStop p s1 else s1
  else if n == "ETH_DIAG" then (if bit v 0 then diagStart p s else s)
  else if n == "ETH_SACMD" then (if !bit v 0 then s else if bit v 13 then saClear p v s else saInstall p v s)
  else if n == "ETH_SAK" then key r.idx1
  else if n == "ETH_SALT" then key (8 + r.idx1)
  else if n == "ETH_SSCI" then key 11
  else if n == "ETH_MSTXSA" then s.updPort p (fun x => { x with spent := x.spent.filter (· ≠ r.idx1) })
  else if n == "ETH_BR_FDBCMD" then fdbEffect (p / 20) v s
  else s

/-- TSN_ registers. -/
def tsnEffect (r : RegAt) (v : Word) (s : State) : State :=
  let n := r.d.name
  if n == "TSN_GCTL" then (if bit v 1 then gateListGo r.inst v s else s)
  else if n == "TSN_TSTEP" then tsnTstep (r.inst / 20) v s
  else if n == "TSN_TSET" then tsnTset (r.inst / 20) v s
  else if n == "TSN_FRREC" then s.setReg (r.base + r.off + 8) 0
  else s

/-- CAN_ and LIN_ registers; a stream slot that is written starts its sequence anew (R430). -/
def canEffect (r : RegAt) (v : Word) (s : State) : State :=
  let n := r.d.name
  if n == "CAN_CTL" then
    let s1 := if bit v 0 then canResume r.inst s else s
    if bit v 1 then canStop r.inst s1 else s1
  else if n == "CAN_GW_STRM" then s.updGw (r.inst / 12) (fun g => { g with seqs := mdel g.seqs r.idx1 })
  else s

def linEffect (r : RegAt) (v : Word) (s : State) : State :=
  if r.d.name == "LIN_CTL" then
    let s1 := if bit v 0 then linResume r.inst s else s
    let s2 := if bit v 1 then linStop r.inst s1 else s1
    if bit v 2 then linWake r.inst s2 else s2
  else s

/-- SEC_ registers. -/
def secEffect (r : RegAt) (v : Word) (s : State) : State :=
  let n := r.d.name
  if n == "SEC_CTL" then (if bit v 0 then s.cwTrigger else s)
  else if n == "SEC_JOB_CMD" then jobStart (fld v 0 4) r.idx1 v s
  else if n == "SEC_JOB_KEY" then { s with sec := { s.sec with jobKey := mset s.sec.jobKey (12 * r.idx1 + r.idx2) v } }
  else if n == "SEC_DBG_CERT" then { s with sec := { s.sec with cert := mset s.sec.cert r.idx1 v } }
  else if n == "SEC_DBG_CMD" then (if bit v 0 then certCheck s else s)
  else if n == "SEC_DBG_CTL" then (if bit v 0 then s.revokeGrants else s)
  else s

/-- Key-store operations by their op (R453); 0 and 13 to 15 have no effect. -/
def ksEffect (v : Word) (s : State) : State :=
  match fld v 0 4 with
  | 1 => deriveSlot v s
  | 2 => loadSlot v s
  | 3 => releaseSlot v s
  | 4 => revokeSlot v s
  | 5 => attest s
  | 6 => programRoot v s
  | 7 => revokeRoot v s
  | 8 => generateDus s
  | 9 => sealPart s
  | 10 => advanceRollback s
  | 11 => programDebug s
  | 12 => decommission s
  | _ => s

/-- SEC_CW_ registers. Whether the TRNG passes its start-up test is a free value (R456, log 3). -/
def cwEffect (r : RegAt) (v : Word) (s : State) : State :=
  let n := r.d.name
  if n == "SEC_CW_CTL" then
    let s1 := if bit v 0 then s.cwTrigger else s
    let s2 := if bit v 1 then bootlock s1 else s1
    let s3 := if bit v 3 then (if bit (Config.freeWord s2.draws) 0 then s2.setF R.SEC_STAT F.SEC_STAT_trng_fail 0 else s2).draw else s2
    if bit v 4 then s3.revokeGrants else s3
  else if n == "SEC_CW_WDT" then wdtWrite v (if bit v 25 then wdtKick s else s)
  else if n == "SEC_CW_COCTL" then (if bit v 0 then carveLock s else s)
  else if n == "SEC_CW_MREXT" then measExtend (fld v 0 4) s
  else if n == "SEC_CW_KSCMD" then ksEffect v s
  else s

/-- SAFE_ registers; the record of a fault is cleared with its valid bit (R471, R492). -/
def safeEffect (r : RegAt) (v : Word) (s : State) : State :=
  let n := r.d.name
  let h := r.inst
  let a := R.SAFE_FREC h
  if n == "SAFE_CTL" then
    let s1 := if bit v 0 then ctlLock h s else s
    if bit v 1 then injectCode h (fld v 8 6) s1 else s1
  else if n == "SAFE_WDT" then wdtArm h v s
  else if n == "SAFE_FREC" && bit v 63 then ((s.setF a F.SAFE_FREC_code 0).setF a F.SAFE_FREC_island 0).setF a F.SAFE_FREC_time 0
  else if n == "SAFE_SOUT" then outputWrite h (fld v 0 4) s
  else if n == "SAFE_REJOIN" then (if bit v 0 then rejoinGo h s else s)
  else if n == "SAFE_FMAP" then (if bit v 31 then s.setF (R.SAFE_FMAP h r.idx1) F.SAFE_FMAP_cnt 0 else s)
  else if n == "SAFE_PAIR" then (if fld v 0 2 = 1 ∨ fld v 0 2 = 2 then pairWrite (fld v 0 2) h r.idx1 (fld v 2 2) s else s)
  else s

/-- PWR_, CLK_ and RST_ registers; an entry of RST_LOST is cleared with its valid bit (R518). -/
def hubEffect (ag : Agent) (r : RegAt) (v : Word) (s : State) : State :=
  let n := r.d.name
  let i := r.idx1
  if n == "PWR_RAIL" then railChange (fld v 0 5) s
  else if n == "PWR_DOM" then (if fld v 0 2 = 0 then s else powerRequest (fld v 0 2) ag i s)
  else if n == "CLK_CORE" then freqChange i (fld v 0 7) s
  else if n == "CLK_ISL" then clockGate ag i (bit v 0) s
  else if n == "RST_CTL" then warmWrite ag v s
  else if n == "RST_CMD" then (if fld v 0 2 = 0 then s else rstWrite ag (fld v 0 2) (fld v 2 9) s)
  else if n == "RST_LOST" && bit v 63 then s.setReg (R.RST_LOST i) 0
  else s

/-- TRC_ registers. -/
def trcEffect (r : RegAt) (v : Word) (s : State) : State :=
  let n := r.d.name
  if n == "TRC_CTL" then
    let s1 := if bit v 0 then ledgerEnable v s else ledgerDisable v s
    if bit v 8 then s1.trigger else s1
  else if n == "TRC_LOST" then (if bit v 63 then s.setF R.TRC_LOST F.TRC_LOST_bytes 0 else s)
  else if n == "TRC_HCMD" then
    (if fld v 0 2 = 1 then haltCmd (fld v 2 4) (fld v 6 8) s else if fld v 0 2 = 2 then releaseCmd (fld v 2 4) (fld v 6 8) s else s)
  else if n == "TRC_ENC" then encWrite r.idx1 v s
  else s

/-- PMU_ registers: commands, and settings that are yet to reach their islands (R548, R550, R553, R558). -/
def pmuEffect (ag : Agent) (r : RegAt) (v : Word) (s : State) : State :=
  let n := r.d.name
  let a := r.base + r.off
  if n == "PMU_MODE" then
    (match fld v 2 2 with
     | 1 => serviceWrite ag s
     | 2 => recoveryWrite ag s
     | 3 => testWrite ag s
     | _ => s)
  else if n == "PMU_SNAP" then (if decide (1 ≤ fld v 0 3) && decide (fld v 0 3 ≤ 4) then snapOp (fld v 0 3) s else s)
  else if n == "PMU_RD" then readout v s
  else if n == "PMU_BWMAX" then (if bit v 63 then s.setF a F.PMU_BWMAX_bytes 0 else s)
  else if n == "PMU_CTHR" || n == "PMU_RTHR" || n == "PMU_MTHR" || n == "PMU_SMP" || n == "PMU_BWSEL" then
    s.updPmu (fun p => { p with moved := a :: p.moved.filter (· ≠ a) })
  else s

/-- What a write of `v` over `old` does in the unit of a register, after its fields are written. -/
def writeEffect (ag : Agent) (r : RegAt) (old v : Word) (s : State) : State :=
  match r.kind with
  | .sched => schedEffect r v s
  | .mmu => mmuEffect ag r v s
  | .pcie => pcieEffect r v s
  | .cache => cacheEffect ag r v s
  | .noc => nocEffect r v s
  | .dmc => dmcEffect r old v s
  | .icu => icuEffect ag r v s
  | .meqt => meqEffect r v s
  | .meqp => s
  | .eth => ethEffect r v s
  | .tsn => tsnEffect r v s
  | .can => canEffect r v s
  | .lin => linEffect r v s
  | .sec => secEffect r v s
  | .seccw => cwEffect r v s
  | .safe => safeEffect r v s
  | .pwr => hubEffect ag r v s
  | .clk => hubEffect ag r v s
  | .rst => hubEffect ag r v s
  | .trc => trcEffect r v s
  | .pmu => pmuEffect ag r v s

/-! ## A write (R10 to R14) -/

/-- A write of its own width to a register. -/
def State.writeReg (s : State) (ag : Agent) (r : RegAt) (v : Word) : State :=
  let a := r.base + r.off
  let old := s.reg a
  if !writeAllowed r.kind r.off ag || writeIgnored s ag r then s
  else
    let s1 := if writeTaken r v then s else s.setReg a (writeValue s ag r old (writeFields s r old v r.d.fields))
    writeEffect ag r old v s1

/-- A write of `n` bytes at an offset of the register space that names a register of that width; any other has no effect (R13,
R14). -/
def State.writeAt (s : State) (ag : Agent) (a n v : Nat) : State :=
  match findReg a with
  | some r => if r.d.bytes = n then s.writeReg ag r (BitVec.ofNat 64 (v % 2 ^ (8 * n))) else s
  | none => s

/-- A write of `n` bytes at an offset: one of 8 bytes over registers of 4 acts on each, the lower address first (R14). DESIGN CHOICE (log 91):
it is two writes to R12 too, so that a lock bit set in the lower register governs the upper one. -/
def State.regWrite (s : State) (ag : Agent) (a n v : Nat) : State :=
  match findReg a with
  | some r =>
    if r.d.bytes = n then s.writeAt ag a n v
    else if n = 8 then (s.writeAt ag a 4 v).writeAt ag (a + 4) 4 (v / 2 ^ 32)
    else s
  | none => if n = 8 then s.writeAt ag (a + 4) 4 (v / 2 ^ 32) else s

/-- A register write that reaches its block: the store is acknowledged and the write acts; while the unit that serves the
register does not run it waits (R46, R505; log 49). An unaligned access reaches no block (R14). -/
def registerWrite (ag : Agent) (a n : Nat) (v : Word) (s : State) : State :=
  if n = 0 || a % n ≠ 0 || (findBlock a).isNone || !regRuns s a then s
  else (s.ackWrite ag (0xF0000000000 + a)).regWrite ag a n v.toNat

/-- REGISTER_WRITE (R10): `addr` is the offset in the register space, `size` the bytes of the access. -/
def execRegisterWrite (ag : Agent) (addr size : Nat) (v : Word) (s : State) : Host.Outcome State Fault Refusal :=
  .next (registerWrite ag addr size v s)

end Sys2Proof.Machine
end

