-- ==== Sys2Proof/Machine/Debug.lean ====
section
/-! DEFINITION. The debug port: accesses to memory and registers from the test access port (R537, R538, R589). -/

namespace Sys2Proof.Machine

/-- Whether an address lies in the blocks that Open non-invasive debug reaches: TRC_, NOC_ and PMU_; or in SEC_DBG_. -/
def dbgBlock (pa : Nat) (p : BlockKind → Nat → Bool) : Bool :=
  addrClass pa = .config &&
    match findBlock (pa - 0xF0000000000) with
    | some b => p b.kind ((pa - 0xF0000000000 - b.base) % 0x10000)
    | none => false

/-- Whether an access is admitted (R538). -/
def dbgAdmits (s : State) (cw : Bool) (pa : Nat) : Bool :=
  if cw then authorised s 3
  else dbgBlock pa (fun k o => k = .sec && decide (0x2000 ≤ o) && decide (o < 0x2200)) ||
    (dbgBlock pa (fun k _ => k = .trc || k = .noc || k = .pmu) && authorised s 0) || authorised s 1

/-- The agent of a debug access: level P in world 0, level M in world 1. -/
def dbgAgent (cw : Bool) : Agent := { router := 29, closed := cw, pl := if cw then 3 else 2, debug := true }

/-- An access ends with a status and read data. -/
def State.dbgEnd (s : State) (status : Nat) (data : Word) : State :=
  { s with dbg := { s.dbg with busy := false, status := status, lastLg := s.dbg.lg, lastPa := s.dbg.pa, lastData := data } }

/-- DBGXFER_UPDATE (R25, R537, R538, R589): the fields of the 113-bit data register; ignored while an access is in progress. An access that
is admitted and decodes is sent as a packet of the mesh. -/
def dbgUpdate (v : Nat) (s : State) : State :=
  let op := v % 4
  let lg := v / 4 % 4
  let cw := v / 16 % 2 = 1
  let pa := v / 32 % 2 ^ 44
  let m := (s.router 29).map
  if s.dbg.busy || op = 0 || op = 3 then s
  else
    let s1 := { s with dbg := { s.dbg with busy := true, write := op = 2, lg := lg, cw := cw, pa := pa, data := BitVec.ofNat 64 (v / 2 ^ 49),
                                           late := rtoLate s 29, tag := s.nextTag debugUnit } }
    if !dbgAdmits s cw pa then s1.dbgEnd 3 0
    else if pa % 2 ^ lg ≠ 0 || decodeFails m cw (op = 2) pa then s1.dbgEnd 2 0
    else
      let dev := forcedDevice pa
      let typ := if op = 1 then (if dev then 0xA else 7) else if dev then 0xB else 8
      s1.request { net := 0, typ := typ, src := debugUnit, dst := targetUnit m pa, closed := cw, size := lg, mt := if dev then 0 else 1, pa := pa,
                   data := setLineField 0 (pa % 64) (2 ^ lg) (v / 2 ^ 49), mask := if op = 2 then byteMask (pa % 64) (2 ^ lg) else 0 }

/-- DBGXFER_UPDATE (R589). -/
def execDbgxferUpdate (v : Nat) (s : State) : Host.Outcome State Fault Refusal := .next (if debugRuns s then dbgUpdate v s else s)

/-- The answer in the inbox of the debug port. -/
def dbgAnswer (s : State) : Option Pkt := s.inbox.find? (fun p => p.dst = debugUnit && p.tag = s.dbg.tag && (ansOf p).isSome)

/-- A write of the debug port that has reached a register's unit is performed there once the unit runs, and acknowledged (R46). -/
def State.dbgStore (s : State) : State :=
  match reachedReq s debugUnit s.dbg.tag with
  | none => s
  | some p =>
    if p.typ = 0xB && (addrClass p.pa = .config || (addrClass p.pa = .closed && decide (p.pa < 0xF8000010000))) then
      let a := p.pa - 0xF0000000000
      if regRuns s a then ((s.take p).regWrite (dbgAgent p.closed) a (2 ^ p.size) (lineField p.data (p.pa % 64) (2 ^ p.size))).answer p (.data 0) else s
    else s.sramStore debugUnit s.dbg.tag

/-- What an answer makes of the access. -/
def State.dbgTake (s : State) (ans : MemAns) : State :=
  match ans with
  | .data v => s.dbgEnd 0 (if s.dbg.write then 0 else BitVec.ofNat 64 (v % 2 ^ (8 * 2 ^ s.dbg.lg)))
  | _ => s.dbgEnd 2 0

/-- DEBUG_ACCESS_ANSWER (R538, R589): the answer that waits ends the access, a timeout once rto has passed; a request that has reached
the unit it names is served there, with the answer given where what stands there is outside the part. -/
def dbgAnswered (ans : MemAns) (s : State) : State :=
  let d := s.dbg
  if !d.busy then s
  else match dbgAnswer s with
    | some p => (s.take p).dbgTake ((ansOf p).getD .poison)
    | none =>
      if ans = .timeout then (if d.late ≤ s.ref then (s.loseTag debugUnit d.tag).dbgTake .timeout else s)
      else if d.write then s.dbgStore
      else s.serveRead debugUnit d.tag ans

/-- DEBUG_ACCESS_ANSWER (R589). -/
def execDebugAccessAnswer (ans : MemAns) (s : State) : Host.Outcome State Fault Refusal := .next (if debugRuns s then dbgAnswered ans s else s)

end Sys2Proof.Machine
end

