-- ==== Sys2Proof/Machine/Boot.lean ====
section
/-! DEFINITION. The boot of the part: catalogues, their checks, entries, configuration scripts and the start of the monitor (R442 to
R448), and reads of the xSPI window that get no data (R320). -/

namespace Sys2Proof.Machine

/-! ## Catalogues (R444) -/

/-- Bytes of a flash slot whose last written bytes are `f`; the bytes behind them are zero. -/
def flashBytes (f : List Byte) (o n : Nat) : List Byte :=
  let t := sub f o n
  t ++ zeros (n - t.length)

def hdrFormat (h : List Byte) : Nat := bytesNat (sub h 4 2)
def hdrN (h : List Byte) : Nat := bytesNat (sub h 6 2)
def hdrVersion (h : List Byte) : Nat := bytesNat (sub h 8 4)
def hdrFlags (h : List Byte) : Nat := bytesNat (sub h 0xC 4)
def hdrMode (h : List Byte) : Nat := hdrFlags h % 4
def hdrSigner (h : List Byte) : List Byte := sub h 0x20 64

/-- The length of the signed bytes: the header and the entry table. -/
def hdrLen (h : List Byte) : Nat := 0x60 + 64 * hdrN h

/-- Entry `i` of a header and table. -/
def catEntry (h : List Byte) (i : Nat) : List Byte := sub h (0x60 + 64 * i) 64
def entType (e : List Byte) : Nat := bytesNat (sub e 0 1)
def entMeas (e : List Byte) : Nat := bytesNat (sub e 1 1)
def entSrc (e : List Byte) : Nat := bytesNat (sub e 4 4)
def entLen (e : List Byte) : Nat := bytesNat (sub e 8 4)
def entDest (e : List Byte) : Nat := bytesNat (sub e 0x10 8)
def entHash (e : List Byte) : List Byte := sub e 0x20 32

/-- The size of a flash slot. -/
def slotSize : Nat := 0x800000

/-- Whether the first bytes of a slot are a catalogue's magic number. -/
def magicOk (f : List Byte) : Bool := bytesNat (flashBytes f 0 4) = 0x4C544143

/-- The catalogue that step 3 tries first: a valid magic number, the higher version, A on a tie. -/
def firstCatalogue (a b : List Byte) : Option Nat :=
  if magicOk a then (if magicOk b && decide (hdrVersion (flashBytes a 0 0x60) < hdrVersion (flashBytes b 0 0x60)) then some 1 else some 0)
  else if magicOk b then some 1 else none

/-! ## The checks of step 4 (R445) -/

/-- The entries of a table. -/
def catEntries (h : List Byte) : List (List Byte) := (List.range (hdrN h)).map (catEntry h)

/-- Check 0x10: the format, the number of entries, and the fields shown as zero. -/
def formBad (h : List Byte) : Bool :=
  hdrFormat h ≠ 1 || hdrN h = 0 || decide (32 < hdrN h) || decide (8 ≤ hdrFlags h) || bytesNat (sub h 0x15 3) ≠ 0 || bytesNat (sub h 0x18 8) ≠ 0 ||
  (catEntries h).any (fun e => bytesNat (sub e 2 2) ≠ 0 || bytesNat (sub e 0xC 4) ≠ 0 || bytesNat (sub e 0x18 8) ≠ 0 || (entType e = 4 && entDest e ≠ 0))

/-- Whether the hash of the signer's bytes is that of a programmed root that is not revoked. -/
def signerKnown (s : State) (h : List Byte) : Bool :=
  let d := beNat (sm3 (hdrSigner h))
  (List.range 4).any (fun k => rootLive s k && rootHash s k = d)

/-- The code of the first check of R445 that fails. -/
def catalogueCheck (s : State) (h sig : List Byte) : Option Nat :=
  if formBad h then some 0x10
  else if s.sec.life = 1 && !signerKnown s h then some 0x11
  else if s.sec.life = 0 && !(hdrFlags h).testBit 2 then some 0x12
  else if s.sec.life = 1 && (hdrFlags h).testBit 2 then some 0x13
  else if hdrVersion h < s.sec.rollback then some 0x14
  else if (catEntries h).any (fun e => entType e = 0 || decide (4 < entType e) || decide (entMeas e < 2) || decide (7 < entMeas e)) then some 0x15
  else if (catEntries h).any (fun e => decide (entSrc e < hdrLen h + 64) || decide (slotSize < entSrc e + entLen e)) then some 0x17
  else if !sm2Verify (hdrSigner h) h sig then some 0x16
  else none

/-! ## Progress -/

def State.setBoot (s : State) (f : Boot → Boot) : State := { s with boot := f s.boot }

/-- The boot ROM stops issuing: both catalogues have failed, or a step before the first catalogue (R442). -/
def State.bootStop (s : State) (code : Nat) : State :=
  ((s.setBoot (fun b => { b with stage := 12, first := code })).setF R.SEC_STAT F.SEC_STAT_boot code).updBank 112 0 (fun b => { b with st := .frozen })

/-- A step fails: the other catalogue is tried from step 3, unless it has failed already or no catalogue is in use (R442). -/
def State.bootFail (s : State) (code : Nat) : State :=
  let b := s.boot
  let first := if b.first = 0 then code else b.first
  if b.stage ≤ 3 || b.failed ≠ [] then s.bootStop first
  else s.setBoot (fun b => { xmode := b.xmode, xbad := b.xbad, stage := 3, cat := 1 - b.cat, failed := [b.cat], first := first })

/-- The step after the present one. -/
def State.bootNext (s : State) : State := s.setBoot (fun b => { b with stage := b.stage + 1 })

/-- The ROM runs in bank 0 of core 112, in world 1 at level M. -/
def bootAgent : Agent := { router := tileRouter 14, closed := true, pl := 3 }

/-! ## Entries and scripts (R446, R447) -/

/-- Whether two ranges given by start and length share a byte. -/
def bootMeets (a n b m : Nat) : Bool := decide (a < b + m) && decide (b < a + n)

/-- The code by which the copy of an image is refused. -/
def imageCheck (s : State) (e : List Byte) : Option Nat :=
  let d := entDest e
  let n := entLen e
  let locked := s.on R.SEC_CW_COCTL F.SEC_CW_COCTL_lock
  let inCarve := (List.range 3).any (fun k =>
    locked && s.on (R.SEC_CW_CO (k + 1)) F.SEC_CW_CO_v &&
    decide (s.f (R.SEC_CW_CO (k + 1)) F.SEC_CW_CO_base * 2 ^ 24 ≤ d) &&
    decide (d + n ≤ s.f (R.SEC_CW_CO (k + 1)) F.SEC_CW_CO_base * 2 ^ 24 + s.f (R.SEC_CW_CO (k + 1)) F.SEC_CW_CO_size * 2 ^ 21))
  if s.map.populated < d + n then some 0x21
  else if entType e = 1 && !inCarve then some 0x22
  else if (entType e = 2 || entType e = 3) && (carveOuts s).any (fun c => bootMeets d n c.1 c.2) then some 0x23
  else if entType e = 1 && s.boot.monitor.isSome then some 0x24
  else none

/-- The boot ROM's progress past an entry. -/
def State.entryDone (s : State) : State := s.setBoot (fun b => { b with entry := b.entry + 1, rec_ := 0, script := [], since := none })

/-- An image is copied, hashed as copied and compared, and the measurement register extended (R446). -/
def imageEntry (f e : List Byte) (s : State) : State :=
  match imageCheck s e with
  | some code => s.bootFail code
  | none =>
    let s1 := s.physPut (entDest e) (flashBytes f (entSrc e) (entLen e))
    if sm3 (physBytes s1 (entDest e) (entLen e)) = entHash e then
      let s2 := (s1.extend (entMeas e) (entHash e)).entryDone
      if entType e = 1 then s2.setBoot (fun b => { b with monitor := some (entDest e, entLen e, entHash e) }) else s2
    else s1.bootFail 0x20

/-- A script is read whole, hashed and measured, and its first record comes next (R447). -/
def scriptEntry (f e : List Byte) (s : State) : State :=
  let d := flashBytes f (entSrc e) (entLen e)
  if sm3 d = entHash e then
    (let s1 := s.extend (entMeas e) (entHash e)
     if d = [] then s1.entryDone else s1.setBoot (fun b => { b with script := d, rec_ := 0, since := none }))
  else s.bootFail 0x25

def recAddr (r : List Byte) : Nat := bytesNat (sub r 0 8) % 2 ^ 44
def recOp (r : List Byte) : Nat := bytesNat (sub r 0 8) / 2 ^ 44 % 16
def recValue (r : List Byte) : Nat := bytesNat (sub r 8 4)
def recMask (r : List Byte) : Nat := bytesNat (sub r 12 4)

/-- The record that a script has reached. -/
def bootRecord (s : State) : List Byte := sub s.boot.script (16 * s.boot.rec_) 16

/-- Whether an address is one that a script may write or poll: the configuration register space, or the SEC_CW_ block. -/
def scriptAddr (pa : Nat) : Bool := (decide (0xF0000000000 ≤ pa) && decide (pa < 0xF0040000000)) || (decide (0xF8000000000 ≤ pa) && decide (pa < 0xF8000010000))

/-- Whether the poll of a record is met. -/
def pollMet (s : State) (r : List Byte) : Bool := (configRead s true (recAddr r) 4 &&& recMask r) = recValue r

/-- The script's next record. -/
def State.recordDone (s : State) : State := s.setBoot (fun b => { b with rec_ := b.rec_ + 1, since := none })

/-- A record of a script (R447): a write, a poll or a wait, which stand until they are over. -/
def scriptRecord (r : List Byte) (s : State) : State :=
  let pa := recAddr r
  let run := regRuns s (pa - 0xF0000000000)
  let began := s.setBoot (fun b => { b with since := some (b.since.getD s.ref) })
  if (recOp r = 1 || recOp r = 2) && !scriptAddr pa then s.bootFail 0x26
  else if recOp r = 1 then (if run then (s.regWrite bootAgent (pa - 0xF0000000000) 4 (recValue r)).recordDone else s)
  else if recOp r = 2 then
    (if run then (let s1 := { began with hub := { began.hub with unread := began.hub.unread.filter (· ≠ pa - 0xF0000000000) } }
                  if pollMet s r then s1.recordDone else s1)
     else began)
  else if recOp r = 3 then (if (s.boot.since.getD s.ref) + recValue r ≤ s.ref then s.recordDone else began)
  else s.recordDone

/-- Step 7: the next record of a script in progress, or else the next entry; past the last one, the step ends. -/
def bootEntry (f : List Byte) (s : State) : State :=
  let b := s.boot
  let e := catEntry b.hdr b.entry
  if 16 * b.rec_ + 16 ≤ b.script.length then scriptRecord (bootRecord s) s
  else if b.script ≠ [] then s.entryDone
  else if hdrN b.hdr ≤ b.entry then s.bootNext
  else if entType e = 4 then scriptEntry f e s
  else imageEntry f e s

/-! ## The steps of R442 -/

/-- Step 3: the choice of the catalogue. -/
def bootChoose (a b : List Byte) (s : State) : State :=
  let c := if s.boot.failed = [] then firstCatalogue a b else if magicOk (if s.boot.cat = 0 then a else b) then some s.boot.cat else none
  match c with
  | some c => s.setBoot (fun x => { x with stage := 4, cat := c })
  | none => s.bootFail 3

/-- Step 4: the header and the table are copied and checked. -/
def bootCheck (f : List Byte) (s : State) : State :=
  let h0 := flashBytes f 0 0x60
  let h := flashBytes f 0 (0x60 + 64 * min 32 (hdrN h0))
  match catalogueCheck s h (flashBytes f (hdrLen h) 64) with
  | some code => s.bootFail code
  | none => (s.setBoot (fun b => { b with hdr := h, entry := 0, rec_ := 0, script := [], since := none, monitor := none })).bootNext

/-- Step 5: the measurements of the boot ROM and of the signed bytes. -/
def bootMeasure (s : State) : State := ((s.extend 0 (beBytes 32 Config.bootRomHash.toNat)).extend 1 (sm3 s.boot.hdr)).bootNext

/-- Step 6: the mode of the xSPI interface (R443). -/
def bootMode (f : List Byte) (ok : Bool) (s : State) : State :=
  let m := hdrMode s.boot.hdr
  if m = 3 || (m ≠ 0 && (!ok || flashBytes f 0 0x60 ≠ sub s.boot.hdr 0 0x60)) then s.bootFail 4
  else (s.setBoot (fun b => { b with xmode := m })).bootNext

/-- Step 9: the golden copy, its record, bootlock, and the Closed world serves. -/
def bootGolden (s : State) : State :=
  match s.boot.monitor with
  | none => s.bootFail 0x28
  | some (d, n, h) =>
    if !s.on (R.SEC_CW_CO 0) F.SEC_CW_CO_v || decide (s.f (R.SEC_CW_CO 0) F.SEC_CW_CO_size * 2 ^ 21 < n) then s.bootFail 0x29
    else
      let s1 := s.physPut (s.f (R.SEC_CW_CO 0) F.SEC_CW_CO_base * 2 ^ 24) (physBytes s d n)
      let s2 := ((s1.setF R.SEC_CW_GDST F.SEC_CW_GDST_pa (d / 64)).setF R.SEC_CW_GLEN F.SEC_CW_GLEN_len n).putRegs R.SEC_CW_GOLD h 4
      ((bootlock s2).setF R.SEC_STAT F.SEC_STAT_cw_state 1).bootNext

/-- Step 10: the branch to the monitor, in world 1 at level M with d = 0. -/
def bootEnter (s : State) : State :=
  match s.boot.monitor with
  | none => s.bootFail 0x28
  | some (d, _, _) =>
    let s1 := s.updBank 112 0 (fun b => { b with pc := BitVec.ofNat 64 d, depth := 0, psw := { b.psw with world := true, pl := 3 } })
    { s1 with sec := { s1.sec with version := hdrVersion s.boot.hdr } }.bootNext

/-- One step of the boot ROM, and of step 7 one entry or record: `a` and `b` are the flash slots, `ok` whether the xSPI
interface answers. While the cut is fenced the boot core, in the East half, reads no flash (R25): nothing answers, and what it asks for
does not come (log 88). -/
def bootStep (a b : List Byte) (ok : Bool) (s : State) : State :=
  let cut := cutFenced s 1
  let a := if cut then [] else a
  let b := if cut then [] else b
  let ok := ok && !cut
  let f := if s.boot.cat = 0 then a else b
  match s.boot.stage with
  | 1 => if s.sec.life = 3 then s.bootFail 1 else s.bootNext
  | 2 => if ok then s.bootNext else s.bootFail 2
  | 3 => bootChoose a b s
  | 4 => bootCheck f s
  | 5 => bootMeasure s
  | 6 => bootMode f ok s
  | 7 => bootEntry f s
  | 8 => if s.boot.monitor.isSome then s.bootNext else s.bootFail 0x28
  | 9 => bootGolden s
  | 10 => bootEnter s
  | _ => s

/-- BOOT (R442). -/
def execBoot (a b : List Byte) (ok : Bool) (s : State) : Host.Outcome State Fault Refusal := .next (bootStep a b ok s)

/-- SCRIPT_POLL_TIMEOUT (R447): a poll unmet after 2,500,000 [ref] fails. -/
def pollTimeout (s : State) : State :=
  let r := bootRecord s
  if s.boot.stage = 7 && decide (16 * s.boot.rec_ + 16 ≤ s.boot.script.length) && recOp r = 2 && !pollMet s r &&
      (match s.boot.since with
       | some t => decide (t + 2500000 ≤ s.ref)
       | none => false) then s.bootFail 0x27
  else s

/-- SCRIPT_POLL_TIMEOUT (R447). -/
def execScriptPollTimeout (s : State) : Host.Outcome State Fault Refusal := .next (pollTimeout s)

/-- XSPI_READ_TIMEOUT (R320): a read of the xSPI window that gets no data is answered with a decode error, and line 742 is
high until a read returns data. -/
def xspiTimeout (p : Pkt) (s : State) : State :=
  if s.inbox.contains p && p.net = 0 && (p.typ = 7 || p.typ = 0xA) && p.dst = xspiUnit then
    ((s.take p).answer p .decodeError).setBoot (fun b => { b with xbad := true })
  else s

/-- XSPI_READ_TIMEOUT (R320). -/
def execXspiReadTimeout (p : Pkt) (s : State) : Host.Outcome State Fault Refusal := .next (xspiTimeout p s)

end Sys2Proof.Machine
end

