-- ==== Sys2Proof/Machine/Timeout.lean ====
section
/-! DEFINITION. Transactions that are unanswered for rto (R291). -/

namespace Sys2Proof.Machine

/-- Whether an answer for a unit's tag is usable: it wins over the timeout. -/
def answerHere (s : State) (u tag : Nat) : Bool := s.inbox.any (fun p => p.dst = u && p.tag = tag && (p.net = 1 || p.net = 3))

/-! ## Clusters -/

/-- The data of an unanswered Evict or victim offer are lost: the slice's copy, or the line in DRAM, is marked poisoned. -/
def State.loseVictim (s : State) (e : EvEnt) : State :=
  if !e.dirty || e.superseded then s
  else
    let k := homeSlice s.map e.line
    match sliceLine s k e.line with
    | some x => s.updSlice k (fun q => { q with lines := putCLine q.lines { x with poison := true } })
    | none => { s with poison := if s.poison.contains e.line then s.poison else e.line :: s.poison }

/-- An eviction is over without an answer. -/
def State.evictLate (s : State) (q : Nat) (e : EvEnt) : State :=
  (s.loseVictim e).updCluster q (fun y => { y with
    evq := dropFirst (fun x => x.line = e.line) y.evq,
    mshr := y.mshr.filter (fun m => !(m.waitWb && m.line = e.miss)),
    maint := y.maint.map (fun m => { m with wait := m.wait.filter (· ≠ e.line) }) })

/-- The store, or maintenance operation, of a core that was sent with a tag. -/
def sentEnt (s : State) (q tag : Nat) : Option (Nat × WbEnt) :=
  (clusterCores q).findSome? (fun c => ((s.core c).wb.find? (fun e => e.sent && e.tag = tag && e.kind ≠ .dev)).map (fun e => (c, e)))

/-- The non-cacheable load of a core that was sent with a tag: core, bank and load. -/
def sentLoad (s : State) (q tag : Nat) : Option (Nat × Nat × LoadEnt) :=
  (clusterCores q).findSome? (fun c => (List.range 8).findSome? (fun bi =>
    (((s.bank c bi).loads.find? (fun l => l.sent && l.tag = tag && l.mt = .nc && !l.complete)).map (fun l => (c, bi, l)))))

/-- A cluster's transaction is late: a miss, an eviction, or a core's own access. -/
def clusterLate (q tag : Nat) (s : State) : State :=
  let cl := s.cluster q
  match cl.mshr.find? (fun m => m.asked && m.tag = tag && !m.waitWb) with
  | some m => if m.late ≤ s.ref then (s.loseTag (clusterUnit q) tag).failMshr q m else s
  | none =>
    match cl.evq.find? (fun e => e.tag = tag) with
    | some e => if e.late ≤ s.ref then (s.loseTag (clusterUnit q) tag).evictLate q e else s
    | none =>
      match sentLoad s q tag with
      | some (c, bi, l) => loadReturn c bi l.seq .timeout s
      | none =>
        match sentEnt s q tag with
        | some (c, e) => storeAck c e.bank e.seq .timeout s
        | none => s

/-! ## Slices -/

/-- The request that a transaction serves is closed with Poison; of a directory entry's eviction, the request that waits for the entry. -/
def State.closePoisoned (s : State) (k : Nat) (t : SliceTxn) : State :=
  if t.req.typ ≠ 0xE then s.plain k t.req 0xA
  else match (s.slice k).txns.find? (fun w => w.evict && w.req.src = t.req.src && w.req.tag = t.req.tag) with
    | some w => (s.plain k w.req 0xA).dropTxn k w.line
    | none => s

/-- A line's transaction at its slice is late: of awaited snoop answers, the directory entry is marked poisoned; of a DRAM
read, nothing else; the request is closed with Poison, and what comes later is discarded. The eviction of a directory entry leaves the
marked entry. No outcome is stated of a DRAM write that is not accepted: it is waited for (log 89). -/
def sliceLate (k line : Nat) (s : State) : State :=
  match txnOf s k line with
  | none => s
  | some t =>
    if s.ref < t.late || t.replied || (t.await = [] && !t.rd) then s
    else
      let s1 := if t.await = [] then s.loseTag (sliceUnit k) t.tag
        else (s.setDir k { dirOf s k line with poison := true }).updSlice k (fun q => { q with stale := q.stale ++ t.await.map (fun c => (line, c)) })
      ((s1.closePoisoned k t).endTxn k { t with await := [], rd := false }).drainQueue k

/-! ## Message engine and PCI Express -/

/-- The queue pair of a pipeline whose descriptor read, or completion write, carries a tag. -/
def lateQp (s : State) (pipe tag : Nat) : Option (Nat × Nat × Bool) :=
  s.qps.findSome? (fun x =>
    let t := x.1 / 8
    if pipeOf t ≠ pipe then none
    else if x.2.posting.any (fun y => y.2.2.1 = tag) then some (t, x.1 % 8, true)
    else match x.2.reads with
      | (_, g, some _, _) :: _ => if g = tag then some (t, x.1 % 8, false) else none
      | _ => none)

/-- An access of a pipeline that is late has timed out. -/
def lateAcc (now tag : Nat) (a : LineAcc) : LineAcc :=
  if a.sent && a.got.isNone && a.tag = tag && decide (a.late ≤ now) then { a with got := some .timeout } else a

/-- The full-line accesses of a queue pair with a tag time out, and its work goes on (R361, R366, R374). -/
def State.lateWork (s : State) (tag t q : Nat) : State :=
  let x := s.qp t q
  let late := lateAcc s.ref tag
  if x.accs.all (fun a => late a = a) then s
  else
    let y := { x with chains := x.chains.map (fun c => { c with loads := c.loads.map late }), fills := x.fills.map (fun f => { f with accs := f.accs.map late }),
                      scan := x.scan.map (fun z => { z with acc := late z.acc }) }
    ((s.loseTag (pipeUnit (pipeOf t)) tag).setQp t q y).qpWork t q

/-- A pipeline's transaction is late. -/
def pipeLate (p tag : Nat) (s : State) : State :=
  match lateQp s p tag with
  | some (t, q, true) => completionPosted t q .timeout s
  | some (t, q, false) => descRead t q .timeout s
  | none => s.qps.foldl (fun s x => if pipeOf (x.1 / 8) = p then s.lateWork tag (x.1 / 8) (x.1 % 8) else s) s

/-- The transaction that a unit opened, by its tag, or at a slice by its line, is unanswered for rto [ref] edges. -/
def transactionTimeout (unit key : Nat) (s : State) : State :=
  if (List.range 16).any (fun k => sliceUnit k = unit) then
    ((List.range 16).filter (fun k => sliceUnit k = unit)).foldl (fun s k => sliceLate k key s) s
  else if answerHere s unit key then s
  else match unitCluster unit with
    | some q => clusterLate q key s
    | none =>
      if unit = pipeUnit 0 then pipeLate 0 key s
      else if unit = pipeUnit 1 then pipeLate 1 key s
      else if unit = pcieUnit 0 then lineAnswer 0 key .timeout s
      else if unit = pcieUnit 1 then lineAnswer 1 key .timeout s
      else s

/-- TRANSACTION_TIMEOUT (R291): `unit` is 4 × router + local port, `key` the tag, or at a slice the line. -/
def execTransactionTimeout (unit key : Nat) (s : State) : Host.Outcome State Fault Refusal :=
  if unit < 120 then .next (transactionTimeout unit key s) else .fault .noSuchUnit

end Sys2Proof.Machine
end

