-- ==== Sys2Proof/Machine/Dispatch.lean ====
section
/-! DEFINITION. One arm per command of the table: a direct call of its meaning. -/

namespace Sys2Proof.Machine

/-- The effect of a command on everything but the queue. -/
def exec (i : Instr) (s : State) : Host.Outcome State Fault Refusal :=
  match i with
  | .registerWrite ag addr size v => Sys2Proof.Machine.execRegisterWrite ag addr size v s
  | .bundleIssue core bank => Sys2Proof.Machine.execBundleIssue core bank s
  | .nop x => Sys2Proof.Machine.execNop x s
  | .add x => Sys2Proof.Machine.execAdd x s
  | .sub x => Sys2Proof.Machine.execSub x s
  | .addc x => Sys2Proof.Machine.execAddc x s
  | .subc x => Sys2Proof.Machine.execSubc x s
  | .and x => Sys2Proof.Machine.execAnd x s
  | .or x => Sys2Proof.Machine.execOr x s
  | .xor x => Sys2Proof.Machine.execXor x s
  | .andn x => Sys2Proof.Machine.execAndn x s
  | .orn x => Sys2Proof.Machine.execOrn x s
  | .shl x => Sys2Proof.Machine.execShl x s
  | .shr x => Sys2Proof.Machine.execShr x s
  | .sar x => Sys2Proof.Machine.execSar x s
  | .rol x => Sys2Proof.Machine.execRol x s
  | .cmpeq x => Sys2Proof.Machine.execCmpeq x s
  | .cmpne x => Sys2Proof.Machine.execCmpne x s
  | .cmplt x => Sys2Proof.Machine.execCmplt x s
  | .cmpltu x => Sys2Proof.Machine.execCmpltu x s
  | .cmple x => Sys2Proof.Machine.execCmple x s
  | .cmpleu x => Sys2Proof.Machine.execCmpleu x s
  | .min x => Sys2Proof.Machine.execMin x s
  | .max x => Sys2Proof.Machine.execMax x s
  | .minu x => Sys2Proof.Machine.execMinu x s
  | .maxu x => Sys2Proof.Machine.execMaxu x s
  | .clz x => Sys2Proof.Machine.execClz x s
  | .ctz x => Sys2Proof.Machine.execCtz x s
  | .popc x => Sys2Proof.Machine.execPopc x s
  | .bswap x => Sys2Proof.Machine.execBswap x s
  | .sext x => Sys2Proof.Machine.execSext x s
  | .zext x => Sys2Proof.Machine.execZext x s
  | .addi x => Sys2Proof.Machine.execAddi x s
  | .andi x => Sys2Proof.Machine.execAndi x s
  | .ori x => Sys2Proof.Machine.execOri x s
  | .xori x => Sys2Proof.Machine.execXori x s
  | .shli x => Sys2Proof.Machine.execShli x s
  | .shri x => Sys2Proof.Machine.execShri x s
  | .sari x => Sys2Proof.Machine.execSari x s
  | .roli x => Sys2Proof.Machine.execRoli x s
  | .cmpeqi x => Sys2Proof.Machine.execCmpeqi x s
  | .cmpnei x => Sys2Proof.Machine.execCmpnei x s
  | .cmplti x => Sys2Proof.Machine.execCmplti x s
  | .cmpltui x => Sys2Proof.Machine.execCmpltui x s
  | .movi x => Sys2Proof.Machine.execMovi x s
  | .movhi x => Sys2Proof.Machine.execMovhi x s
  | .addpc x => Sys2Proof.Machine.execAddpc x s
  | .mfsr x => Sys2Proof.Machine.execMfsr x s
  | .mtsr x => Sys2Proof.Machine.execMtsr x s
  | .mul x => Sys2Proof.Machine.execMul x s
  | .mac x => Sys2Proof.Machine.execMac x s
  | .mulw x => Sys2Proof.Machine.execMulw x s
  | .mulwu x => Sys2Proof.Machine.execMulwu x s
  | .div x => Sys2Proof.Machine.execDiv x s
  | .divu x => Sys2Proof.Machine.execDivu x s
  | .decadd x => Sys2Proof.Machine.execDecadd x s
  | .decsub x => Sys2Proof.Machine.execDecsub x s
  | .movm x => Sys2Proof.Machine.execMovm x s
  | .movtm x => Sys2Proof.Machine.execMovtm x s
  | .mResultWrite core bank => Sys2Proof.Machine.execMResultWrite core bank s
  | .divideComplete core bank => Sys2Proof.Machine.execDivideComplete core bank s
  | .decimalComplete core bank => Sys2Proof.Machine.execDecimalComplete core bank s
  | .fadd x => Sys2Proof.Machine.execFadd x s
  | .fsub x => Sys2Proof.Machine.execFsub x s
  | .fmul x => Sys2Proof.Machine.execFmul x s
  | .fdiv x => Sys2Proof.Machine.execFdiv x s
  | .fsqrt x => Sys2Proof.Machine.execFsqrt x s
  | .fma x => Sys2Proof.Machine.execFma x s
  | .fms x => Sys2Proof.Machine.execFms x s
  | .fnma x => Sys2Proof.Machine.execFnma x s
  | .fmin x => Sys2Proof.Machine.execFmin x s
  | .fmax x => Sys2Proof.Machine.execFmax x s
  | .fabs x => Sys2Proof.Machine.execFabs x s
  | .fneg x => Sys2Proof.Machine.execFneg x s
  | .fsgnj x => Sys2Proof.Machine.execFsgnj x s
  | .fclass x => Sys2Proof.Machine.execFclass x s
  | .fcmpeq x => Sys2Proof.Machine.execFcmpeq x s
  | .fcmplt x => Sys2Proof.Machine.execFcmplt x s
  | .fcmple x => Sys2Proof.Machine.execFcmple x s
  | .fcmpun x => Sys2Proof.Machine.execFcmpun x s
  | .fcvt x => Sys2Proof.Machine.execFcvt x s
  | .fcvti x => Sys2Proof.Machine.execFcvti x s
  | .fcvtiu x => Sys2Proof.Machine.execFcvtiu x s
  | .fcvtf x => Sys2Proof.Machine.execFcvtf x s
  | .fcvtfu x => Sys2Proof.Machine.execFcvtfu x s
  | .fResultWrite core bank => Sys2Proof.Machine.execFResultWrite core bank s
  | .fLongOperationComplete core bank => Sys2Proof.Machine.execFLongOperationComplete core bank s
  | .ldb x => Sys2Proof.Machine.execLdb x s
  | .ldbu x => Sys2Proof.Machine.execLdbu x s
  | .ldh x => Sys2Proof.Machine.execLdh x s
  | .ldhu x => Sys2Proof.Machine.execLdhu x s
  | .ldw x => Sys2Proof.Machine.execLdw x s
  | .ldwu x => Sys2Proof.Machine.execLdwu x s
  | .ldd x => Sys2Proof.Machine.execLdd x s
  | .ldx x => Sys2Proof.Machine.execLdx x s
  | .ldres x => Sys2Proof.Machine.execLdres x s
  | .ldm x => Sys2Proof.Machine.execLdm x s
  | .restl x => Sys2Proof.Machine.execRestl x s
  | .resth x => Sys2Proof.Machine.execResth x s
  | .pref x => Sys2Proof.Machine.execPref x s
  | .wfill x => Sys2Proof.Machine.execWfill x s
  | .rsfill x => Sys2Proof.Machine.execRsfill x s
  | .stb x => Sys2Proof.Machine.execStb x s
  | .sth x => Sys2Proof.Machine.execSth x s
  | .stw x => Sys2Proof.Machine.execStw x s
  | .std x => Sys2Proof.Machine.execStd x s
  | .stx x => Sys2Proof.Machine.execStx x s
  | .stcond x => Sys2Proof.Machine.execStcond x s
  | .stm x => Sys2Proof.Machine.execStm x s
  | .savel x => Sys2Proof.Machine.execSavel x s
  | .saveh x => Sys2Proof.Machine.execSaveh x s
  | .wspill x => Sys2Proof.Machine.execWspill x s
  | .rsspill x => Sys2Proof.Machine.execRsspill x s
  | .barl x => Sys2Proof.Machine.execBarl x s
  | .bars x => Sys2Proof.Machine.execBars x s
  | .bara x => Sys2Proof.Machine.execBara x s
  | .barx x => Sys2Proof.Machine.execBarx x s
  | .dclean x => Sys2Proof.Machine.execDclean x s
  | .dinval x => Sys2Proof.Machine.execDinval x s
  | .iclean x => Sys2Proof.Machine.execIclean x s
  | .br x => Sys2Proof.Machine.execBr x s
  | .call x => Sys2Proof.Machine.execCall x s
  | .callw x => Sys2Proof.Machine.execCallw x s
  | .jmp x => Sys2Proof.Machine.execJmp x s
  | .callr x => Sys2Proof.Machine.execCallr x s
  | .callwr x => Sys2Proof.Machine.execCallwr x s
  | .beqz x => Sys2Proof.Machine.execBeqz x s
  | .bnez x => Sys2Proof.Machine.execBnez x s
  | .bltz x => Sys2Proof.Machine.execBltz x s
  | .bgez x => Sys2Proof.Machine.execBgez x s
  | .bgtz x => Sys2Proof.Machine.execBgtz x s
  | .blez x => Sys2Proof.Machine.execBlez x s
  | .bbs x => Sys2Proof.Machine.execBbs x s
  | .bbc x => Sys2Proof.Machine.execBbc x s
  | .ret x => Sys2Proof.Machine.execRet x s
  | .retw x => Sys2Proof.Machine.execRetw x s
  | .rett x => Sys2Proof.Machine.execRett x s
  | .rspush x => Sys2Proof.Machine.execRspush x s
  | .rspop x => Sys2Proof.Machine.execRspop x s
  | .trap x => Sys2Proof.Machine.execTrap x s
  | .hcall x => Sys2Proof.Machine.execHcall x s
  | .mcall x => Sys2Proof.Machine.execMcall x s
  | .waitev x => Sys2Proof.Machine.execWaitev x s
  | .isync x => Sys2Proof.Machine.execIsync x s
  | .pflush x => Sys2Proof.Machine.execPflush x s
  | .pbar x => Sys2Proof.Machine.execPbar x s
  | .loadDataReturn core bank seq ans => Sys2Proof.Machine.execLoadDataReturn core bank seq ans s
  | .storePerform core bank seq => Sys2Proof.Machine.execStorePerform core bank seq s
  | .storeAcknowledge core bank seq ans => Sys2Proof.Machine.execStoreAcknowledge core bank seq ans s
  | .deviceAccessSend core bank => Sys2Proof.Machine.execDeviceAccessSend core bank s
  | .deviceAccessTimeout core bank seq => Sys2Proof.Machine.execDeviceAccessTimeout core bank seq s
  | .barrierRelease core bank => Sys2Proof.Machine.execBarrierRelease core bank s
  | .snoopDeferralEnd cluster p => Sys2Proof.Machine.execSnoopDeferralEnd cluster p s
  | .exceptionEntry core bank cause g2 g3 g4 => Sys2Proof.Machine.execExceptionEntry core bank cause g2 g3 g4 s
  | .normalInterruptAccept core bank => Sys2Proof.Machine.execNormalInterruptAccept core bank s
  | .entryCapture core bank => Sys2Proof.Machine.execEntryCapture core bank s
  | .fastClassEntry core => Sys2Proof.Machine.execFastClassEntry core s
  | .fetchMissFill core bank line => Sys2Proof.Machine.execFetchMissFill core bank line s
  | .pageWalkRead core instr ans => Sys2Proof.Machine.execPageWalkRead core instr ans s
  | .translationResult core instr => Sys2Proof.Machine.execTranslationResult core instr s
  | .mmuInv ag core v => Sys2Proof.Machine.execMmuInv ag core v s
  | .tlbInvalidationReceive by_ target => Sys2Proof.Machine.execTlbInvalidationReceive by_ target s
  | .tlbInvalidationAcknowledged by_ => Sys2Proof.Machine.execTlbInvalidationAcknowledged by_ s
  | .decodeMapChange target => Sys2Proof.Machine.execDecodeMapChange target s
  | .writeBufferDrainEnd core => Sys2Proof.Machine.execWriteBufferDrainEnd core s
  | .threadValidate cluster thread valid => Sys2Proof.Machine.execThreadValidate cluster thread valid s
  | .schedulerDecision cluster => Sys2Proof.Machine.execSchedulerDecision cluster s
  | .quantumExpiry core => Sys2Proof.Machine.execQuantumExpiry core s
  | .bankSwitch core => Sys2Proof.Machine.execBankSwitch core s
  | .waitevAnswer core bank => Sys2Proof.Machine.execWaitevAnswer core bank s
  | .threadTimerFire cluster thread => Sys2Proof.Machine.execThreadTimerFire cluster thread s
  | .schedSemPost cluster sem add => Sys2Proof.Machine.execSchedSemPost cluster sem add s
  | .semaphoreTake cluster sem => Sys2Proof.Machine.execSemaphoreTake cluster sem s
  | .completionNotice cluster tenant qp => Sys2Proof.Machine.execCompletionNotice cluster tenant qp s
  | .interruptEventLevel cluster source => Sys2Proof.Machine.execInterruptEventLevel cluster source s
  | .threadLoad core => Sys2Proof.Machine.execThreadLoad core s
  | .bankFreeze core bank => Sys2Proof.Machine.execBankFreeze core bank s
  | .fastEnableApply core => Sys2Proof.Machine.execFastEnableApply core s
  | .pcieResume ag pcie => Sys2Proof.Machine.execPcieResume ag pcie s
  | .pcieStop ag pcie => Sys2Proof.Machine.execPcieStop ag pcie s
  | .pcieStopComplete pcie => Sys2Proof.Machine.execPcieStopComplete pcie s
  | .perstRelease pcie => Sys2Proof.Machine.execPerstRelease pcie s
  | .perstFall pcie => Sys2Proof.Machine.execPerstFall pcie s
  | .wakeFall pcie => Sys2Proof.Machine.execWakeFall pcie s
  | .pcieLinkChange pcie up speed width => Sys2Proof.Machine.execPcieLinkChange pcie up speed width s
  | .pcieAttEntryWrite ag pcie entry v => Sys2Proof.Machine.execPcieAttEntryWrite ag pcie entry v s
  | .pcieOutboundRequest pcie p => Sys2Proof.Machine.execPcieOutboundRequest pcie p s
  | .pcieCompletionReceive pcie k status poisoned data => Sys2Proof.Machine.execPcieCompletionReceive pcie k status poisoned data s
  | .pcieCompletionTimeout pcie k => Sys2Proof.Machine.execPcieCompletionTimeout pcie k s
  | .pcieInboundTlp pcie t => Sys2Proof.Machine.execPcieInboundTlp pcie t s
  | .pcieInboundLineAnswer pcie tag ans => Sys2Proof.Machine.execPcieInboundLineAnswer pcie tag ans s
  | .pcieMsiReceive pcie addr data => Sys2Proof.Machine.execPcieMsiReceive pcie addr data s
  | .pcieMsigen ag pcie vec => Sys2Proof.Machine.execPcieMsigen ag pcie vec s
  | .pcieConfigRequest pcie write reg v => Sys2Proof.Machine.execPcieConfigRequest pcie write reg v s
  | .intxMessage pcie => Sys2Proof.Machine.execIntxMessage pcie s
  | .pcieLinkError pcie correctable replay => Sys2Proof.Machine.execPcieLinkError pcie correctable replay s
  | .l2Lookup core instr line => Sys2Proof.Machine.execL2Lookup core instr line s
  | .readShared slice p => Sys2Proof.Machine.execReadShared slice p s
  | .readUnique slice p => Sys2Proof.Machine.execReadUnique slice p s
  | .upgrade slice p => Sys2Proof.Machine.execUpgrade slice p s
  | .cleanRequest slice p => Sys2Proof.Machine.execCleanRequest slice p s
  | .invalidateRequest slice p => Sys2Proof.Machine.execInvalidateRequest slice p s
  | .evict slice p => Sys2Proof.Machine.execEvict slice p s
  | .victimOffer slice p => Sys2Proof.Machine.execVictimOffer slice p s
  | .nonCacheableRead slice p => Sys2Proof.Machine.execNonCacheableRead slice p s
  | .nonCacheableWrite slice p => Sys2Proof.Machine.execNonCacheableWrite slice p s
  | .fullLineWrite slice p => Sys2Proof.Machine.execFullLineWrite slice p s
  | .deviceRead slice p => Sys2Proof.Machine.execDeviceRead slice p s
  | .deviceWrite slice p => Sys2Proof.Machine.execDeviceWrite slice p s
  | .snoopInvalidate cluster p => Sys2Proof.Machine.execSnoopInvalidate cluster p s
  | .forwardShared cluster p => Sys2Proof.Machine.execForwardShared cluster p s
  | .forwardUnique cluster p => Sys2Proof.Machine.execForwardUnique cluster p s
  | .snoopClean cluster p => Sys2Proof.Machine.execSnoopClean cluster p s
  | .snoopAnswer slice p => Sys2Proof.Machine.execSnoopAnswer slice p s
  | .fill core instr p => Sys2Proof.Machine.execFill core instr p s
  | .ownershipGrant core p => Sys2Proof.Machine.execOwnershipGrant core p s
  | .evictAnswer cluster p => Sys2Proof.Machine.execEvictAnswer cluster p s
  | .maintenanceAcknowledge core bank seq ans => Sys2Proof.Machine.execMaintenanceAcknowledge core bank seq ans s
  | .cacheInvalidate ag block level core ways => Sys2Proof.Machine.execCacheInvalidate ag block level core ways s
  | .cacheClean ag block level core ways => Sys2Proof.Machine.execCacheClean ag block level core ways s
  | .cacheCleanInvalidate ag block level core ways => Sys2Proof.Machine.execCacheCleanInvalidate ag block level core ways s
  | .cacheMaintComplete block => Sys2Proof.Machine.execCacheMaintComplete block s
  | .routerHeadFlit router net input vc err => Sys2Proof.Machine.execRouterHeadFlit router net input vc err s
  | .slotAdmission router port slot => Sys2Proof.Machine.execSlotAdmission router port slot s
  | .escapeChannelMove router net input vc => Sys2Proof.Machine.execEscapeChannelMove router net input vc s
  | .creditReturn router net output vc => Sys2Proof.Machine.execCreditReturn router net output vc s
  | .linkHeartbeat router output net => Sys2Proof.Machine.execLinkHeartbeat router output net s
  | .linkSilenceTimeout router input => Sys2Proof.Machine.execLinkSilenceTimeout router input s
  | .linkFence ag router output => Sys2Proof.Machine.execLinkFence ag router output s
  | .dslotApply router => Sys2Proof.Machine.execDslotApply router s
  | .nocErrClear ag router => Sys2Proof.Machine.execNocErrClear ag router s
  | .transactionTimeout unit key => Sys2Proof.Machine.execTransactionTimeout unit key s
  | .dramRead channel p => Sys2Proof.Machine.execDramRead channel p s
  | .dramWrite channel p => Sys2Proof.Machine.execDramWrite channel p s
  | .dramReadComplete channel p err flip => Sys2Proof.Machine.execDramReadComplete channel p err flip s
  | .writeBatchStart channel => Sys2Proof.Machine.execWriteBatchStart channel s
  | .refreshDue channel rank => Sys2Proof.Machine.execRefreshDue channel rank s
  | .mr4Poll channel rate errs => Sys2Proof.Machine.execMr4Poll channel rate errs s
  | .regulatorAdmit channel group => Sys2Proof.Machine.execRegulatorAdmit channel group s
  | .regionCommit ag => Sys2Proof.Machine.execRegionCommit ag s
  | .regionTableDone => Sys2Proof.Machine.execRegionTableDone s
  | .dramInitStart ag channel => Sys2Proof.Machine.execDramInitStart ag channel s
  | .dramInitEnd channel fail mr4 => Sys2Proof.Machine.execDramInitEnd channel fail mr4 s
  | .dmcErrClear ag channel => Sys2Proof.Machine.execDmcErrClear ag channel s
  | .sourceLevelChange source => Sys2Proof.Machine.execSourceLevelChange source s
  | .pinLevelFiltered pin level => Sys2Proof.Machine.execPinLevelFiltered pin level s
  | .sourcePresentation core slot => Sys2Proof.Machine.execSourcePresentation core slot s
  | .acceptNotice source => Sys2Proof.Machine.execAcceptNotice source s
  | .endNotice source => Sys2Proof.Machine.execEndNotice source s
  | .icuSwl ag half v => Sys2Proof.Machine.execIcuSwl ag half v s
  | .icuSrcWrite ag half source v => Sys2Proof.Machine.execIcuSrcWrite ag half source v s
  | .coreWakeRequest core => Sys2Proof.Machine.execCoreWakeRequest core s
  | .sqDb tenant off size v => Sys2Proof.Machine.execSqDb tenant off size v s
  | .cqAck tenant qp size v => Sys2Proof.Machine.execCqAck tenant qp size v s
  | .abort tenant qp => Sys2Proof.Machine.execAbort tenant qp s
  | .rebuild tenant qp => Sys2Proof.Machine.execRebuild tenant qp s
  | .descriptorRead tenant qp ans => Sys2Proof.Machine.execDescriptorRead tenant qp ans s
  | .nopDescriptor tenant qp => Sys2Proof.Machine.execNopDescriptor tenant qp s
  | .send tenant qp => Sys2Proof.Machine.execSend tenant qp s
  | .post tenant qp => Sys2Proof.Machine.execPost tenant qp s
  | .start tenant qp => Sys2Proof.Machine.execStart tenant qp s
  | .stop tenant qp => Sys2Proof.Machine.execStop tenant qp s
  | .edit tenant qp => Sys2Proof.Machine.execEdit tenant qp s
  | .resume tenant qp => Sys2Proof.Machine.execResume tenant qp s
  | .timedStart tenant qp => Sys2Proof.Machine.execTimedStart tenant qp s
  | .channelDrainEnd tenant qp => Sys2Proof.Machine.execChannelDrainEnd tenant qp s
  | .completionPosted tenant qp ans => Sys2Proof.Machine.execCompletionPosted tenant qp ans s
  | .sendChainComplete tenant qp => Sys2Proof.Machine.execSendChainComplete tenant qp s
  | .receiveMessage tenant qp => Sys2Proof.Machine.execReceiveMessage tenant qp s
  | .reassemblyTimeout tenant qp => Sys2Proof.Machine.execReassemblyTimeout tenant qp s
  | .meqQpSeq ag tenant qp v => Sys2Proof.Machine.execMeqQpSeq ag tenant qp v s
  | .meqQpCntreq ag tenant qp v => Sys2Proof.Machine.execMeqQpCntreq ag tenant qp v s
  | .ethResume ag port => Sys2Proof.Machine.execEthResume ag port s
  | .ethStop ag port => Sys2Proof.Machine.execEthStop ag port s
  | .ethLinkChange port up speed isMaster sqi => Sys2Proof.Machine.execEthLinkChange port up speed isMaster sqi s
  | .receiveFrame port bytes fcs wait => Sys2Proof.Machine.execReceiveFrame port bytes fcs wait s
  | .egressSelect port wait => Sys2Proof.Machine.execEgressSelect port wait s
  | .fdbAging half vid mac => Sys2Proof.Machine.execFdbAging half vid mac s
  | .fdbRead ag half => Sys2Proof.Machine.execFdbRead ag half s
  | .fdbWriteStatic ag half ports => Sys2Proof.Machine.execFdbWriteStatic ag half ports s
  | .fdbWriteDynamic ag half ports => Sys2Proof.Machine.execFdbWriteDynamic ag half ports s
  | .fdbDelete ag half => Sys2Proof.Machine.execFdbDelete ag half s
  | .fdbFlushDynamic ag half => Sys2Proof.Machine.execFdbFlushDynamic ag half s
  | .fdbFlushDynamicPort ag half ports => Sys2Proof.Machine.execFdbFlushDynamicPort ag half ports s
  | .tsnTstep ag half v => Sys2Proof.Machine.execTsnTstep ag half v s
  | .tsnTset ag half v => Sys2Proof.Machine.execTsnTset ag half v s
  | .tsnTnsRead half => Sys2Proof.Machine.execTsnTnsRead half s
  | .gateStateChange port => Sys2Proof.Machine.execGateStateChange port s
  | .gateListGo ag port v => Sys2Proof.Machine.execGateListGo ag port v s
  | .gateConfigChange port => Sys2Proof.Machine.execGateConfigChange port s
  | .streamGateChange half gate => Sys2Proof.Machine.execStreamGateChange half gate s
  | .recoveryResetTimeout half fn => Sys2Proof.Machine.execRecoveryResetTimeout half fn s
  | .cableDiagStart ag port => Sys2Proof.Machine.execCableDiagStart ag port s
  | .cableDiagComplete port fault dist => Sys2Proof.Machine.execCableDiagComplete port fault dist s
  | .saKeyInstall ag port v => Sys2Proof.Machine.execSaKeyInstall ag port v s
  | .saKeyClear ag port v => Sys2Proof.Machine.execSaKeyClear ag port v s
  | .saSubkeyReady port => Sys2Proof.Machine.execSaSubkeyReady port s
  | .canResume ag can => Sys2Proof.Machine.execCanResume ag can s
  | .canStop ag can => Sys2Proof.Machine.execCanStop ag can s
  | .canFrameReceived can f => Sys2Proof.Machine.execCanFrameReceived can f s
  | .canFrameOffer can => Sys2Proof.Machine.execCanFrameOffer can s
  | .canFrameSent can => Sys2Proof.Machine.execCanFrameSent can s
  | .canBusError can kind => Sys2Proof.Machine.execCanBusError can kind s
  | .busOffRecovery can => Sys2Proof.Machine.execBusOffRecovery can s
  | .ttlExpiry can => Sys2Proof.Machine.execTtlExpiry can s
  | .gatewayFrame half => Sys2Proof.Machine.execGatewayFrame half s
  | .streamFrameUnpack half => Sys2Proof.Machine.execStreamFrameUnpack half s
  | .linResume ag lin => Sys2Proof.Machine.execLinResume ag lin s
  | .linStop ag lin => Sys2Proof.Machine.execLinStop ag lin s
  | .linScheduleEntry lin => Sys2Proof.Machine.execLinScheduleEntry lin s
  | .linHeader lin id good => Sys2Proof.Machine.execLinHeader lin id good s
  | .linResponseReceived lin data good => Sys2Proof.Machine.execLinResponseReceived lin data good s
  | .linNoResponse lin => Sys2Proof.Machine.execLinNoResponse lin s
  | .goToSleep lin => Sys2Proof.Machine.execGoToSleep lin s
  | .wakeUpSignal lin => Sys2Proof.Machine.execWakeUpSignal lin s
  | .linWake ag lin => Sys2Proof.Machine.execLinWake ag lin s
  | .scheduleResume lin => Sys2Proof.Machine.execScheduleResume lin s
  | .boot a b ok => Sys2Proof.Machine.execBoot a b ok s
  | .scriptPollTimeout => Sys2Proof.Machine.execScriptPollTimeout s
  | .xspiReadTimeout p => Sys2Proof.Machine.execXspiReadTimeout p s
  | .bootlockSet ag => Sys2Proof.Machine.execBootlockSet ag s
  | .carveOutLock ag => Sys2Proof.Machine.execCarveOutLock ag s
  | .measurementExtend ag index => Sys2Proof.Machine.execMeasurementExtend ag index s
  | .deriveIntoSlot ag v => Sys2Proof.Machine.execDeriveIntoSlot ag v s
  | .loadKeyIntoSlot ag v => Sys2Proof.Machine.execLoadKeyIntoSlot ag v s
  | .releaseSlot ag v => Sys2Proof.Machine.execReleaseSlot ag v s
  | .revokeSlot ag v => Sys2Proof.Machine.execRevokeSlot ag v s
  | .attest ag => Sys2Proof.Machine.execAttest ag s
  | .programRoot ag v => Sys2Proof.Machine.execProgramRoot ag v s
  | .revokeRoot ag v => Sys2Proof.Machine.execRevokeRoot ag v s
  | .generateDus ag => Sys2Proof.Machine.execGenerateDus ag s
  | .sealKey ag => Sys2Proof.Machine.execSealKey ag s
  | .advanceRollback ag => Sys2Proof.Machine.execAdvanceRollback ag s
  | .programDebugKey ag => Sys2Proof.Machine.execProgramDebugKey ag s
  | .decommission ag => Sys2Proof.Machine.execDecommission ag s
  | .sm3Job ag chan v => Sys2Proof.Machine.execSm3Job ag chan v s
  | .sm4GcmEncrypt ag chan v => Sys2Proof.Machine.execSm4GcmEncrypt ag chan v s
  | .sm4GcmDecrypt ag chan v => Sys2Proof.Machine.execSm4GcmDecrypt ag chan v s
  | .aesGcmEncrypt ag chan v => Sys2Proof.Machine.execAesGcmEncrypt ag chan v s
  | .aesGcmDecrypt ag chan v => Sys2Proof.Machine.execAesGcmDecrypt ag chan v s
  | .sm2Verify ag chan v => Sys2Proof.Machine.execSm2Verify ag chan v s
  | .trngJob ag chan v => Sys2Proof.Machine.execTrngJob ag chan v s
  | .jobComplete chan => Sys2Proof.Machine.execJobComplete chan s
  | .trngHealthFailure => Sys2Proof.Machine.execTrngHealthFailure s
  | .trngRestart ag pass => Sys2Proof.Machine.execTrngRestart ag pass s
  | .cwWatchdogArm ag v => Sys2Proof.Machine.execCwWatchdogArm ag v s
  | .cwWatchdogKick ag v => Sys2Proof.Machine.execCwWatchdogKick ag v s
  | .cwWatchdogExpiry => Sys2Proof.Machine.execCwWatchdogExpiry s
  | .cwRestartRequest ag => Sys2Proof.Machine.execCwRestartRequest ag s
  | .cwRestart ag => Sys2Proof.Machine.execCwRestart ag s
  | .closedWorldRestart => Sys2Proof.Machine.execClosedWorldRestart s
  | .debugChallengeRead => Sys2Proof.Machine.execDebugChallengeRead s
  | .debugCertificateCheck ag => Sys2Proof.Machine.execDebugCertificateCheck ag s
  | .debugRevoke ag => Sys2Proof.Machine.execDebugRevoke ag s
  | .dbgRevoke ag => Sys2Proof.Machine.execDbgRevoke ag s
  | .anchorHeartbeat half => Sys2Proof.Machine.execAnchorHeartbeat half s
  | .peerHeartbeat half => Sys2Proof.Machine.execPeerHeartbeat half s
  | .peerSilence half => Sys2Proof.Machine.execPeerSilence half s
  | .clockRateWindow half own peer main => Sys2Proof.Machine.execClockRateWindow half own peer main s
  | .supplyViolation half rail mv => Sys2Proof.Machine.execSupplyViolation half rail mv s
  | .faultReport half n => Sys2Proof.Machine.execFaultReport half n s
  | .split half => Sys2Proof.Machine.execSplit half s
  | .splitDrainEnd half => Sys2Proof.Machine.execSplitDrainEnd half s
  | .safeRejoin ag half => Sys2Proof.Machine.execSafeRejoin ag half s
  | .rejoinLinksUp half => Sys2Proof.Machine.execRejoinLinksUp half s
  | .rejoinLinkTimeout half => Sys2Proof.Machine.execRejoinLinkTimeout half s
  | .safeWdtArm ag half v => Sys2Proof.Machine.execSafeWdtArm ag half v s
  | .safeWdtKick ag half v => Sys2Proof.Machine.execSafeWdtKick ag half v s
  | .safeWdtExpiry half => Sys2Proof.Machine.execSafeWdtExpiry half s
  | .inject ag half code => Sys2Proof.Machine.execInject ag half code s
  | .safeCtlLock ag half => Sys2Proof.Machine.execSafeCtlLock ag half s
  | .fmapCountClear ag half code => Sys2Proof.Machine.execFmapCountClear ag half code s
  | .safeOutputWrite ag half v => Sys2Proof.Machine.execSafeOutputWrite ag half v s
  | .pairForm ag half cluster k => Sys2Proof.Machine.execPairForm ag half cluster k s
  | .pairDissolve ag half cluster k => Sys2Proof.Machine.execPairDissolve ag half cluster k s
  | .pairFormed cluster k => Sys2Proof.Machine.execPairFormed cluster k s
  | .lockstepMismatch cluster k => Sys2Proof.Machine.execLockstepMismatch cluster k s
  | .powerUp ag domain => Sys2Proof.Machine.execPowerUp ag domain s
  | .powerDown ag domain => Sys2Proof.Machine.execPowerDown ag domain s
  | .powerDownRetention ag domain => Sys2Proof.Machine.execPowerDownRetention ag domain s
  | .powerSequenceDone domain => Sys2Proof.Machine.execPowerSequenceDone domain s
  | .retentionWake channel => Sys2Proof.Machine.execRetentionWake channel s
  | .coreFrequencyChange ag core mult => Sys2Proof.Machine.execCoreFrequencyChange ag core mult s
  | .coreFrequencyStep core => Sys2Proof.Machine.execCoreFrequencyStep core s
  | .railChange ag vcore => Sys2Proof.Machine.execRailChange ag vcore s
  | .pmicAnswer ack => Sys2Proof.Machine.execPmicAnswer ack s
  | .railSettled => Sys2Proof.Machine.execRailSettled s
  | .clockGate ag island gate => Sys2Proof.Machine.execClockGate ag island gate s
  | .lossOfLock island => Sys2Proof.Machine.execLossOfLock island s
  | .idleSleep core => Sys2Proof.Machine.execIdleSleep core s
  | .coreWake core => Sys2Proof.Machine.execCoreWake core s
  | .coldReset aon => Sys2Proof.Machine.execColdReset aon s
  | .warmChipReset pin ag v => Sys2Proof.Machine.execWarmChipReset pin ag v s
  | .clusterReset ag cluster => Sys2Proof.Machine.execClusterReset ag cluster s
  | .coreReset ag core => Sys2Proof.Machine.execCoreReset ag core s
  | .tenantReset ag tenant => Sys2Proof.Machine.execTenantReset ag tenant s
  | .traceEncoderEnable ag core v => Sys2Proof.Machine.execTraceEncoderEnable ag core v s
  | .traceTrigger ag => Sys2Proof.Machine.execTraceTrigger ag s
  | .chunkCloseTimeout core => Sys2Proof.Machine.execChunkCloseTimeout core s
  | .chunkAdmission => Sys2Proof.Machine.execChunkAdmission s
  | .memorySinkWrite => Sys2Proof.Machine.execMemorySinkWrite s
  | .sinkError => Sys2Proof.Machine.execSinkError s
  | .ledgerEnable ag v => Sys2Proof.Machine.execLedgerEnable ag v s
  | .ledgerDisable ag v => Sys2Proof.Machine.execLedgerDisable ag v s
  | .ledgerFlushEnd => Sys2Proof.Machine.execLedgerFlushEnd s
  | .halt ag cluster thread => Sys2Proof.Machine.execHalt ag cluster thread s
  | .release ag cluster thread => Sys2Proof.Machine.execRelease ag cluster thread s
  | .dbgxferUpdate v => Sys2Proof.Machine.execDbgxferUpdate v s
  | .debugAccessAnswer ans => Sys2Proof.Machine.execDebugAccessAnswer ans s
  | .trcLostClear ag => Sys2Proof.Machine.execTrcLostClear ag s
  | .serviceMode ag => Sys2Proof.Machine.execServiceMode ag s
  | .recoveryMode ag => Sys2Proof.Machine.execRecoveryMode ag s
  | .testMode ag => Sys2Proof.Machine.execTestMode ag s
  | .snapshot ag => Sys2Proof.Machine.execSnapshot ag s
  | .freeze ag => Sys2Proof.Machine.execFreeze ag s
  | .unfreeze ag => Sys2Proof.Machine.execUnfreeze ag s
  | .freezeAndSnapshot ag => Sys2Proof.Machine.execFreezeAndSnapshot ag s
  | .snapshotTick => Sys2Proof.Machine.execSnapshotTick s
  | .pmuReadout ag v => Sys2Proof.Machine.execPmuReadout ag v s
  | .pmuReadoutComplete => Sys2Proof.Machine.execPmuReadoutComplete s
  | .samplingFire core => Sys2Proof.Machine.execSamplingFire core s
  | .sampleRecordStored core => Sys2Proof.Machine.execSampleRecordStored core s
  | .bandwidthWindowEnd monitor => Sys2Proof.Machine.execBandwidthWindowEnd monitor s
  | .bwmaxClear ag monitor => Sys2Proof.Machine.execBwmaxClear ag monitor s
  | .settingPropagate addr => Sys2Proof.Machine.execSettingPropagate addr s
  | .junctionOverTemperature half temp => Sys2Proof.Machine.execJunctionOverTemperature half temp s
  | .anchorLockstepMismatch half => Sys2Proof.Machine.execAnchorLockstepMismatch half s
  | .perstRise pcie => Sys2Proof.Machine.execPerstRise pcie s
  | .ethStopComplete port => Sys2Proof.Machine.execEthStopComplete port s
  | .powerClockStatusRead addr => Sys2Proof.Machine.execPowerClockStatusRead addr s

end Sys2Proof.Machine
end

