-- ==== Sys2Proof/Machine/Tick.lean ====
section
/-! DEFINITION. What happens on one [ref] edge with no command waiting: the counts of every clock go on at their nominal ratios,
and buckets, credits and times with them (DESIGN CHOICE, log 1). -/

namespace Sys2Proof.Machine

/-! ## Cores (R30, R38, R506) -/

/-- A core with its clock passes the edges of one [ref] period, less those that its commands have passed already; what is
due lands. -/
def State.coreTick (s : State) (c : Nat) : State :=
  if !coreClocked s c then s
  else
    let k := s.core c
    let cur := s.f (R.CLK_CORE c) F.CLK_CORE_cur
    let used := min cur k.ahead
    let s1 := s.landAt c (k.cyc + (cur - used))
    let busy := !coreIdle s1 c
    s1.updCore c (fun x => { x with ahead := k.ahead - used, idle := if busy then x.cyc else k.idle })

/-- The 60 [cluster] edges of a period, which the L2 counts since its island left reset (R253). -/
def State.clusterTick (s : State) (q : Nat) : State :=
  if clusterRuns s q then s.updCluster q (fun y => { y with edges := y.edges + 60 }) else s

/-- A whole-cache maintenance operation goes on for the edges of a period of its target's clock: an L2's, a slice's or a core's
(R269). -/
def State.maintTick (s : State) (j : Nat) : State :=
  match maintOf s j with
  | none => s
  | some m =>
    let c := 8 * j + m.core
    if 16 ≤ j then (if unitRuns s (sliceDom (j - 16)) (128 + j) then s.maintRun j 60 60 else s)
    else if m.level = 0 then (if clusterRuns s j then s.maintRun j 60 60 else s)
    else if coreClocked s c then (let n := s.f (R.CLK_CORE c) F.CLK_CORE_cur; s.maintRun j n n)
    else s

/-! ## Anchors and the gPTP time (R31, R392, R469) -/

/-- The 16 [anchor] edges of a period. -/
def State.anchorTick (s : State) (j : Nat) : State := s.incWrap (R.SAFE_TIME j) F.SAFE_TIME_ticks 16

/-- The [me] edges of a period. -/
def meEdges : Nat := 50

/-- A pipeline's gPTP time advances on its [me] edges. -/
def State.gptpTick (s : State) (h : Nat) : State :=
  s.setGptp h ((gptp s h + meEdges * s.f (R.TSN_TADD (brBlock h)) F.TSN_TADD_add) % 2 ^ 96)

/-! ## Credits, meters and buckets (R378, R397, R404) -/

/-- The credit of a shaped class after the [me] edges of a period. -/
def creditAfter (s : State) (p c : Nat) (v : Int) : Int :=
  let x := s.port p
  let a := R.TSN_CBS p c
  let idle : Int := s.f a F.TSN_CBS_idle
  let rate : Int := portRate s p
  let opened := !s.on (R.TSN_GCTL p) F.TSN_GCTL_en || x.gates.testBit c
  let n : Int := meEdges
  let w :=
    if x.tx.any (fun f => f.tc = c) then v - n * (rate - idle)
    else if (mget [] x.queues c) = [] then (if 0 < v then 0 else min 0 (v + n * idle))
    else if !opened then v
    else v + n * idle
  let unit : Int := 8 * 1250000
  max (-(unit * s.f a F.TSN_CBS_locredit)) (min (unit * s.f a F.TSN_CBS_hicredit) w)

/-- The credits of a port's shaped classes. -/
def State.creditTick (s : State) (p : Nat) : State :=
  (List.range 8).foldl (fun s c =>
    if s.on (R.TSN_QCFG p c) F.TSN_QCFG_cbs then s.updPort p (fun x => { x with credit := mset x.credit c (creditAfter s p c (mget 0 x.credit c)) }) else s) s

/-- The tokens of a flow meter; what the committed bucket cannot hold goes to the excess bucket of a coupled meter (log 35). -/
def State.meterTick (s : State) (h m : Nat) : State :=
  let lo := R.TSN_FMTR (brBlock h) m
  let cir := s.f lo F.TSN_FMTR_cir
  let eir := s.f lo F.TSN_FMTR_eir
  if cir = 0 && eir = 0 then s
  else
    let b := s.bridge h
    let unit := 64 * 8 * 1250000
    let cmax := unit * s.f (lo + 8) F.TSN_FMTR_cbs
    let emax := unit * s.f (lo + 8) F.TSN_FMTR_ebs
    let c := mget 0 b.commit m + meEdges * cir
    let spill := if s.on (lo + 8) F.TSN_FMTR_cf then c - cmax else 0
    s.setBridge h { b with commit := mset b.commit m (min cmax c), excess := mset b.excess m (min emax (mget 0 b.excess m + meEdges * eir + spill)) }

/-- The transmit bucket of a queue pair gains its rate, and what is under way in it goes on. -/
def State.bucketTick (s : State) (n : Nat) : State :=
  let t := n / 8
  let q := n % 8
  let rate := s.f (R.MEQ_QP_RATE t q) F.MEQ_QP_RATE_rate
  if !pipeRuns s (pipeOf t) then s
  else
    (if rate = 0 then s
     else s.updQp t q (fun x => { x with bucket := min (1024 * s.f (R.MEQ_QP_RATE t q) F.MEQ_QP_RATE_burst) (x.bucket + rate) })).qpWork t q

/-! ## Counters of routers and channels (R544, R546, R547) -/

/-- The [router] edges of a period. -/
def State.routerTick (s : State) (r : Nat) : State :=
  if !routerRuns s r then s
  else
    let s1 := s.pmuAdd (160 + r) 0xF 60
    let held := (((s.router r).bufs.map (fun q => (q.2.map flits).sum))).sum
    if pmuSet s (R.PMU_RTHR r) F.PMU_RTHR_ne < held then s1.pmuAdd (160 + r) 0xE 60 else s1

/-- How many [mc] edges have passed by a [ref] edge: 42.665, 37.5, 32 or 21.33 to a period, by the rate trained (R30, R301). -/
def mcEdges (rate n : Nat) : Nat := n * [8533, 7500, 6400, 4266].getD rate 8533 / 200

/-- The [mc] edges of a period, and the refill of the regulators (R315). -/
def State.chanTick (s : State) (m : Nat) : State :=
  if !unitRuns s (dramDom m) (chanIsland m) then s
  else
    let x := s.chan m
    let e := mcEdges x.rate (s.ref + 1) - mcEdges x.rate s.ref
    let a := R.PMU_MTHR m
    let occ := fun (s : State) (code n t : Nat) => if t < n then s.pmuAdd (chanIsland m) code e else s
    let s1 := occ (occ (occ (s.pmuAdd (chanIsland m) 0xF e) 8 x.dq.length (pmuSet s a F.PMU_MTHR_n8)) 9 x.aq.length (pmuSet s a F.PMU_MTHR_n9))
      0xA x.wq.length (pmuSet s a F.PMU_MTHR_na)
    (s1.pmuAdd (chanIsland m) 0xC (e * x.held.length)).refill m

/-! ## One edge -/

/-- The bridge, ports and queue pairs of a pipeline that runs. -/
def State.pipeTick (s : State) (h : Nat) : State :=
  if !pipeRuns s h then s
  else
    let s1 := (List.range 20).foldl (fun s i => s.creditTick (20 * h + i)) (s.gptpTick h)
    (List.range 256).foldl (fun s m => s.meterTick h m) s1

/-- One [ref] edge passes (R30, R189). -/
def State.tick (s : State) : State :=
  let s1 := (List.range 32).foldl State.maintTick ((List.range 16).foldl State.clusterTick ((List.range 128).foldl State.coreTick s))
  let s2 := (List.range 2).foldl (fun s h => (s.anchorTick h).pipeTick h) s1
  let s3 := s2.qps.foldl (fun s x => s.bucketTick x.1) s2
  let s4 := (List.range 8).foldl State.chanTick ((List.range 30).foldl State.routerTick s3)
  let s5 := { s4 with ref := s.ref + 1 }
  s5.reportLocks.portOut.endPend

end Sys2Proof.Machine
end

