-- ==== Sys2Proof/WellFormed.lean ====
section
/-! DEFINITION. What a well-formed command is: the units it names exist and a syllable's operands fit its encoding. -/

namespace Sys2Proof

/-- A syllable names a core and a bank of the part. -/
def Syl.wf (x : Syl) : Bool := decide (x.core < 128) && decide (x.bank < 8)

/-- Well-formed commands. -/
def wellFormed (i : Instr) : Bool :=
  match i with
  | .registerWrite _ _ _ _ => true
  | .bundleIssue core bank => decide (core < 128) && decide (bank < 8)
  | .nop x => x.wf && fieldsOk .nop x.d x.a x.fn
  | .add x => x.wf && fieldsOk .add x.d x.a x.fn
  | .sub x => x.wf && fieldsOk .sub x.d x.a x.fn
  | .addc x => x.wf && fieldsOk .addc x.d x.a x.fn
  | .subc x => x.wf && fieldsOk .subc x.d x.a x.fn
  | .and x => x.wf && fieldsOk .and x.d x.a x.fn
  | .or x => x.wf && fieldsOk .or x.d x.a x.fn
  | .xor x => x.wf && fieldsOk .xor x.d x.a x.fn
  | .andn x => x.wf && fieldsOk .andn x.d x.a x.fn
  | .orn x => x.wf && fieldsOk .orn x.d x.a x.fn
  | .shl x => x.wf && fieldsOk .shl x.d x.a x.fn
  | .shr x => x.wf && fieldsOk .shr x.d x.a x.fn
  | .sar x => x.wf && fieldsOk .sar x.d x.a x.fn
  | .rol x => x.wf && fieldsOk .rol x.d x.a x.fn
  | .cmpeq x => x.wf && fieldsOk .cmpeq x.d x.a x.fn
  | .cmpne x => x.wf && fieldsOk .cmpne x.d x.a x.fn
  | .cmplt x => x.wf && fieldsOk .cmplt x.d x.a x.fn
  | .cmpltu x => x.wf && fieldsOk .cmpltu x.d x.a x.fn
  | .cmple x => x.wf && fieldsOk .cmple x.d x.a x.fn
  | .cmpleu x => x.wf && fieldsOk .cmpleu x.d x.a x.fn
  | .min x => x.wf && fieldsOk .min x.d x.a x.fn
  | .max x => x.wf && fieldsOk .max x.d x.a x.fn
  | .minu x => x.wf && fieldsOk .minu x.d x.a x.fn
  | .maxu x => x.wf && fieldsOk .maxu x.d x.a x.fn
  | .clz x => x.wf && fieldsOk .clz x.d x.a x.fn
  | .ctz x => x.wf && fieldsOk .ctz x.d x.a x.fn
  | .popc x => x.wf && fieldsOk .popc x.d x.a x.fn
  | .bswap x => x.wf && fieldsOk .bswap x.d x.a x.fn
  | .sext x => x.wf && fieldsOk .sext x.d x.a x.fn
  | .zext x => x.wf && fieldsOk .zext x.d x.a x.fn
  | .addi x => x.wf && fieldsOk .addi x.d x.a x.fn
  | .andi x => x.wf && fieldsOk .andi x.d x.a x.fn
  | .ori x => x.wf && fieldsOk .ori x.d x.a x.fn
  | .xori x => x.wf && fieldsOk .xori x.d x.a x.fn
  | .shli x => x.wf && fieldsOk .shli x.d x.a x.fn
  | .shri x => x.wf && fieldsOk .shri x.d x.a x.fn
  | .sari x => x.wf && fieldsOk .sari x.d x.a x.fn
  | .roli x => x.wf && fieldsOk .roli x.d x.a x.fn
  | .cmpeqi x => x.wf && fieldsOk .cmpeqi x.d x.a x.fn
  | .cmpnei x => x.wf && fieldsOk .cmpnei x.d x.a x.fn
  | .cmplti x => x.wf && fieldsOk .cmplti x.d x.a x.fn
  | .cmpltui x => x.wf && fieldsOk .cmpltui x.d x.a x.fn
  | .movi x => x.wf && fieldsOk .movi x.d x.a x.fn
  | .movhi x => x.wf && fieldsOk .movhi x.d x.a x.fn
  | .addpc x => x.wf && fieldsOk .addpc x.d x.a x.fn
  | .mfsr x => x.wf && fieldsOk .mfsr x.d x.a x.fn
  | .mtsr x => x.wf && fieldsOk .mtsr x.d x.a x.fn
  | .mul x => x.wf && fieldsOk .mul x.d x.a x.fn
  | .mac x => x.wf && fieldsOk .mac x.d x.a x.fn
  | .mulw x => x.wf && fieldsOk .mulw x.d x.a x.fn
  | .mulwu x => x.wf && fieldsOk .mulwu x.d x.a x.fn
  | .div x => x.wf && fieldsOk .div x.d x.a x.fn
  | .divu x => x.wf && fieldsOk .divu x.d x.a x.fn
  | .decadd x => x.wf && fieldsOk .decadd x.d x.a x.fn
  | .decsub x => x.wf && fieldsOk .decsub x.d x.a x.fn
  | .movm x => x.wf && fieldsOk .movm x.d x.a x.fn
  | .movtm x => x.wf && fieldsOk .movtm x.d x.a x.fn
  | .mResultWrite core bank => decide (core < 128) && decide (bank < 8)
  | .divideComplete core bank => decide (core < 128) && decide (bank < 8)
  | .decimalComplete core bank => decide (core < 128) && decide (bank < 8)
  | .fadd x => x.wf && fieldsOk .fadd x.d x.a x.fn
  | .fsub x => x.wf && fieldsOk .fsub x.d x.a x.fn
  | .fmul x => x.wf && fieldsOk .fmul x.d x.a x.fn
  | .fdiv x => x.wf && fieldsOk .fdiv x.d x.a x.fn
  | .fsqrt x => x.wf && fieldsOk .fsqrt x.d x.a x.fn
  | .fma x => x.wf && fieldsOk .fma x.d x.a x.fn
  | .fms x => x.wf && fieldsOk .fms x.d x.a x.fn
  | .fnma x => x.wf && fieldsOk .fnma x.d x.a x.fn
  | .fmin x => x.wf && fieldsOk .fmin x.d x.a x.fn
  | .fmax x => x.wf && fieldsOk .fmax x.d x.a x.fn
  | .fabs x => x.wf && fieldsOk .fabs x.d x.a x.fn
  | .fneg x => x.wf && fieldsOk .fneg x.d x.a x.fn
  | .fsgnj x => x.wf && fieldsOk .fsgnj x.d x.a x.fn
  | .fclass x => x.wf && fieldsOk .fclass x.d x.a x.fn
  | .fcmpeq x => x.wf && fieldsOk .fcmpeq x.d x.a x.fn
  | .fcmplt x => x.wf && fieldsOk .fcmplt x.d x.a x.fn
  | .fcmple x => x.wf && fieldsOk .fcmple x.d x.a x.fn
  | .fcmpun x => x.wf && fieldsOk .fcmpun x.d x.a x.fn
  | .fcvt x => x.wf && fieldsOk .fcvt x.d x.a x.fn
  | .fcvti x => x.wf && fieldsOk .fcvti x.d x.a x.fn
  | .fcvtiu x => x.wf && fieldsOk .fcvtiu x.d x.a x.fn
  | .fcvtf x => x.wf && fieldsOk .fcvtf x.d x.a x.fn
  | .fcvtfu x => x.wf && fieldsOk .fcvtfu x.d x.a x.fn
  | .fResultWrite core bank => decide (core < 128) && decide (bank < 8)
  | .fLongOperationComplete core bank => decide (core < 128) && decide (bank < 8)
  | .ldb x => x.wf && fieldsOk .ldb x.d x.a x.fn
  | .ldbu x => x.wf && fieldsOk .ldbu x.d x.a x.fn
  | .ldh x => x.wf && fieldsOk .ldh x.d x.a x.fn
  | .ldhu x => x.wf && fieldsOk .ldhu x.d x.a x.fn
  | .ldw x => x.wf && fieldsOk .ldw x.d x.a x.fn
  | .ldwu x => x.wf && fieldsOk .ldwu x.d x.a x.fn
  | .ldd x => x.wf && fieldsOk .ldd x.d x.a x.fn
  | .ldx x => x.wf && fieldsOk .ldx x.d x.a x.fn
  | .ldres x => x.wf && fieldsOk .ldres x.d x.a x.fn
  | .ldm x => x.wf && fieldsOk .ldm x.d x.a x.fn
  | .restl x => x.wf && fieldsOk .restl x.d x.a x.fn
  | .resth x => x.wf && fieldsOk .resth x.d x.a x.fn
  | .pref x => x.wf && fieldsOk .pref x.d x.a x.fn
  | .wfill x => x.wf && fieldsOk .wfill x.d x.a x.fn
  | .rsfill x => x.wf && fieldsOk .rsfill x.d x.a x.fn
  | .stb x => x.wf && fieldsOk .stb x.d x.a x.fn
  | .sth x => x.wf && fieldsOk .sth x.d x.a x.fn
  | .stw x => x.wf && fieldsOk .stw x.d x.a x.fn
  | .std x => x.wf && fieldsOk .std x.d x.a x.fn
  | .stx x => x.wf && fieldsOk .stx x.d x.a x.fn
  | .stcond x => x.wf && fieldsOk .stcond x.d x.a x.fn
  | .stm x => x.wf && fieldsOk .stm x.d x.a x.fn
  | .savel x => x.wf && fieldsOk .savel x.d x.a x.fn
  | .saveh x => x.wf && fieldsOk .saveh x.d x.a x.fn
  | .wspill x => x.wf && fieldsOk .wspill x.d x.a x.fn
  | .rsspill x => x.wf && fieldsOk .rsspill x.d x.a x.fn
  | .barl x => x.wf && fieldsOk .barl x.d x.a x.fn
  | .bars x => x.wf && fieldsOk .bars x.d x.a x.fn
  | .bara x => x.wf && fieldsOk .bara x.d x.a x.fn
  | .barx x => x.wf && fieldsOk .barx x.d x.a x.fn
  | .dclean x => x.wf && fieldsOk .dclean x.d x.a x.fn
  | .dinval x => x.wf && fieldsOk .dinval x.d x.a x.fn
  | .iclean x => x.wf && fieldsOk .iclean x.d x.a x.fn
  | .br x => x.wf && fieldsOk .br x.d x.a x.fn
  | .call x => x.wf && fieldsOk .call x.d x.a x.fn
  | .callw x => x.wf && fieldsOk .callw x.d x.a x.fn
  | .jmp x => x.wf && fieldsOk .jmp x.d x.a x.fn
  | .callr x => x.wf && fieldsOk .callr x.d x.a x.fn
  | .callwr x => x.wf && fieldsOk .callwr x.d x.a x.fn
  | .beqz x => x.wf && fieldsOk .beqz x.d x.a x.fn
  | .bnez x => x.wf && fieldsOk .bnez x.d x.a x.fn
  | .bltz x => x.wf && fieldsOk .bltz x.d x.a x.fn
  | .bgez x => x.wf && fieldsOk .bgez x.d x.a x.fn
  | .bgtz x => x.wf && fieldsOk .bgtz x.d x.a x.fn
  | .blez x => x.wf && fieldsOk .blez x.d x.a x.fn
  | .bbs x => x.wf && fieldsOk .bbs x.d x.a x.fn
  | .bbc x => x.wf && fieldsOk .bbc x.d x.a x.fn
  | .ret x => x.wf && fieldsOk .ret x.d x.a x.fn
  | .retw x => x.wf && fieldsOk .retw x.d x.a x.fn
  | .rett x => x.wf && fieldsOk .rett x.d x.a x.fn
  | .rspush x => x.wf && fieldsOk .rspush x.d x.a x.fn
  | .rspop x => x.wf && fieldsOk .rspop x.d x.a x.fn
  | .trap x => x.wf && fieldsOk .trap x.d x.a x.fn
  | .hcall x => x.wf && fieldsOk .hcall x.d x.a x.fn
  | .mcall x => x.wf && fieldsOk .mcall x.d x.a x.fn
  | .waitev x => x.wf && fieldsOk .waitev x.d x.a x.fn
  | .isync x => x.wf && fieldsOk .isync x.d x.a x.fn
  | .pflush x => x.wf && fieldsOk .pflush x.d x.a x.fn
  | .pbar x => x.wf && fieldsOk .pbar x.d x.a x.fn
  | .loadDataReturn core bank _ _ => decide (core < 128) && decide (bank < 8)
  | .storePerform core bank _ => decide (core < 128) && decide (bank < 8)
  | .storeAcknowledge core bank _ _ => decide (core < 128) && decide (bank < 8)
  | .deviceAccessSend core bank => decide (core < 128) && decide (bank < 8)
  | .deviceAccessTimeout core bank _ => decide (core < 128) && decide (bank < 8)
  | .barrierRelease core bank => decide (core < 128) && decide (bank < 8)
  | .snoopDeferralEnd cluster _ => decide (cluster < 16)
  | .exceptionEntry core bank _ _ _ _ => decide (core < 128) && decide (bank < 8)
  | .normalInterruptAccept core bank => decide (core < 128) && decide (bank < 8)
  | .entryCapture core bank => decide (core < 128) && decide (bank < 8)
  | .fastClassEntry core => decide (core < 128)
  | .fetchMissFill core bank _ => decide (core < 128) && decide (bank < 8)
  | .pageWalkRead core _ _ => decide (core < 128)
  | .translationResult core _ => decide (core < 128)
  | .mmuInv _ core _ => decide (core < 128)
  | .tlbInvalidationReceive by_ target => decide (by_ < 128) && decide (target < 160)
  | .tlbInvalidationAcknowledged by_ => decide (by_ < 128)
  | .decodeMapChange target => decide (target < 160)
  | .writeBufferDrainEnd core => decide (core < 128)
  | .threadValidate cluster thread _ => decide (cluster < 16) && decide (thread < 256)
  | .schedulerDecision cluster => decide (cluster < 16)
  | .quantumExpiry core => decide (core < 128)
  | .bankSwitch core => decide (core < 128)
  | .waitevAnswer core bank => decide (core < 128) && decide (bank < 8)
  | .threadTimerFire cluster thread => decide (cluster < 16) && decide (thread < 256)
  | .schedSemPost cluster sem _ => decide (cluster < 16) && decide (sem < 64)
  | .semaphoreTake cluster sem => decide (cluster < 16) && decide (sem < 64)
  | .completionNotice cluster tenant qp => decide (cluster < 16) && decide (tenant < 512) && decide (qp < 8)
  | .interruptEventLevel cluster source => decide (cluster < 16) && decide (source < 1024)
  | .threadLoad core => decide (core < 128)
  | .bankFreeze core bank => decide (core < 128) && decide (bank < 8)
  | .fastEnableApply core => decide (core < 128)
  | .pcieResume _ pcie => decide (pcie < 2)
  | .pcieStop _ pcie => decide (pcie < 2)
  | .pcieStopComplete pcie => decide (pcie < 2)
  | .perstRelease pcie => decide (pcie < 2)
  | .perstFall pcie => decide (pcie < 2)
  | .wakeFall pcie => decide (pcie < 2)
  | .pcieLinkChange pcie _ _ _ => decide (pcie < 2)
  | .pcieAttEntryWrite _ pcie entry _ => decide (pcie < 2) && decide (entry < 512)
  | .pcieOutboundRequest pcie _ => decide (pcie < 2)
  | .pcieCompletionReceive pcie k _ _ _ => decide (pcie < 2) && decide (k < 4)
  | .pcieCompletionTimeout pcie k => decide (pcie < 2) && decide (k < 4)
  | .pcieInboundTlp pcie _ => decide (pcie < 2)
  | .pcieInboundLineAnswer pcie _ _ => decide (pcie < 2)
  | .pcieMsiReceive pcie _ _ => decide (pcie < 2)
  | .pcieMsigen _ pcie _ => decide (pcie < 2)
  | .pcieConfigRequest pcie _ _ _ => decide (pcie < 2)
  | .intxMessage pcie => decide (pcie < 2)
  | .pcieLinkError pcie _ _ => decide (pcie < 2)
  | .l2Lookup core _ _ => decide (core < 128)
  | .readShared slice _ => decide (slice < 16)
  | .readUnique slice _ => decide (slice < 16)
  | .upgrade slice _ => decide (slice < 16)
  | .cleanRequest slice _ => decide (slice < 16)
  | .invalidateRequest slice _ => decide (slice < 16)
  | .evict slice _ => decide (slice < 16)
  | .victimOffer slice _ => decide (slice < 16)
  | .nonCacheableRead slice _ => decide (slice < 16)
  | .nonCacheableWrite slice _ => decide (slice < 16)
  | .fullLineWrite slice _ => decide (slice < 16)
  | .deviceRead slice _ => decide (slice < 16)
  | .deviceWrite slice _ => decide (slice < 16)
  | .snoopInvalidate cluster _ => decide (cluster < 16)
  | .forwardShared cluster _ => decide (cluster < 16)
  | .forwardUnique cluster _ => decide (cluster < 16)
  | .snoopClean cluster _ => decide (cluster < 16)
  | .snoopAnswer slice _ => decide (slice < 16)
  | .fill core _ _ => decide (core < 128)
  | .ownershipGrant core _ => decide (core < 128)
  | .evictAnswer cluster _ => decide (cluster < 16)
  | .maintenanceAcknowledge core bank _ _ => decide (core < 128) && decide (bank < 8)
  | .cacheInvalidate _ block _ core _ => decide (block < 32) && decide (core < 128)
  | .cacheClean _ block _ core _ => decide (block < 32) && decide (core < 128)
  | .cacheCleanInvalidate _ block _ core _ => decide (block < 32) && decide (core < 128)
  | .cacheMaintComplete block => decide (block < 32)
  | .routerHeadFlit router _ _ _ _ => decide (router < 30)
  | .slotAdmission router port _ => decide (router < 30) && decide (port < 40)
  | .escapeChannelMove router _ _ _ => decide (router < 30)
  | .creditReturn router _ _ _ => decide (router < 30)
  | .linkHeartbeat router _ _ => decide (router < 30)
  | .linkSilenceTimeout router _ => decide (router < 30)
  | .linkFence _ router _ => decide (router < 30)
  | .dslotApply router => decide (router < 30)
  | .nocErrClear _ router => decide (router < 30)
  | .transactionTimeout unit _ => decide (unit < 120)
  | .dramRead channel _ => decide (channel < 8)
  | .dramWrite channel _ => decide (channel < 8)
  | .dramReadComplete channel _ _ _ => decide (channel < 8)
  | .writeBatchStart channel => decide (channel < 8)
  | .refreshDue channel _ => decide (channel < 8)
  | .mr4Poll channel _ _ => decide (channel < 8)
  | .regulatorAdmit channel _ => decide (channel < 8)
  | .regionCommit _ => true
  | .regionTableDone => true
  | .dramInitStart _ channel => decide (channel < 8)
  | .dramInitEnd channel _ _ => decide (channel < 8)
  | .dmcErrClear _ channel => decide (channel < 8)
  | .sourceLevelChange source => decide (source < 1024)
  | .pinLevelFiltered _ _ => true
  | .sourcePresentation core _ => decide (core < 128)
  | .acceptNotice source => decide (source < 1024)
  | .endNotice source => decide (source < 1024)
  | .icuSwl _ half _ => decide (half < 2)
  | .icuSrcWrite _ half source _ => decide (half < 2) && decide (source < 1024)
  | .coreWakeRequest core => decide (core < 128)
  | .sqDb tenant _ _ _ => decide (tenant < 512)
  | .cqAck tenant qp _ _ => decide (tenant < 512) && decide (qp < 8)
  | .abort tenant qp => decide (tenant < 512) && decide (qp < 8)
  | .rebuild tenant qp => decide (tenant < 512) && decide (qp < 8)
  | .descriptorRead tenant qp _ => decide (tenant < 512) && decide (qp < 8)
  | .nopDescriptor tenant qp => decide (tenant < 512) && decide (qp < 8)
  | .send tenant qp => decide (tenant < 512) && decide (qp < 8)
  | .post tenant qp => decide (tenant < 512) && decide (qp < 8)
  | .start tenant qp => decide (tenant < 512) && decide (qp < 8)
  | .stop tenant qp => decide (tenant < 512) && decide (qp < 8)
  | .edit tenant qp => decide (tenant < 512) && decide (qp < 8)
  | .resume tenant qp => decide (tenant < 512) && decide (qp < 8)
  | .timedStart tenant qp => decide (tenant < 512) && decide (qp < 8)
  | .channelDrainEnd tenant qp => decide (tenant < 512) && decide (qp < 8)
  | .completionPosted tenant qp _ => decide (tenant < 512) && decide (qp < 8)
  | .sendChainComplete tenant qp => decide (tenant < 512) && decide (qp < 8)
  | .receiveMessage tenant qp => decide (tenant < 512) && decide (qp < 8)
  | .reassemblyTimeout tenant qp => decide (tenant < 512) && decide (qp < 8)
  | .meqQpSeq _ tenant qp _ => decide (tenant < 512) && decide (qp < 8)
  | .meqQpCntreq _ tenant qp _ => decide (tenant < 512) && decide (qp < 8)
  | .ethResume _ port => decide (port < 40)
  | .ethStop _ port => decide (port < 40)
  | .ethLinkChange port _ _ _ _ => decide (port < 40)
  | .receiveFrame port _ _ _ => decide (port < 40)
  | .egressSelect port _ => decide (port < 40)
  | .fdbAging half _ _ => decide (half < 2)
  | .fdbRead _ half => decide (half < 2)
  | .fdbWriteStatic _ half _ => decide (half < 2)
  | .fdbWriteDynamic _ half _ => decide (half < 2)
  | .fdbDelete _ half => decide (half < 2)
  | .fdbFlushDynamic _ half => decide (half < 2)
  | .fdbFlushDynamicPort _ half _ => decide (half < 2)
  | .tsnTstep _ half _ => decide (half < 2)
  | .tsnTset _ half _ => decide (half < 2)
  | .tsnTnsRead half => decide (half < 2)
  | .gateStateChange port => decide (port < 40)
  | .gateListGo _ port _ => decide (port < 40)
  | .gateConfigChange port => decide (port < 40)
  | .streamGateChange half _ => decide (half < 2)
  | .recoveryResetTimeout half _ => decide (half < 2)
  | .cableDiagStart _ port => decide (port < 40)
  | .cableDiagComplete port _ _ => decide (port < 40)
  | .saKeyInstall _ port _ => decide (port < 40)
  | .saKeyClear _ port _ => decide (port < 40)
  | .saSubkeyReady port => decide (port < 40)
  | .canResume _ can => decide (can < 24)
  | .canStop _ can => decide (can < 24)
  | .canFrameReceived can _ => decide (can < 24)
  | .canFrameOffer can => decide (can < 24)
  | .canFrameSent can => decide (can < 24)
  | .canBusError can _ => decide (can < 24)
  | .busOffRecovery can => decide (can < 24)
  | .ttlExpiry can => decide (can < 24)
  | .gatewayFrame half => decide (half < 2)
  | .streamFrameUnpack half => decide (half < 2)
  | .linResume _ lin => decide (lin < 16)
  | .linStop _ lin => decide (lin < 16)
  | .linScheduleEntry lin => decide (lin < 16)
  | .linHeader lin _ _ => decide (lin < 16)
  | .linResponseReceived lin _ _ => decide (lin < 16)
  | .linNoResponse lin => decide (lin < 16)
  | .goToSleep lin => decide (lin < 16)
  | .wakeUpSignal lin => decide (lin < 16)
  | .linWake _ lin => decide (lin < 16)
  | .scheduleResume lin => decide (lin < 16)
  | .boot _ _ _ => true
  | .scriptPollTimeout => true
  | .xspiReadTimeout _ => true
  | .bootlockSet _ => true
  | .carveOutLock _ => true
  | .measurementExtend _ _ => true
  | .deriveIntoSlot _ _ => true
  | .loadKeyIntoSlot _ _ => true
  | .releaseSlot _ _ => true
  | .revokeSlot _ _ => true
  | .attest _ => true
  | .programRoot _ _ => true
  | .revokeRoot _ _ => true
  | .generateDus _ => true
  | .sealKey _ => true
  | .advanceRollback _ => true
  | .programDebugKey _ => true
  | .decommission _ => true
  | .sm3Job _ chan _ => decide (chan < 4)
  | .sm4GcmEncrypt _ chan _ => decide (chan < 4)
  | .sm4GcmDecrypt _ chan _ => decide (chan < 4)
  | .aesGcmEncrypt _ chan _ => decide (chan < 4)
  | .aesGcmDecrypt _ chan _ => decide (chan < 4)
  | .sm2Verify _ chan _ => decide (chan < 4)
  | .trngJob _ chan _ => decide (chan < 4)
  | .jobComplete chan => decide (chan < 4)
  | .trngHealthFailure => true
  | .trngRestart _ _ => true
  | .cwWatchdogArm _ _ => true
  | .cwWatchdogKick _ _ => true
  | .cwWatchdogExpiry => true
  | .cwRestartRequest _ => true
  | .cwRestart _ => true
  | .closedWorldRestart => true
  | .debugChallengeRead => true
  | .debugCertificateCheck _ => true
  | .debugRevoke _ => true
  | .dbgRevoke _ => true
  | .anchorHeartbeat half => decide (half < 2)
  | .peerHeartbeat half => decide (half < 2)
  | .peerSilence half => decide (half < 2)
  | .clockRateWindow half _ _ _ => decide (half < 2)
  | .supplyViolation half _ _ => decide (half < 2)
  | .faultReport half _ => decide (half < 2)
  | .split half => decide (half < 2)
  | .splitDrainEnd half => decide (half < 2)
  | .safeRejoin _ half => decide (half < 2)
  | .rejoinLinksUp half => decide (half < 2)
  | .rejoinLinkTimeout half => decide (half < 2)
  | .safeWdtArm _ half _ => decide (half < 2)
  | .safeWdtKick _ half _ => decide (half < 2)
  | .safeWdtExpiry half => decide (half < 2)
  | .inject _ half _ => decide (half < 2)
  | .safeCtlLock _ half => decide (half < 2)
  | .fmapCountClear _ half _ => decide (half < 2)
  | .safeOutputWrite _ half _ => decide (half < 2)
  | .pairForm _ half cluster k => decide (half < 2) && decide (cluster < 16) && decide (k < 4)
  | .pairDissolve _ half cluster k => decide (half < 2) && decide (cluster < 16) && decide (k < 4)
  | .pairFormed cluster k => decide (cluster < 16) && decide (k < 4)
  | .lockstepMismatch cluster k => decide (cluster < 16) && decide (k < 4)
  | .powerUp _ domain => decide (domain < 218)
  | .powerDown _ domain => decide (domain < 218)
  | .powerDownRetention _ domain => decide (domain < 218)
  | .powerSequenceDone domain => decide (domain < 218)
  | .retentionWake channel => decide (channel < 8)
  | .coreFrequencyChange _ core _ => decide (core < 128)
  | .coreFrequencyStep core => decide (core < 128)
  | .railChange _ _ => true
  | .pmicAnswer _ => true
  | .railSettled => true
  | .clockGate _ island _ => decide (island < 205)
  | .lossOfLock island => decide (island < 205)
  | .idleSleep core => decide (core < 128)
  | .coreWake core => decide (core < 128)
  | .coldReset _ => true
  | .warmChipReset _ _ _ => true
  | .clusterReset _ cluster => decide (cluster < 16)
  | .coreReset _ core => decide (core < 128)
  | .tenantReset _ tenant => decide (tenant < 512)
  | .traceEncoderEnable _ core _ => decide (core < 128)
  | .traceTrigger _ => true
  | .chunkCloseTimeout core => decide (core < 128)
  | .chunkAdmission => true
  | .memorySinkWrite => true
  | .sinkError => true
  | .ledgerEnable _ _ => true
  | .ledgerDisable _ _ => true
  | .ledgerFlushEnd => true
  | .halt _ cluster thread => decide (cluster < 16) && decide (thread < 256)
  | .release _ cluster thread => decide (cluster < 16) && decide (thread < 256)
  | .dbgxferUpdate _ => true
  | .debugAccessAnswer _ => true
  | .trcLostClear _ => true
  | .serviceMode _ => true
  | .recoveryMode _ => true
  | .testMode _ => true
  | .snapshot _ => true
  | .freeze _ => true
  | .unfreeze _ => true
  | .freezeAndSnapshot _ => true
  | .snapshotTick => true
  | .pmuReadout _ _ => true
  | .pmuReadoutComplete => true
  | .samplingFire core => decide (core < 128)
  | .sampleRecordStored core => decide (core < 128)
  | .bandwidthWindowEnd monitor => decide (monitor < 16)
  | .bwmaxClear _ monitor => decide (monitor < 16)
  | .settingPropagate _ => true
  | .junctionOverTemperature half _ => decide (half < 2)
  | .anchorLockstepMismatch half => decide (half < 2)
  | .perstRise pcie => decide (pcie < 2)
  | .ethStopComplete port => decide (port < 40)
  | .powerClockStatusRead _ => true

end Sys2Proof
end

