-- ==== Sys2Proof/Safety.lean ====
section
/-! DEFINITION. What counts as a safe step, and the terms that claims about steps use. -/

namespace Sys2Proof

open Machine

/-- A command runs in a state: it has a next state, neither a fault nor a refusal. -/
def Runs (i : Instr) (s : State) : Prop := ∃ t, exec i s = .next t

/-- Every waiting command is well formed. -/
def queueOk (s : Machine.State) : Bool := s.pending.all wellFormed

end Sys2Proof

namespace Sys2Proof.Machine

/-! ## Terms of the claims about bundles -/

/-- A bank without the notes that counters, debug and the deferral of snoops keep in it: the waste of the last redirect, a switch in, a
step, the bundles since an LDRES. -/
def Bank.bare (a : Bank) : Bank := { a with waste := 0, swIn := false, stepOff := false, cons := none }

/-- Two banks that differ at most in those notes. -/
def Bank.same (a b : Bank) : Prop := a.bare = b.bare

/-- The registers that tracing writes: TRC_LOST, TRC_STAT and the encoders' TRC_ENC (R524, R529). -/
def traceReg (a : Nat) : Prop := a = R.TRC_LOST ∨ a = R.TRC_STAT ∨ ∃ c, a = R.TRC_ENC c

/-- Everything but the cores, the counters and the trace is as it was. -/
structure OutsideCores (s u : State) : Prop where
  rest : u = { s with cores := u.cores, regs := u.regs, pmu := u.pmu, encs := u.encs, chunks := u.chunks }
  regs : ∀ a, ¬traceReg a → u.reg a = s.reg a

/-- Of a core, only its banks and its edge counts differ. -/
def Core.banksOnly (k l : Core) : Prop := l = { k with banks := l.banks, cyc := l.cyc, idle := l.idle, ahead := l.ahead }

/-- What a bundle of a bank may change: its core's banks and edge counts. -/
structure Local (c : Nat) (s u : State) : Prop where
  outside : OutsideCores s u
  cores : ∀ d, d ≠ c → u.core d = s.core d
  core : (s.core c).banksOnly (u.core c)

/-- The bank of a bundle of `n` words that commits on edge `t`, before its effect: what is due by the next edge has landed. -/
def Bank.arrived (b : Bank) (t n : Nat) : Bank :=
  { landBank (t + 1) (landBank t b) with pc := (landBank (t + 1) (landBank t b)).pc + BitVec.ofNat 64 (4 * n), ready := t + 1, held := none }

/-- No debug event can be due in a core: the Ledger is off, or no mode is selected (R535). -/
def noDebug (s : State) (c : Nat) : Prop := domOn s 217 = false ∨ s.f (R.TRC_DCFG c) F.TRC_DCFG_mode = 0 ∨ s.f (R.TRC_DCFG c) F.TRC_DCFG_mode = 3

/-- A bundle of one instruction reaches issue on edge `t`: its bank is selected and holds no earlier bundle, and no fault of a long operation and no
lost store is pending (R54, R100, R135, R224). -/
structure Reaches (o : Op) (x : Syl) (s : State) (t : Nat) : Prop where
  core : x.core < 128
  bank : x.bank < 8
  can : canIssue s x.core x.bank = true
  fresh : (s.bank x.core x.bank).held = none
  hold : ∃ r, holdEdge (s.core x.core) x.bank [(o, x)] = some r ∧ t = max ((s.core x.core).cyc + 1) r
  noFault : (landBank t (s.bank x.core x.bank)).lofPend = false
  noLost : (landBank t (s.bank x.core x.bank)).lost = none

/-- A bundle of one instruction that reaches issue may issue: the syllable is legal at the bank's level, and no debug event is due (R61,
R70, R535). -/
structure Issues (o : Op) (x : Syl) (s : State) (t : Nat) : Prop extends Reaches o x s t where
  legal : checkSyl (landBank t (s.bank x.core x.bank)) o x = none
  debug : noDebug s x.core

/-- The state in which the instruction reads its operands. -/
def seenBy (s : State) (x : Syl) (t : Nat) : State := s.landIn x.core t (some (wastedCode s))

/-- The words of a bundle of one instruction. -/
def words (x : Syl) : Nat := if x.ext then 2 else 1

/-- The command of one instruction. -/
def instrOf (o : Op) (x : Syl) : Instr :=
  match o with
  | .nop => .nop x
  | .add => .add x
  | .sub => .sub x
  | .addc => .addc x
  | .subc => .subc x
  | .and => .and x
  | .or => .or x
  | .xor => .xor x
  | .andn => .andn x
  | .orn => .orn x
  | .shl => .shl x
  | .shr => .shr x
  | .sar => .sar x
  | .rol => .rol x
  | .cmpeq => .cmpeq x
  | .cmpne => .cmpne x
  | .cmplt => .cmplt x
  | .cmpltu => .cmpltu x
  | .cmple => .cmple x
  | .cmpleu => .cmpleu x
  | .min => .min x
  | .max => .max x
  | .minu => .minu x
  | .maxu => .maxu x
  | .clz => .clz x
  | .ctz => .ctz x
  | .popc => .popc x
  | .bswap => .bswap x
  | .sext => .sext x
  | .zext => .zext x
  | .addi => .addi x
  | .andi => .andi x
  | .ori => .ori x
  | .xori => .xori x
  | .shli => .shli x
  | .shri => .shri x
  | .sari => .sari x
  | .roli => .roli x
  | .cmpeqi => .cmpeqi x
  | .cmpnei => .cmpnei x
  | .cmplti => .cmplti x
  | .cmpltui => .cmpltui x
  | .movi => .movi x
  | .movhi => .movhi x
  | .addpc => .addpc x
  | .mfsr => .mfsr x
  | .mtsr => .mtsr x
  | .mul => .mul x
  | .mac => .mac x
  | .mulw => .mulw x
  | .mulwu => .mulwu x
  | .div => .div x
  | .divu => .divu x
  | .decadd => .decadd x
  | .decsub => .decsub x
  | .movm => .movm x
  | .movtm => .movtm x
  | .fadd => .fadd x
  | .fsub => .fsub x
  | .fmul => .fmul x
  | .fdiv => .fdiv x
  | .fsqrt => .fsqrt x
  | .fma => .fma x
  | .fms => .fms x
  | .fnma => .fnma x
  | .fmin => .fmin x
  | .fmax => .fmax x
  | .fabs => .fabs x
  | .fneg => .fneg x
  | .fsgnj => .fsgnj x
  | .fclass => .fclass x
  | .fcmpeq => .fcmpeq x
  | .fcmplt => .fcmplt x
  | .fcmple => .fcmple x
  | .fcmpun => .fcmpun x
  | .fcvt => .fcvt x
  | .fcvti => .fcvti x
  | .fcvtiu => .fcvtiu x
  | .fcvtf => .fcvtf x
  | .fcvtfu => .fcvtfu x
  | .ldb => .ldb x
  | .ldbu => .ldbu x
  | .ldh => .ldh x
  | .ldhu => .ldhu x
  | .ldw => .ldw x
  | .ldwu => .ldwu x
  | .ldd => .ldd x
  | .ldres => .ldres x
  | .ldm => .ldm x
  | .restl => .restl x
  | .resth => .resth x
  | .pref => .pref x
  | .wfill => .wfill x
  | .rsfill => .rsfill x
  | .ldx => .ldx x
  | .stb => .stb x
  | .sth => .sth x
  | .stw => .stw x
  | .std => .std x
  | .stx => .stx x
  | .stcond => .stcond x
  | .stm => .stm x
  | .savel => .savel x
  | .saveh => .saveh x
  | .wspill => .wspill x
  | .rsspill => .rsspill x
  | .barl => .barl x
  | .bars => .bars x
  | .bara => .bara x
  | .barx => .barx x
  | .dclean => .dclean x
  | .dinval => .dinval x
  | .iclean => .iclean x
  | .br => .br x
  | .call => .call x
  | .callw => .callw x
  | .jmp => .jmp x
  | .callr => .callr x
  | .callwr => .callwr x
  | .beqz => .beqz x
  | .bnez => .bnez x
  | .bltz => .bltz x
  | .bgez => .bgez x
  | .bgtz => .bgtz x
  | .blez => .blez x
  | .bbs => .bbs x
  | .bbc => .bbc x
  | .ret => .ret x
  | .retw => .retw x
  | .rett => .rett x
  | .rspush => .rspush x
  | .rspop => .rspop x
  | .trap => .trap x
  | .hcall => .hcall x
  | .mcall => .mcall x
  | .waitev => .waitev x
  | .isync => .isync x
  | .pflush => .pflush x
  | .pbar => .pbar x

/-- The bank of a syllable as its bundle finds it on edge `t`: what is due by then has landed. -/
def found (s : State) (x : Syl) (t : Nat) : Bank := landBank t (s.bank x.core x.bank)

/-- The instruction completes: a next state, in which its bank is `g` of the bank that its bundle commits in; the other banks of its
core only land what is due; nothing else but edge counts, counters and the trace differs. -/
def Commits (o : Op) (x : Syl) (s : State) (t : Nat) (g : Bank → Bank) : Prop :=
  ∃ u, exec (instrOf o x) s = .next u ∧ Local x.core s u ∧
    Bank.same (u.bank x.core x.bank) (g ((s.bank x.core x.bank).arrived t (words x))) ∧
    ∀ e, e ≠ x.bank → Bank.same (u.bank x.core e) (landBank (t + 1) (landBank t (s.bank x.core e)))

/-- The general register named `n` gets `v`; a write of g0 is discarded (R62). -/
def putG (at_ : Bank) (n : BitVec 6) (v : Word) (b : Bank) : Bank := if at_.nm n = 0 then b else { b with phys := mset b.phys (at_.nm n) v }

/-! ## Terms of the claims about registers -/

/-- Two states differ in nothing but the named fields of the named registers, which have these values. -/
structure Sets (s u : State) (l : List (Nat × Fld × Nat)) : Prop where
  rest : u = { s with regs := u.regs }
  vals : ∀ q ∈ l, u.f q.1 q.2.1 = q.2.2 % 2 ^ q.2.1.w
  bits : ∀ a i, (∀ q ∈ l, q.1 = a → i < q.2.1.lo ∨ q.2.1.lo + q.2.1.w ≤ i) → (u.reg a).getLsbD i = (s.reg a).getLsbD i

/-- A command that is a write of a register reaches its unit: the unit runs and takes a write of this agent (R10, R505). -/
structure Written (s : State) (k : BlockKind) (a : Nat) (ag : Agent) : Prop where
  runs : regRuns s a = true
  allowed : writeAllowed k (a % 0x10000) ag = true

/-- The state once a store that waits for the write of a register is acknowledged; the same where none waits (R46). -/
def acked (s : State) (ag : Agent) (a : Nat) : State := s.ackWrite ag (0xF0000000000 + a)

end Sys2Proof.Machine
end

