-- ==== Sys2Proof/Certificates/Slice0/Obligations.lean ====
section
/-! DEFINITION. The statements: what each command does, by the rules of the spec, and what every step keeps. -/

open Sys2Proof Sys2Proof.Machine

namespace Sys2Proof.Claims
/-- A command completes, in a state of which `P` holds. -/
def Leads (i : Instr) (s : State) (P : State → Prop) : Prop := ∃ u, exec i s = .next u ∧ P u
end Sys2Proof.Claims

namespace Sys2Proof.Claims
/-- What the integer instructions without flags write to rd (R57, R82, R83), from the values of ra and rb, the immediate, the old rd
and the bundle's address. -/
def intValue (o : Op) (x : Syl) (a b i d pc : Word) : Option Word :=
  match o with
  | .and => some (a &&& b)
  | .or => some (a ||| b)
  | .xor => some (a ^^^ b)
  | .andn => some (a &&& ~~~b)
  | .orn => some (a ||| ~~~b)
  | .shl => some (a <<< (b.toNat % 64))
  | .shr => some (a >>> (b.toNat % 64))
  | .sar => some (a.sshiftRight (b.toNat % 64))
  | .rol => some (a.rotateLeft (b.toNat % 64))
  | .cmpeq => some (if a = b then 1 else 0)
  | .cmpne => some (if a = b then 0 else 1)
  | .cmplt => some (if a.toInt < b.toInt then 1 else 0)
  | .cmpltu => some (if a.toNat < b.toNat then 1 else 0)
  | .cmple => some (if a.toInt ≤ b.toInt then 1 else 0)
  | .cmpleu => some (if a.toNat ≤ b.toNat then 1 else 0)
  | .min => some (if a.toInt < b.toInt then a else b)
  | .max => some (if a.toInt < b.toInt then b else a)
  | .minu => some (if a.toNat < b.toNat then a else b)
  | .maxu => some (if a.toNat < b.toNat then b else a)
  | .bswap => some (a.extractLsb' 0 8 ++ a.extractLsb' 8 8 ++ a.extractLsb' 16 8 ++ a.extractLsb' 24 8 ++ a.extractLsb' 32 8 ++
      a.extractLsb' 40 8 ++ a.extractLsb' 48 8 ++ a.extractLsb' 56 8)
  | .sext => some (if x.fn = 0 then (a.setWidth 8).signExtend 64 else if x.fn = 1 then (a.setWidth 16).signExtend 64 else (a.setWidth 32).signExtend 64)
  | .zext => some (if x.fn = 0 then (a.setWidth 8).setWidth 64 else if x.fn = 1 then (a.setWidth 16).setWidth 64 else (a.setWidth 32).setWidth 64)
  | .andi => some (a &&& i)
  | .ori => some (a ||| i)
  | .xori => some (a ^^^ i)
  | .shli => some (a <<< (i.toNat % 64))
  | .shri => some (a >>> (i.toNat % 64))
  | .sari => some (a.sshiftRight (i.toNat % 64))
  | .roli => some (a.rotateLeft (i.toNat % 64))
  | .cmpeqi => some (if a = i then 1 else 0)
  | .cmpnei => some (if a = i then 0 else 1)
  | .cmplti => some (if a.toInt < i.toInt then 1 else 0)
  | .cmpltui => some (if a.toNat < i.toNat then 1 else 0)
  | .movi => some i
  | .movhi => some (if x.ext then i.extractLsb' 0 32 ++ d.extractLsb' 0 32 else i.extractLsb' 0 16 ++ d.extractLsb' 0 48)
  | .addpc => some (pc + i)
  | _ => none
end Sys2Proof.Claims

open Sys2Proof.Claims

/-- The integer instructions that write no flag complete with the value of their row in rd (R57, R83), and change nothing else. -/
def Obligations.IntegerResults : Prop :=
  ∀ (o : Op) (x : Syl) (s : State) (t : Nat) (v : Word), Issues o x s t →
    intValue o x ((found s x t).g x.a) ((found s x t).g x.b) x.imm ((found s x t).g x.d) (found s x t).pc = some v →
    Commits o x s t (putG (found s x t) x.d v)

namespace Sys2Proof.Claims
/-- CLZ, CTZ and POPC complete with their counts in rd (R83): the place of the first 1 bit from the top or from the bottom, 64 of
zero; the number of 1 bits. -/
def BitCounts : Prop :=
  ∀ (o : Op) (x : Syl) (s : State) (t : Nat), Issues o x s t → o = .clz ∨ o = .ctz ∨ o = .popc →
    ∃ n : Nat, Commits o x s t (putG (found s x t) x.d (BitVec.ofNat 64 n)) ∧
      let a := (found s x t).g x.a
      (o = .clz → if a = 0 then n = 64 else n < 64 ∧ a.getLsbD (63 - n) = true ∧ ∀ i, i < n → a.getLsbD (63 - i) = false) ∧
      (o = .ctz → if a = 0 then n = 64 else n < 64 ∧ a.getLsbD n = true ∧ ∀ i, i < n → a.getLsbD i = false) ∧
      (o = .popc → n = ((List.range 64).filter (fun i => a.getLsbD i)).length)
end Sys2Proof.Claims

/-- ADD, ADDC and ADDI, SUB and SUBC complete with the sum or difference in rd and the carry and overflow of their unit in its flags
(R83, R84); the other unit's flags and everything else stay. -/
def Obligations.AddSubtract : Prop :=
  ∀ (o : Op) (x : Syl) (s : State) (t : Nat), Issues o x s t →
    let b := found s x t
    let a := b.g x.a
    let r := if o = .addi then x.imm else b.g x.b
    let c := if o = .addc ∨ o = .subc then (if x.i1 then b.psw.cf1 else b.psw.cf0) else false
    let k : Nat := if c then 1 else 0
    let flags := fun (cf vf : Bool) (p : Psw) => if x.i1 then { p with cf1 := cf, vf1 := vf } else { p with cf0 := cf, vf0 := vf }
    let put := fun (v : Word) (cf vf : Bool) (y : Bank) => { putG b x.d v y with psw := flags cf vf y.psw }
    (o = .add ∨ o = .addc ∨ o = .addi →
      Commits o x s t (put (BitVec.ofNat 64 (a.toNat + r.toNat + k)) (decide (2 ^ 64 ≤ a.toNat + r.toNat + k))
        (decide (a.toInt + r.toInt + k < -2 ^ 63 ∨ 2 ^ 63 ≤ a.toInt + r.toInt + k)))) ∧
    (o = .sub ∨ o = .subc →
      Commits o x s t (put (BitVec.ofInt 64 (a.toInt - r.toInt - k)) (decide (a.toNat < r.toNat + k))
        (decide (a.toInt - r.toInt - k < -2 ^ 63 ∨ 2 ^ 63 ≤ a.toInt - r.toInt - k))))

namespace Sys2Proof.Claims
/-- NOP and BARX complete and only move the PC (R83, R101): BARX has waited for the long operations. -/
def NothingWritten : Prop :=
  ∀ (o : Op) (x : Syl) (s : State) (t : Nat), Issues o x s t → o = .nop ∨ o = .barx → Commits o x s t id
end Sys2Proof.Claims

/-- CLZ, CTZ, POPC, NOP and BARX complete with their counts, or with nothing written (R83, R101). -/
def Obligations.BitCountsAndNops : Prop := Claims.BitCounts ∧ Claims.NothingWritten

namespace Sys2Proof.Claims
/-- MFSR completes with the special register's value in rd (R70 to R74): PSW by its fields, FLG as PSW[22:19], CTXID by its fields,
TVBM as SEC_CW_TVBM once that is locked (R440), and PSEC as zero. -/
def SpecialRegisterReads : Prop :=
  ∀ (x : Syl) (s : State) (t : Nat), Issues .mfsr x s t →
    let b := found s x t
    ∃ v : Word, Commits .mfsr x s t (putG b x.d v) ∧
      (x.a = 0 → fld v 0 2 = b.psw.pl.toNat ∧ bit v 2 = b.psw.world ∧ bit v 3 = b.psw.ie ∧ bit v 4 = b.psw.fie ∧ fld v 5 3 = b.psw.wcur % 8 ∧
        fld v 8 3 = b.psw.wres % 8 ∧ bit v 11 = b.psw.tw ∧ bit v 12 = b.psw.rsm ∧ bit v 13 = b.psw.rsl ∧ fld v 14 5 = b.psw.rsd % 32 ∧
        bit v 19 = b.psw.cf0 ∧ bit v 20 = b.psw.cf1 ∧ bit v 21 = b.psw.vf0 ∧ bit v 22 = b.psw.vf1 ∧ bit v 23 = false ∧
        fld v 24 3 = b.psw.bank % 8 ∧ bit v 27 = b.psw.fast ∧ fld v 28 36 = 0) ∧
      (x.a = 1 → bit v 0 = b.psw.cf0 ∧ bit v 1 = b.psw.cf1 ∧ bit v 2 = b.psw.vf0 ∧ bit v 3 = b.psw.vf1 ∧ fld v 4 60 = 0) ∧
      (x.a = 2 → v = b.fpc) ∧ (x.a = 3 → v = b.lof) ∧
      (x.a = 4 → fld v 0 9 = b.tenant % 512 ∧ fld v 9 10 = b.asid % 1024 ∧ fld v 19 7 = x.core ∧ fld v 26 3 = b.psw.bank % 8 ∧ fld v 29 35 = 0) ∧
      (x.a = 5 → v = b.folio) ∧ (x.a = 6 → v = b.tvbs) ∧ (x.a = 7 → v = b.tvbp) ∧
      (x.a = 8 → v = if s.f R.SEC_CW_CTL F.SEC_CW_CTL_tvbm_lock = 0 then b.tvbm else BitVec.ofNat 64 (s.f R.SEC_CW_TVBM F.SEC_CW_TVBM_base * 2 ^ 12)) ∧
      (x.a = 9 → v = 0)
end Sys2Proof.Claims

namespace Sys2Proof.Claims
/-- The bank of a syllable as it commits: what is due by the next edge has landed, and the PC is past the bundle. -/
def moved (x : Syl) (s : State) (t : Nat) : Bank := (s.bank x.core x.bank).arrived t (words x)

/-- An instruction completes with `g` on its own bank; where `re` says so the fast-vector buffer of its core is loaded anew, with nothing or
with a block of a line that the L1I holds (R151); nothing else but what a bundle's commit may change differs. -/
def Reloads (o : Op) (x : Syl) (s : State) (t : Nat) (re : Bool) (g : Bank → Bank) : Prop :=
  ∃ u, exec (instrOf o x) s = .next u ∧ OutsideCores s u ∧ (∀ d, d ≠ x.core → u.core d = s.core d) ∧
    (s.core x.core).banksOnly { u.core x.core with fastBuf := (s.core x.core).fastBuf } ∧
    Bank.same (u.bank x.core x.bank) (g (moved x s t)) ∧
    (∀ e, e ≠ x.bank → Bank.same (u.bank x.core e) (landBank (t + 1) (landBank t (s.bank x.core e)))) ∧
    (if re then ∀ q, (u.core x.core).fastBuf = some q → ∃ y ∈ (s.core x.core).l1i, y.line = q.1 / 2 ∧ y.data = q.2
     else (u.core x.core).fastBuf = (s.core x.core).fastBuf)
end Sys2Proof.Claims

namespace Sys2Proof.Claims
/-- MTSR completes with the special register written from rd (R70 to R74): of PSW the RW fields, and rsl cleared by a written 1;
FLG into PSW[22:19]; FPC with the flags that land on the edge it takes effect, and rm kept where the written one is reserved (R72, R125);
FOLIO[5:0] and the vector bases' [11:0] zero; TVBM not once it is locked (R440). A vector base of the fast bank has its fast-vector buffer loaded anew (R151). Nothing else changes. -/
def SpecialRegisterWrites : Prop :=
  ∀ (x : Syl) (s : State) (t : Nat), Issues .mtsr x s t →
    let b := found s x t
    let v := b.g x.d
    let fast := decide (x.bank = 7) && b.psw.fast
    (x.a = 0 → Commits .mtsr x s t (fun y => { y with psw := { y.psw with
      ie := v.getLsbD 3, fie := v.getLsbD 4, rsm := v.getLsbD 12, rsl := y.psw.rsl && !v.getLsbD 13, cf0 := v.getLsbD 19, cf1 := v.getLsbD 20,
      vf0 := v.getLsbD 21, vf1 := v.getLsbD 22 } })) ∧
    (x.a = 1 → Commits .mtsr x s t (fun y => { y with psw := { y.psw with
      cf0 := v.getLsbD 0, cf1 := v.getLsbD 1, vf0 := v.getLsbD 2, vf1 := v.getLsbD 3 } })) ∧
    (x.a = 2 → ∃ w : Word, Commits .mtsr x s t (fun y => { y with fpc := w }) ∧
      fld w 0 3 = (if fld v 0 3 ≤ 4 then fld v 0 3 else fld b.fpc 0 3) ∧ fld w 8 56 = 0 ∧
      ∀ i, i < 5 → (w.getLsbD (3 + i) = true ↔ v.getLsbD (3 + i) = true ∨ ∃ f ∈ b.fly, f.due = t + 1 ∧ f.fl.testBit i = true)) ∧
    (x.a = 3 → Commits .mtsr x s t (fun y => { y with lof := v &&& ~~~0x3FF0000000000000#64 })) ∧
    (x.a = 5 → Commits .mtsr x s t (fun y => { y with folio := v &&& ~~~0x3F#64 })) ∧
    (x.a = 6 → Reloads .mtsr x s t fast (fun y => { y with tvbs := v &&& ~~~0xFFF#64 })) ∧
    (x.a = 7 → Reloads .mtsr x s t fast (fun y => { y with tvbp := v &&& ~~~0xFFF#64 })) ∧
    (x.a = 8 → Reloads .mtsr x s t fast (fun y =>
      if s.f R.SEC_CW_CTL F.SEC_CW_CTL_tvbm_lock = 0 then { y with tvbm := v &&& ~~~0xFFF#64 } else y)) ∧
    (x.a = 9 → Commits .mtsr x s t (fun y => { y with psec := v }))
end Sys2Proof.Claims

/-- MFSR and MTSR complete with the special register read or written, by its fields (R70 to R74, R125, R440). -/
def Obligations.SpecialRegisters : Prop := Claims.SpecialRegisterReads ∧ Claims.SpecialRegisterWrites

namespace Sys2Proof.Claims
/-- A result joins those of its bank in flight. -/
def starts (f : Flight) (b : Bank) : Bank := { b with fly := addFlight b.fly f }

/-- A result of an M-unit long operation joins them, and DVS.busy becomes 1 (R77, R98). -/
def startsLong (f : Flight) (b : Bank) : Bank := { b with fly := addFlight b.fly f, dvs := b.dvs ||| 1#64 }

/-- A packed-decimal word's value, and whether its digits are valid (R95). -/
def bcd (v : Word) : Nat := ((List.range 16).map (fun i => v.toNat / 16 ^ i % 16 * 10 ^ i)).sum
def bcdOk (v : Word) : Prop := ∀ i, i < 16 → v.toNat / 16 ^ i % 16 ≤ 9
end Sys2Proof.Claims

/-- The multiply instructions complete with a result in flight that writes only the named product registers, on the edge that ends the
latency of R89, and with the values of R89, MAC's accumulator read at issue (R90); MOVTM writes its register one edge on, and
MOVM writes rd at once (R75, R76). -/
def Obligations.Multiply : Prop :=
  ∀ (x : Syl) (s : State) (t : Nat),
    let b := found s x t
    let a := b.g x.a
    let c := b.g x.b
    let p := x.d.toNat % 4
    (Issues .mul x s t → Commits .mul x s t (starts { kind := .mul, due := t + 3, mw := [(p, BitVec.ofNat 64 (a.toNat * c.toNat))] })) ∧
    (Issues .mac x s t → Commits .mac x s t (starts
      { kind := .mul, due := t + 3,
        mw := [(p, BitVec.ofNat 64 ((b.m p).toNat + a.toNat * c.toNat))] })) ∧
    (Issues .mulw x s t → Commits .mulw x s t (starts
      { kind := .mul, due := t + 4,
        mw := [(p, BitVec.ofInt 64 (a.toInt * c.toInt)), (p + 1, BitVec.ofInt 64 (a.toInt * c.toInt / 2 ^ 64))] })) ∧
    (Issues .mulwu x s t → Commits .mulwu x s t (starts
      { kind := .mul, due := t + 4,
        mw := [(p, BitVec.ofNat 64 (a.toNat * c.toNat)), (p + 1, BitVec.ofNat 64 (a.toNat * c.toNat / 2 ^ 64))] })) ∧
    (Issues .movm x s t → Commits .movm x s t (putG b x.d (if x.a.toNat = 6 then b.dvs else mget 0 b.mreg x.a.toNat))) ∧
    (Issues .movtm x s t → Commits .movtm x s t (starts { kind := .mul, due := t + 1, mw := [(x.a.toNat, b.g x.d)] }))

namespace Sys2Proof.Claims
/-- A division by zero, and DIV of −2^63 by −1, from their issue to DIVIDE_COMPLETE on the edge that ends their latency: QT (4), RM (5), DVS and LOF as R92 and R93
say, and no exception of the latter. -/
def DivideCorners : Prop :=
  ∀ (o : Op) (x : Syl) (s : State) (t : Nat), Issues o x s t → o = .div ∨ o = .divu → (s.bank x.core x.bank).fly = [] →
    let b := found s x t
    let a := b.g x.a
    let ends := fun (after : Nat) (rm : Word) (qt : Word) (bits : Word) (P : Bank → Prop) => ∃ u w, exec (instrOf o x) s = .next u ∧
      (u.bank x.core x.bank).dvs.getLsbD 0 = true ∧ exec (.divideComplete x.core x.bank) u = .next w ∧ (w.core x.core).cyc = max (u.core x.core).cyc (t + after) ∧
      let e := w.bank x.core x.bank
      mget 0 e.mreg 4 = qt ∧ mget 0 e.mreg 5 = rm ∧ e.dvs = (b.dvs &&& ~~~1#64) ||| bits ∧ P e
    let quiet := fun (e : Bank) => e.lof = b.lof ∧ e.lofPend = b.lofPend
    (b.g x.b = 0 → ends 6 a (BitVec.allOnes 64) 2 (fun e => if b.dvs.getLsbD 8 = false then quiet e
      else if b.lof.getLsbD 63 = true then e.lof = b.lof ||| 1#64 <<< 62
      else e.lofPend = true ∧ e.lof.getLsbD 63 = true ∧ fld e.lof 48 4 = 1 ∧ fld e.lof 0 48 = b.pc.toNat % 2 ^ 48)) ∧
    (o = .div → a = BitVec.ofInt 64 (-2 ^ 63) → b.g x.b = BitVec.ofInt 64 (-1) →
      ends (6 + (Nat.size (2 ^ 63) + 1 - Nat.size 1 + 3) / 4) 0 a 4 quiet)
end Sys2Proof.Claims

namespace Sys2Proof.Claims
/-- DIV and DIVU complete with DVS.busy 1 and a result in flight that writes QT and RM on the edge that ends the latency of R94, with the
quotient truncated toward zero and the remainder (R91), the values of R92 for a zero divisor and of R93 for −2^63 ÷ −1, and with the
flags and the long-operation fault those rules give. -/
def Divide : Prop :=
  ∀ (o : Op) (x : Syl) (s : State) (t : Nat), Issues o x s t → o = .div ∨ o = .divu →
    let b := found s x t
    let a := b.g x.a
    let d := b.g x.b
    let n := if o = .div then a.toInt.natAbs else a.toNat
    let m := if o = .div then d.toInt.natAbs else d.toNat
    (d = 0 → Commits o x s t (startsLong
      { kind := .div, due := t + 6, mw := [(4, BitVec.allOnes 64), (5, a)], dvs := 2,
        fault := if b.dvs.getLsbD 8 then some 1 else none, addr := b.pc })) ∧
    (d ≠ 0 → ∃ q r : Word,
      Commits o x s t (startsLong
      { kind := .div, due := t + 6 + (Nat.size n + 1 - Nat.size m + 3) / 4, mw := [(4, q), (5, r)],
        dvs := if o = .div ∧ a = BitVec.ofInt 64 (-2 ^ 63) ∧ d = BitVec.ofInt 64 (-1) then 4 else 0, addr := b.pc }) ∧
      (o = .divu → a.toNat = q.toNat * d.toNat + r.toNat ∧ r.toNat < d.toNat) ∧
      (o = .div → if a = BitVec.ofInt 64 (-2 ^ 63) ∧ d = BitVec.ofInt 64 (-1) then q = a ∧ r = 0
        else a.toInt = q.toInt * d.toInt + r.toInt ∧ r.toInt.natAbs < d.toInt.natAbs ∧ (r = 0 ∨ (r.toInt < 0 ↔ a.toInt < 0))))
end Sys2Proof.Claims

namespace Sys2Proof.Claims
/-- DECADD and DECSUB complete with DVS.busy 1 and a result in flight (R95 to R97): with valid digits it writes the sum or difference
modulo 10^16 to rd and its carry or borrow to DVS.dcy, after 10 + 2 m edges; with an invalid digit it writes neither, sets DVS.dinv
and raises the long-operation fault 0x2, after 10 edges. -/
def Decimal : Prop :=
  ∀ (o : Op) (x : Syl) (s : State) (t : Nat), Issues o x s t → o = .decadd ∨ o = .decsub →
    let b := found s x t
    let a := b.g x.a
    let d := b.g x.b
    (¬(bcdOk a ∧ bcdOk d) → Commits o x s t (startsLong { kind := .dec, due := t + 10, hold := b.nm x.d, dvs := 8, fault := some 2, addr := b.pc })) ∧
    (bcdOk a ∧ bcdOk d → ∃ (m : Nat) (v : Word) (y : Bool),
      Commits o x s t (startsLong { kind := .dec, due := t + 10 + 2 * m, pw := some (b.nm x.d, v), dcy := some y }) ∧
      a.toNat < 16 ^ m ∧ d.toNat < 16 ^ m ∧ (∀ k, k < m → 16 ^ k ≤ a.toNat ∨ 16 ^ k ≤ d.toNat) ∧ bcdOk v ∧
      (o = .decadd → bcd v + (if y then 10 ^ 16 else 0) = bcd a + bcd d) ∧
      (o = .decsub → bcd v + bcd d = bcd a + if y then 10 ^ 16 else 0))
end Sys2Proof.Claims

/-- DIV, DIVU, DECADD and DECSUB complete as long operations, with the results, flags and latencies of R91 to R97; a division by zero and −2^63 ÷ −1 to
their end (R92, R93). -/
def Obligations.DivideAndDecimal : Prop := Claims.DivideCorners ∧ Claims.Divide ∧ Claims.Decimal

namespace Sys2Proof.Claims
/-- The three formats of the F unit. -/
def isFmt (f : FFmt) : Prop := f = ⟨5, 10⟩ ∨ f = ⟨8, 23⟩ ∨ f = ⟨11, 52⟩

/-- The number that a finite datum is. -/
def fq : FVal → ℚ
  | .fin s m e => (if s then -1 else 1) * (m : ℚ) * (2 : ℚ) ^ e
  | _ => 0

/-- Whether a datum is a number, and not an infinity or a NaN. -/
def isNumber : FVal → Prop
  | .fin _ _ _ => True
  | _ => False

/-- A number of a format. -/
def ofFormat (f : FFmt) (y : ℚ) : Prop := ∃ n, n < 2 ^ f.width ∧ isNumber (funpack f n) ∧ fq (funpack f n) = y

/-- The rounding attribute of a syllable: fn[3:2], or FPC.rm where it is 0 (R121). -/
def rounding (x : Syl) (fpc : Word) : Rnd :=
  match x.fn.toNat / 4, fld fpc 0 3 with
  | 1, _ => .ne
  | 2, _ => .tz
  | _, 1 => .tz
  | _, 2 => .dn
  | _, 3 => .up
  | _, 4 => .na
  | _, _ => .ne

/-- A result lane by lane: in the packed format each half is a binary32 operation (R69, R114). -/
def byLanes (fn : Nat) (go : FFmt → (Nat → Nat) → Nat × Nat) : Word × Nat :=
  if fn % 4 = 3 then
    let p := go ⟨8, 23⟩ (fun v => v % 2 ^ 32)
    let q := go ⟨8, 23⟩ (fun v => v / 2 ^ 32)
    (BitVec.ofNat 64 (p.1 + q.1 * 2 ^ 32), p.2 ||| q.2)
  else
    let p := go (if fn % 4 = 0 then ⟨5, 10⟩ else if fn % 4 = 1 then ⟨8, 23⟩ else ⟨11, 52⟩) id
    (BitVec.ofNat 64 p.1, p.2)

/-- The latency of an F operation by the format of fn[1:0] (R118). -/
def fLatency (o : Op) (fn : Nat) : Option Nat :=
  match o with
  | .fabs | .fneg | .fsgnj => some 1
  | .fmin | .fmax | .fcmpeq | .fcmplt | .fcmple | .fcmpun | .fclass => some 2
  | .fadd | .fsub | .fmul | .fcvt | .fcvti | .fcvtiu | .fcvtf | .fcvtfu => some 4
  | .fma | .fms | .fnma => some 5
  | .fdiv | .fsqrt => some (if fn % 4 = 0 then 9 else if fn % 4 = 2 then 20 else 12)
  | _ => none

/-- The format of a scalar operation. -/
def scalar (x : Syl) : FFmt := if x.fn.toNat % 4 = 0 then ⟨5, 10⟩ else if x.fn.toNat % 4 = 2 then ⟨11, 52⟩ else ⟨8, 23⟩

/-- The result and flags of an F operation, from its operands, its addend and FPC (R115). -/
def fResult (o : Op) (x : Syl) (a b d fpc : Word) : Word × Nat :=
  let r := rounding x fpc
  let f := scalar x
  let A := funpack f a.toNat
  let B := funpack f b.toNat
  let two := fun (g : FFmt → Rnd → FVal → FVal → Nat × Nat) =>
    byLanes x.fn.toNat (fun f sel => g f r (funpack f (sel a.toNat)) (funpack f (sel b.toNat)))
  let three := fun (np nc : Bool) => byLanes x.fn.toNat (fun f sel =>
    ffma f r np nc (funpack f (sel a.toNat)) (funpack f (sel b.toNat)) (funpack f (sel d.toNat)))
  let sign := fun (g : Bool → Bool → Bool) => byLanes x.fn.toNat (fun f sel =>
    let k := f.mb + f.eb
    (sel a.toNat % 2 ^ k + (if g ((sel a.toNat).testBit k) ((sel b.toNat).testBit k) then 2 ^ k else 0), 0))
  let one := fun (p : Nat × Nat) => (BitVec.ofNat 64 p.1, p.2)
  match o with
  | .fadd => two fadd
  | .fsub => two fsub
  | .fmul => two fmul
  | .fma => three false false
  | .fms => three false true
  | .fnma => three true false
  | .fdiv => one (fdiv f r A B)
  | .fsqrt => one (fsqrt f r A)
  | .fmin => byLanes x.fn.toNat (fun f sel => fminmax f false (funpack f (sel a.toNat)) (funpack f (sel b.toNat)) (sel a.toNat) (sel b.toNat))
  | .fmax => byLanes x.fn.toNat (fun f sel => fminmax f true (funpack f (sel a.toNat)) (funpack f (sel b.toNat)) (sel a.toNat) (sel b.toNat))
  | .fabs => sign (fun _ _ => false)
  | .fneg => sign (fun p _ => !p)
  | .fsgnj => sign (fun _ q => q)
  | .fclass => (BitVec.ofNat 64 (fclass f A), 0)
  | .fcmpeq => one (fcompare (fun c => c = 0) false A B)
  | .fcmplt => one (fcompare (fun c => decide (c < 0)) true A B)
  | .fcmple => one (fcompare (fun c => decide (c ≤ 0)) true A B)
  | .fcmpun => (if A.isNan || B.isNan then 1 else 0, if anySnan [A, B] then 1 else 0)
  | .fcvt =>
    let g : FFmt := if x.fn.toNat / 4 = 0 then ⟨5, 10⟩ else if x.fn.toNat / 4 = 2 then ⟨11, 52⟩ else ⟨8, 23⟩
    one (fcvt f g (rounding { x with fn := 0 } fpc) A)
  | .fcvti => fcvti r true A
  | .fcvtiu => fcvti r false A
  | .fcvtf => one (fcvtf f r a.toInt)
  | .fcvtfu => one (fcvtf f r a.toNat)
  | _ => (0, 0)
end Sys2Proof.Claims

/-- Every F operation completes with a result in flight that writes rd, fixed at issue, and ORs its flags into FPC on the edge that ends
the latency of R118; FDIV and FSQRT as long operations (R115, R118 to R121, R125). What the operations on data compute is
stated by FloatRounding, FloatArithmetic, FloatEdgeCases and FloatCompareAndConvert. -/
def Obligations.FloatCompletes : Prop :=
  ∀ (o : Op) (x : Syl) (s : State) (t n : Nat), Issues o x s t → fLatency o x.fn.toNat = some n →
    let b := found s x t
    let v := fResult o x (b.g x.a) (b.g x.b) (b.g x.d) b.fpc
    Commits o x s t (starts
      { kind := if o = .fdiv ∨ o = .fsqrt then .fpLong else .fp, due := t + n, pw := some (b.nm x.d, v.1), fl := v.2 })

/-- The one rounding of R115 is right in every attribute: the result is the nearest number of the format, or the greatest not above, or
the least not below, or the greatest in magnitude not beyond the exact value; nx tells whether it differs from it; an infinity
comes with of and nx (R114, R115, R121, R122, R124). -/
def Obligations.FloatRounding : Prop :=
  ∀ (f : FFmt) (r : Rnd) (s : Bool) (m : Nat) (e : Int), isFmt f → m ≠ 0 →
    let v := fround f r s m e false
    let z := fq (.fin s m e)
    let w := funpack f v.1
    let y := fq w
    v.1 < 2 ^ f.width ∧
    (isNumber w →
      (r = .ne ∨ r = .na → ∀ u, ofFormat f u → |y - z| ≤ |u - z|) ∧
      (r = .dn → y ≤ z ∧ ∀ u, ofFormat f u → u ≤ z → u ≤ y) ∧
      (r = .up → z ≤ y ∧ ∀ u, ofFormat f u → z ≤ u → y ≤ u) ∧
      (r = .tz → |y| ≤ |z| ∧ 0 ≤ y * z ∧ ∀ u, ofFormat f u → 0 ≤ u * z → |u| ≤ |z| → |u| ≤ |y|) ∧
      (v.2.testBit 4 = true ↔ y ≠ z)) ∧
    (¬isNumber w → w = .inf s ∧ v.2 = 20 ∧ r ≠ .tz)

/-- FADD, FSUB, FMUL, FMA, FMS and FNMA of numbers whose exact result is not zero are the one rounding of that result (R115). -/
def Obligations.FloatArithmetic : Prop :=
  ∀ (f : FFmt) (r : Rnd) (a b c : FVal), isFmt f → isNumber a → isNumber b → isNumber c →
    let rounds := fun (v : Nat × Nat) (z : ℚ) => z ≠ 0 → ∃ (s : Bool) (m : Nat) (e : Int), m ≠ 0 ∧ fq (.fin s m e) = z ∧ v = fround f r s m e false
    rounds (fadd f r a b) (fq a + fq b) ∧ rounds (fsub f r a b) (fq a - fq b) ∧ rounds (fmul f r a b) (fq a * fq b) ∧
      rounds (ffma f r false false a b c) (fq a * fq b + fq c) ∧ rounds (ffma f r false true a b c) (fq a * fq b - fq c) ∧
      rounds (ffma f r true false a b c) (-(fq a * fq b) + fq c)

namespace Sys2Proof.Claims
/-- The operations on what is no number, and on exact zeros: the default NaN with nv for the operations of R126; the first NaN operand,
made quiet, with nv where any operand signals (R127); the sign of an exact zero sum (R123); a division by zero (R124). -/
def FloatSpecial : Prop :=
  ∀ (f : FFmt) (r : Rnd) (p q : Bool) (m : Nat) (e : Int) (a b : FVal), isFmt f →
    let nan := if f = ⟨5, 10⟩ then 0x7E00 else if f = ⟨8, 23⟩ then 0x7FC00000 else 0x7FF8000000000000
    fadd f r (.inf p) (.inf !p) = (nan, 1) ∧ fsub f r (.inf p) (.inf p) = (nan, 1) ∧
    fmul f r (.inf p) (.fin q 0 e) = (nan, 1) ∧ fmul f r (.fin q 0 e) (.inf p) = (nan, 1) ∧
    fdiv f r (.fin p 0 e) (.fin q 0 e) = (nan, 1) ∧ fdiv f r (.inf p) (.inf q) = (nan, 1) ∧
    (m ≠ 0 → fsqrt f r (.fin true m e) = (nan, 1)) ∧ fsqrt f r (.inf true) = (nan, 1) ∧ fsqrt f r (.fin true 0 e) = (2 ^ (f.mb + f.eb), 0) ∧
    (m ≠ 0 → funpack f (fdiv f r (.fin p m e) (.fin q 0 e)).1 = .inf (p ^^ q) ∧ (fdiv f r (.fin p m e) (.fin q 0 e)).2 = 2) ∧
    fadd f r (.fin p m e) (.fin (!p) m e) = (if r = .dn then 2 ^ (f.mb + f.eb) else 0, 0) ∧
    (∀ (s : Bool) (k : Nat), k < 2 ^ (f.mb - 1) → ∀ (o : FVal → FVal → Nat × Nat),
      o = fadd f r ∨ o = fsub f r ∨ o = fmul f r ∨ o = fdiv f r →
        funpack f (o (.nan s p k) b).1 = .nan s true k ∧
        ((o (.nan s p k) b).2 = if p = false ∨ anySnan [b] then 1 else 0) ∧
        (a.isNan = false → funpack f (o a (.nan s p k)).1 = .nan s true k ∧ (o a (.nan s p k)).2 = if p then 0 else 1))
end Sys2Proof.Claims

namespace Sys2Proof.Claims
/-- The comparisons of numbers are those of the numbers they are, −0 equal to +0; FCMPEQ raises nv for a signalling NaN only, FCMPLT
and FCMPLE for any, and a NaN compares false; FCLASS sets the one bit of the operand's class (R115 to R117). -/
def FloatCompare : Prop :=
  (∀ (a b : FVal), isNumber a → isNumber b →
    fcompare (fun c => c = 0) false a b = (if fq a = fq b then 1 else 0, 0) ∧
    fcompare (fun c => decide (c < 0)) true a b = (if fq a < fq b then 1 else 0, 0) ∧
    fcompare (fun c => decide (c ≤ 0)) true a b = (if fq a ≤ fq b then 1 else 0, 0)) ∧
  (∀ (a b : FVal) (rel : Int → Bool), a.isNan = true ∨ b.isNan = true →
    fcompare rel true a b = (0, 1) ∧ fcompare rel false a b = (0, if anySnan [a, b] then 1 else 0)) ∧
  (∀ (f : FFmt) (n : Nat), isFmt f → n < 2 ^ f.width →
    let s := n.testBit (f.mb + f.eb)
    let ex := n / 2 ^ f.mb % 2 ^ f.eb
    let fr := n % 2 ^ f.mb
    fclass f (funpack f n) =
      if ex = 2 ^ f.eb - 1 then (if fr = 0 then (if s then 2 ^ 0 else 2 ^ 7) else if fr.testBit (f.mb - 1) then 2 ^ 9 else 2 ^ 8)
      else if ex = 0 then (if fr = 0 then (if s then 2 ^ 3 else 2 ^ 4) else if s then 2 ^ 2 else 2 ^ 5)
      else if s then 2 ^ 1 else 2 ^ 6)
end Sys2Proof.Claims

namespace Sys2Proof.Claims
/-- FCVTI and FCVTIU of a number give the integer it rounds to, toward zero, down or up as the attribute says, where that fits, with nx
where it changes; and the values of R129 with nv where it does not fit, or for what is no number. -/
def FloatIntegers : Prop :=
  ∀ (r : Rnd) (sg : Bool) (a : FVal),
    let lo : Int := if sg then -2 ^ 63 else 0
    let hi : Int := if sg then 2 ^ 63 - 1 else 2 ^ 64 - 1
    let v := fcvti r sg a
    (isNumber a → ∃ k : Int,
      (r = .dn → k = ⌊fq a⌋) ∧ (r = .up → k = ⌈fq a⌉) ∧ (r = .tz → k = if 0 ≤ fq a then ⌊fq a⌋ else ⌈fq a⌉) ∧ |(k : ℚ) - fq a| < 1 ∧
      (r = .ne ∨ r = .na → |(k : ℚ) - fq a| ≤ 1 / 2 ∧ (|(k : ℚ) - fq a| = 1 / 2 → if r = .ne then k % 2 = 0 else |fq a| < |(k : ℚ)|)) ∧
      v = if k < lo then (BitVec.ofInt 64 lo, 1) else if hi < k then (BitVec.ofInt 64 hi, 1) else (BitVec.ofInt 64 k, if (k : ℚ) = fq a then 0 else 16)) ∧
    (¬isNumber a → v = (BitVec.ofInt 64 (if a = .inf true then lo else hi), 1))
end Sys2Proof.Claims

/-- The comparisons of numbers, FCLASS, and the conversions to integers, with their flags (R115 to R117, R129). -/
def Obligations.FloatCompareAndConvert : Prop := Claims.FloatCompare ∧ Claims.FloatIntegers

namespace Sys2Proof.Claims
/-- The rows of R130 for one format: an operation, its rounding, its operands ra and rb and its addend, its result and its flags (nv 1, dz 2, of 4,
uf 8, nx 16). The format's smallest subnormal is 1, its largest number L; ls is L × S, rs and rl the square roots of S and L, n the integer that L gives. -/
def edgeRows (sign L inf one half ls rs rsf rl n nf : Nat) : List (Op × Rnd × Nat × Nat × Nat × Nat × Nat) :=
  [(.fadd, .ne, 1, 1, 0, 2, 0), (.fsub, .ne, 1, 1, 0, 0, 0), (.fsub, .dn, 1, 1, 0, sign, 0), (.fadd, .ne, L, 1, 0, L, 16), (.fadd, .ne, L, L, 0, inf, 20),
    (.fadd, .tz, L, L, 0, L, 20), (.fmul, .ne, 1, 1, 0, 0, 24), (.fmul, .up, 1, 1, 0, 1, 24), (.fmul, .ne, L, 1, 0, ls, 0), (.fmul, .ne, L, L, 0, inf, 20),
    (.fdiv, .ne, 1, 1, 0, one, 0), (.fdiv, .ne, 1, L, 0, 0, 24), (.fdiv, .ne, L, 1, 0, inf, 20), (.fsqrt, .ne, 1, 0, 0, rs, rsf), (.fsqrt, .ne, L, 0, 0, rl, 16),
    (.fma, .ne, 1, 1, 1, 1, 24), (.fma, .ne, 1, half, 0, 0, 24), (.fma, .ne, L, one, L, inf, 20), (.fcvti, .ne, 1, 0, 0, 0, 16), (.fcvti, .ne, L, 0, 0, n, nf),
    (.fcvtiu, .ne, L + sign, 0, 0, 0, 1)]

/-- The rows of R130 by the format code of fn[1:0]. -/
def edgesOf (fmt : Nat) : List (Op × Rnd × Nat × Nat × Nat × Nat × Nat) :=
  if fmt = 0 then edgeRows 0x8000 0x7BFF 0x7C00 0x3C00 0x3800 0x1BFF 0x0C00 0 0x5BFF 0xFFE0 0
  else if fmt = 2 then edgeRows 0x8000000000000000 0x7FEFFFFFFFFFFFFF 0x7FF0000000000000 0x3FF0000000000000 0x3FE0000000000000 0x3CCFFFFFFFFFFFFF 0x1E60000000000000 0
    0x5FEFFFFFFFFFFFFF 0x7FFFFFFFFFFFFFFF 1
  else edgeRows 0x80000000 0x7F7FFFFF 0x7F800000 0x3F800000 0x3F000000 0x34FFFFFF 0x1A3504F3 16 0x5F7FFFFF 0x7FFFFFFFFFFFFFFF 1

/-- An F operation completes, with this result in flight to rd and these flags to FPC (R118). -/
def floatGives (o : Op) (x : Syl) (s : State) (t : Nat) (v : Word) (fl : Nat) : Prop :=
  ∃ n, fLatency o x.fn.toNat = some n ∧ Commits o x s t (starts
    { kind := if o = .fdiv ∨ o = .fsqrt then .fpLong else .fp, due := t + n, pw := some ((found s x t).nm x.d, v), fl := fl })
end Sys2Proof.Claims

namespace Sys2Proof.Claims
/-- The edge results of R130 and R131, with exactly the listed flags: in each format; in the packed one, whose lanes follow the binary32 column; and of
the conversions between formats and from an integer. -/
def FloatEdges : Prop :=
  ∀ (o : Op) (x : Syl) (s : State) (t : Nat), Issues o x s t →
    let b := found s x t
    let two := o ≠ .fsqrt ∧ o ≠ .fcvti ∧ o ≠ .fcvtiu
    (∀ r A B D v fl, x.fn.toNat % 4 < 3 → (o, r, A, B, D, v, fl) ∈ edgesOf (x.fn.toNat % 4) → rounding x b.fpc = r → b.g x.a = BitVec.ofNat 64 A →
      (two → b.g x.b = BitVec.ofNat 64 B) → (o = .fma → b.g x.d = BitVec.ofNat 64 D) → floatGives o x s t (BitVec.ofNat 64 v) fl) ∧
    (∀ r A B D v fl A' B' D' v' fl', x.fn.toNat % 4 = 3 → o = .fadd ∨ o = .fsub ∨ o = .fmul ∨ o = .fma → (o, r, A, B, D, v, fl) ∈ edgesOf 1 →
      (o, r, A', B', D', v', fl') ∈ edgesOf 1 → rounding x b.fpc = r → b.g x.a = BitVec.ofNat 64 (A + A' * 2 ^ 32) → b.g x.b = BitVec.ofNat 64 (B + B' * 2 ^ 32) →
      (o = .fma → b.g x.d = BitVec.ofNat 64 (D + D' * 2 ^ 32)) → floatGives o x s t (BitVec.ofNat 64 (v + v' * 2 ^ 32)) (fl ||| fl')) ∧
    (∀ fn rm A v fl, o = .fcvt → (fn, rm, A, v, fl) ∈ ([(4, 0, 1, 0x33800000, 0), (4, 0, 0x7BFF, 0x477FE000, 0), (9, 0, 1, 0x36A0000000000000, 0), (6, 0, 1, 0, 24),
        (6, 0, 0x7FEFFFFFFFFFFFFF, 0x7F800000, 20), (6, 1, 0x7FEFFFFFFFFFFFFF, 0x7F7FFFFF, 20), (1, 0, 0x7F7FFFFF, 0x7C00, 20)] : List (Nat × Nat × Nat × Nat × Nat)) →
      x.fn.toNat = fn → fld b.fpc 0 3 = rm → b.g x.a = BitVec.ofNat 64 A → floatGives o x s t (BitVec.ofNat 64 v) fl) ∧
    (o = .fcvtf → rounding x b.fpc = .ne → b.g x.a = 0x7FFFFFFFFFFFFFFF →
      (x.fn.toNat % 4 = 1 → floatGives o x s t 0x5F000000 16) ∧ (x.fn.toNat % 4 = 0 → floatGives o x s t 0x7C00 20))
end Sys2Proof.Claims

/-- The floating-point operations on NaNs, infinities and zeros, and the edge results, with their flags (R123 to R127, R130, R131). -/
def Obligations.FloatEdgeCases : Prop := Claims.FloatSpecial ∧ Claims.FloatEdges

namespace Sys2Proof.Claims
/-- What an instruction of core `c` leaves alone when it also acts on its core: everything outside the core but edge counts, counters, the
trace and the use of free values. -/
structure Aside (c : Nat) (s u : State) : Prop where
  rest : u = { s with cores := u.cores, regs := u.regs, pmu := u.pmu, encs := u.encs, chunks := u.chunks, draws := u.draws }
  regs : ∀ a, ¬traceReg a → u.reg a = s.reg a
  cores : ∀ d, d ≠ c → u.core d = s.core d

/-- The history of a bank once those of a core's branches on their way to BC that `p` names have resolved, oldest first (R138). -/
def historyBy (p : Train → Bool) (k : Core) (e : Nat) (gh : BitVec 16) : BitVec 16 :=
  (k.bcq.filter (fun q => p q && decide (q.bank = e) && decide (q.kind = 0))).foldl (fun h q => h <<< 1 ||| (if q.taken then 1 else 0)) gh

/-- The branches that have resolved at BC by the edge on which the branch issued on `t` was predicted, at NP (R132, R138). -/
def resolved (t : Nat) (q : Train) : Bool := decide (q.due ≤ t - 5)

/-- Of a core, only its banks, its edge counts and its predictor differ. -/
def predictorOnly (k l : Core) : Prop :=
  l = { k with banks := l.banks, cyc := l.cyc, idle := l.idle, ahead := l.ahead, btb := l.btb, dirT := l.dirT, indT := l.indT, bcq := l.bcq }

/-- A branch completes: it goes to `tg` where it is taken, and its bank is otherwise `g` of the one it commits in, but for the use of PBAR
and of a new PSEC that a taken branch ends, and the edge of the next issue, one on where the prediction `right` was right and eight where it was
wrong (R55, R74, R113, R138, R139). The update that a branch of the kind given makes at BC two edges on joins those on their way (none: a
return makes none), and the history of every bank takes the branches that had resolved when it was predicted (R132, R138). -/
def Branches (o : Op) (x : Syl) (s : State) (t : Nat) (kind : Option Nat) (taken right : Bool) (tg : Word) (g : Bank → Bank) : Prop :=
  ∃ u, exec (instrOf o x) s = .next u ∧ Aside x.core s u ∧ predictorOnly (s.core x.core) (u.core x.core) ∧
    let y := moved x s t
    let k := s.core x.core
    let l := u.core x.core
    let gh := fun (e : Nat) (h : BitVec 16) => if kind.isSome then historyBy (resolved t) k e h else h
    Bank.same (l.bank x.bank) { g y with
      pc := if taken then tg else y.pc, gh := gh x.bank y.gh, pbar := y.pbar && !taken, psecNow := if taken then y.psec else y.psecNow,
      fbuf := if taken || !right then [] else y.fbuf, ready := t + (if right then 1 else 8) } ∧
    (∀ e, e ≠ x.bank → Bank.same (l.bank e)
      { landBank (t + 1) (landBank t (s.bank x.core e)) with gh := gh e (landBank (t + 1) (landBank t (s.bank x.core e))).gh }) ∧
    match kind with
    | none => l.btb = k.btb ∧ l.dirT = k.dirT ∧ l.indT = k.indT ∧ l.bcq = k.bcq
    | some n => l.btb = (k.trainUpTo (t - 5)).btb ∧ l.dirT = (k.trainUpTo (t - 5)).dirT ∧ l.indT = (k.trainUpTo (t - 5)).indT ∧
        ∃ q : Train, l.bcq = k.bcq.filter (fun q => !resolved t q) ++ [q] ∧ q.due = t + 2 ∧ q.bank = x.bank ∧ q.kind = n ∧ q.taken = taken

/-- Whether a conditional branch is taken, by the value of its register (R55, R57). -/
def condition (o : Op) (x : Syl) (d : Word) : Option Bool :=
  match o with
  | .beqz => some (decide (d = 0))
  | .bnez => some (decide (d ≠ 0))
  | .bltz => some (decide (d.toInt < 0))
  | .bgez => some (decide (0 ≤ d.toInt))
  | .bgtz => some (decide (0 < d.toInt))
  | .blez => some (decide (d.toInt ≤ 0))
  | .bbs => some (d.getLsbD x.a.toNat)
  | .bbc => some (!d.getLsbD x.a.toNat)
  | _ => none

/-- Whether the predictor is right about a branch at `pc`, as its tables stood five edges before the issue (R132); the fall-through is
predicted under PBAR (R113, R137). -/
def foreseen (x : Syl) (s : State) (t : Nat) (pc : Word) (taken : Bool) (tg : Word) : Bool :=
  let y := moved x s t
  let k := (s.core x.core).trainUpTo (t - 5)
  let guess := if y.pbar then none else predict k { y with gh := historyBy (resolved t) (s.core x.core) x.bank y.gh } pc
  if taken then !y.pbar && decide (guess = some tg) else guess.isNone

/-- The entry of an exception is accepted in place of the bundle: its bank keeps its state, with the entry under way from edge `a`, and the
reservation gone (R54, R105, R142, R148). -/
def Enters (o : Op) (x : Syl) (s : State) (t a cause : Nat) (level : BitVec 2) (g2 g3 g4 : Word) : Prop :=
  ∃ u, exec (instrOf o x) s = .next u ∧ Local x.core s u ∧
    Bank.same (u.bank x.core x.bank) { found s x t with
      resv := none, missing := false, fwait := none, fsent := none, fbuf := [], ready := a, entry := some ⟨a, cause, level, g2, g3, g4, (found s x t).pc⟩ } ∧
    ∀ e, e ≠ x.bank → Bank.same (u.bank x.core e) (landBank t (s.bank x.core e))

/-- The push of the return stack (R78). -/
def pushed (v : Word) (b : Bank) : Bank :=
  { b with rs := mset b.rs (b.rst % 16) v, rst := (b.rst + 1) % 16, psw := { b.psw with rsd := if b.psw.rsd < 16 then b.psw.rsd + 1 else b.psw.rsd } }

/-- The pop of the return stack, and the value it returns (R78). -/
def popped (b : Bank) : Bank :=
  { b with rst := (b.rst + 15) % 16, psw := { b.psw with rsl := b.psw.rsl || b.psw.rsd = 0, rsd := b.psw.rsd - 1 } }
def topOf (b : Bank) : Word := mget 0 b.rs ((b.rst + 15) % 16)

/-- The window turns by one position, forward or back (R63). -/
def turned (up : Bool) (b : Bank) : Bank :=
  { b with psw := { b.psw with wcur := if up then (b.psw.wcur + 1) % 6 else (b.psw.wcur + 5) % 6, wres := if up then b.psw.wres + 1 else b.psw.wres - 1 } }

/-- Whether a call, and a return, of a context meets no trap condition of R63, R65 and R78. -/
def callFree (b : Bank) (win : Bool) : Prop := (win = true → b.psw.tw = false ∧ b.psw.wres ≠ 5) ∧ ¬(b.psw.rsd = 16 ∧ b.psw.rsm = true)
def retFree (b : Bank) (win : Bool) : Prop := (win = true → b.psw.tw = false ∧ b.psw.wres ≠ 1) ∧ ¬(b.psw.rsd = 0 ∧ b.psw.rsm = true)
end Sys2Proof.Claims

/-- The conditional branches, BR and JMP complete at their target where they are taken and past their bundle where not, with nothing else of
their context changed (R55, R57, R138, R139). -/
def Obligations.BranchTargets : Prop :=
  ∀ (o : Op) (x : Syl) (s : State) (t : Nat), Issues o x s t →
    let b := found s x t
    let rel := b.pc + x.imm * 4
    (∀ taken, condition o x (b.g x.d) = some taken → Branches o x s t (some 0) taken (foreseen x s t b.pc taken rel) rel id) ∧
    (o = .br → Branches o x s t (some 1) true (foreseen x s t b.pc true rel) rel id) ∧
    (o = .jmp → (b.g x.a).toNat % 4 = 0 → Branches o x s t (some 2) true (foreseen x s t b.pc true (b.g x.a)) (b.g x.a) id)

/-- The calls complete at their target with the address of the next bundle pushed, CALLW and CALLWR with the window turned forward; the
returns at the address they pop, RETW with the window turned back, predicted but at depth 0 in WRAP mode (R55, R63, R78, R79). -/
def Obligations.CallsAndReturns : Prop :=
  ∀ (o : Op) (x : Syl) (s : State) (t : Nat), Issues o x s t →
    let b := found s x t
    let win := decide (o = .callw ∨ o = .callwr ∨ o = .retw)
    let tg := if o = .callr ∨ o = .callwr then b.g x.a else b.pc + x.imm * 4
    (o = .call ∨ o = .callw ∨ o = .callr ∨ o = .callwr → callFree b win → (o = .callr ∨ o = .callwr → (b.g x.a).toNat % 4 = 0) →
      Branches o x s t (some (if o = .callr ∨ o = .callwr then 2 else 1)) true (foreseen x s t b.pc true tg) tg
        (fun y => pushed y.pc (if win then turned true y else y))) ∧
    (o = .ret ∨ o = .retw → retFree b win → (topOf b).toNat % 4 = 0 →
      Branches o x s t none true (decide (1 ≤ b.psw.rsd)) (topOf b) (fun y => popped (if win then turned false y else y)))

/-- The conditions of R55, R63 and R78 take their exceptions in place of the bundle: a target not on a word, a call with five resident
windows, a return with one, a push at depth 16 and a pop at depth 0 in TRAP mode, in the order of R66; g2 holds the target of cause 3. In the
trap window a turn of the window and each of those stack conditions freeze the bank (R65). -/
def Obligations.WindowAndStackTraps : Prop :=
  ∀ (o : Op) (x : Syl) (s : State) (t : Nat), Issues o x s t →
    let b := found s x t
    let reg := o = .callr ∨ o = .callwr
    let call := reg ∨ o = .call ∨ o = .callw
    let ret := o = .ret ∨ o = .retw
    let win := o = .callw ∨ o = .callwr ∨ o = .retw
    let off := (o = .jmp ∨ reg) ∧ (b.g x.a).toNat % 4 ≠ 0
    let offRet := ret ∧ ¬(b.psw.rsd = 0 ∧ b.psw.rsm = true) ∧ (topOf b).toNat % 4 ≠ 0
    (b.psw.tw = true → ((call ∨ o = .rspush) ∧ ¬off ∧ (win ∨ (b.psw.rsd = 16 ∧ b.psw.rsm = true))) ∨
        ((ret ∨ o = .rspop) ∧ ¬offRet ∧ (win ∨ (b.psw.rsd = 0 ∧ b.psw.rsm = true))) →
      ∃ u, exec (instrOf o x) s = .next u ∧ u.mem = s.mem ∧
        let e := u.bank x.core x.bank
        e.st = .frozen ∧ e.psw = b.psw ∧ e.pc = b.pc ∧ e.phys = b.phys ∧ e.rs = b.rs ∧ e.rst = b.rst ∧ e.entry = none) ∧
    (b.depth < 2 → b.psw.tw = false →
    (off → Enters o x s t t 3 1 (b.g x.a) 0 0) ∧ (offRet → Enters o x s t t 3 1 (topOf b) 0 0) ∧
    (¬off → call → win → b.psw.wres = 5 → Enters o x s t t 11 1 0 0 0) ∧
    (¬offRet → ret → win → b.psw.wres = 1 → Enters o x s t t 12 1 0 0 0) ∧
    (¬off → (call ∨ o = .rspush) → ¬(win ∧ b.psw.wres = 5) → b.psw.rsd = 16 → b.psw.rsm = true → Enters o x s t t 13 1 0 0 0) ∧
    ((ret ∨ o = .rspop) → ¬(win ∧ b.psw.wres = 1) → b.psw.rsd = 0 → b.psw.rsm = true → Enters o x s t t 14 1 0 0 0))

/-- RSPUSH, RSPOP, PBAR, WAITEV, PFLUSH and ISYNC complete with the effect of R78, R112, R113 and R164 and nothing else changed: PFLUSH drops
the context's predictor entries and its updates on the way, whose branches still enter the histories; ISYNC has the next bundle fetched anew 8
edges on, or once the context's earlier stores are done; the fast bank's reloads the fast-vector buffer from what the L1I holds (R151). -/
def Obligations.StackAndFetchControl : Prop :=
  ∀ (x : Syl) (s : State) (t : Nat),
    let b := found s x t
    (Issues .rspush x s t → ¬(b.psw.rsd = 16 ∧ b.psw.rsm = true) → Commits .rspush x s t (pushed (b.g x.a))) ∧
    (Issues .rspop x s t → ¬(b.psw.rsd = 0 ∧ b.psw.rsm = true) → Commits .rspop x s t (fun y => putG b x.d (topOf b) (popped y))) ∧
    (Issues .pbar x s t → Commits .pbar x s t (fun y => { y with pbar := true })) ∧
    (Issues .waitev x s t → Commits .waitev x s t (fun y => { y with waitev := some (x.imm.toNat % 2 ^ 16) })) ∧
    (Issues .pflush x s t → ∃ u, exec (.pflush x) s = .next u ∧ Aside x.core s u ∧ predictorOnly (s.core x.core) (u.core x.core) ∧
      let k := s.core x.core
      let l := u.core x.core
      let tag : BitVec 12 := BitVec.ofNat 12 (b.tenant % 512 + b.psw.bank % 8 * 512)
      let gh := historyBy (fun q => decide (q.tag = tag)) k
      Bank.same (l.bank x.bank) { moved x s t with gh := gh x.bank (moved x s t).gh } ∧
      (∀ e, e ≠ x.bank → Bank.same (l.bank e)
        { landBank (t + 1) (landBank t (s.bank x.core e)) with gh := gh e (landBank (t + 1) (landBank t (s.bank x.core e))).gh }) ∧
      l.btb = k.btb.filter (fun e => decide (e.tag ≠ tag)) ∧ l.dirT = k.dirT.filter (fun e => decide (e.2.tag ≠ tag)) ∧
        l.indT = k.indT.filter (fun e => decide (e.2.tag ≠ tag)) ∧ l.bcq = k.bcq.filter (fun q => !decide (q.tag = tag))) ∧
    (Issues .isync x s t →
      let waits := (s.core x.core).wb.any (fun e => (decide (e.bank = x.bank) || (b.thread.isSome && decide (e.thread = b.thread))) && decide (e.seq < b.seq))
      Reloads .isync x s t (decide (x.bank = 7) && b.psw.fast)
        (fun y => if waits then { y with isync := some (t, b.seq), fbuf := [] } else { y with ready := t + 8, fbuf := [] }))

/-- TRAP, HCALL and MCALL accept their entries, to S, P and M, with imm16 for g2 (R142); MCALL from the Open world while the Closed world is
busy completes with BUSY in g1 instead (R441). -/
def Obligations.CallsToHigherLevels : Prop :=
  ∀ (x : Syl) (s : State) (t : Nat),
    let b := found s x t
    let n : Word := BitVec.ofNat 64 (x.imm.toNat % 2 ^ 16)
    let busy := b.psw.world = false ∧ cwBusy s x.core = true
    b.depth < 2 →
    (Issues .trap x s t → Enters .trap x s t t 15 1 n 0 0) ∧
    (Issues .hcall x s t → Enters .hcall x s t t 16 2 n 0 0) ∧
    (Issues .mcall x s t → ¬busy → Enters .mcall x s t t 17 3 n 0 0) ∧
    (Issues .mcall x s t → busy → Commits .mcall x s t (fun y => { y with phys := mset y.phys 1 0xFFFFFFFFFFFFFFFE#64 }))

/-- A syllable that its level may not run takes a privilege exception, and one that is no instruction in its context an illegal-instruction
exception, in place of the bundle (R61, R70): an instruction below S, an MFSR or MTSR below its register's level or of one without it, a
RETT at depth 0. -/
def Obligations.PrivilegeAndIllegal : Prop :=
  ∀ (o : Op) (x : Syl) (s : State) (t : Nat), Reaches o x s t →
    let b := found s x t
    b.depth < 2 → fieldsOk o x.d x.a x.fn = true →
    (b.psw.pl = 0 → o ∈ [Op.rett, .hcall, .mcall, .wspill, .wfill, .rsspill, .rsfill, .savel, .saveh, .restl, .resth, .dinval] →
      Enters o x s t t 2 1 0 0 0) ∧
    (b.psw.pl = 0 → o = .mfsr → x.a = 3 ∨ x.a = 5 ∨ x.a = 6 ∨ x.a = 7 ∨ x.a = 8 ∨ x.a = 9 → Enters o x s t t 2 1 0 0 0) ∧
    (b.psw.pl = 0 → o = .mtsr → x.a = 0 ∨ x.a = 3 ∨ x.a = 5 ∨ x.a = 6 ∨ x.a = 7 ∨ x.a = 8 ∨ x.a = 9 → Enters o x s t t 2 1 0 0 0) ∧
    (b.psw.pl = 1 → o = .mfsr ∨ o = .mtsr → x.a = 7 ∨ x.a = 8 ∨ x.a = 9 → Enters o x s t t 2 1 0 0 0) ∧
    (b.psw.pl = 2 → o = .mfsr ∨ o = .mtsr → x.a = 8 → Enters o x s t t 2 1 0 0 0) ∧
    (b.psw.pl ≠ 0 → o = .rett → b.psw.fast = false → b.depth = 0 → Enters o x s t t 1 1 0 0 0)

/-- RETT completes. At depth d ≥ 1 it takes PSW, PC and g1 to g6 from record d − 1 of the folio, which the L1D and the context's own stores
hold, keeping wres, rsd, rsl, bank and fast, and the depth falls by 1, the restored bundle issuing 9 edges on, or later by the flush of a world
switch; a record that asks for more than the level or world held, or names no window, takes its exception and restores nothing (R68, R144, R153,
R260). A record that they do not hold is asked for, its bundle held meanwhile (R153); one that cannot be read freezes the bank (R146). In the fast
bank RETT reads no record, and the fast bank goes idle (R152). -/
def Obligations.ReturnFromEntry : Prop :=
  ∀ (x : Syl) (s : State) (t pa : Nat), Issues .rett x s t →
    let b := found s x t
    let w := seenBy s x t
    let addr := b.folio.toNat + 0x180 + 0x40 * (b.depth - 1)
    let ws := knownWords w x.core x.bank [recordPart pa]
    let r := Psw.ofWord (ws.getD 0 0)
    let out := b.psw.world = true ∧ r.world = false
    (b.psw.fast = true → b.depth = 0 → ∃ u, exec (.rett x) s = .next u ∧ u.mem = s.mem ∧
      (u.core x.core).fastRun = false ∧ (u.core x.core).fastSrc = none ∧ (u.bank x.core x.bank).phys = (moved x s t).phys ∧
      (u.bank x.core x.bank).psw = (moved x s t).psw) ∧
    (b.depth ≠ 0 → folioAt w x.core (preBank w x) addr false = none → ∃ u, exec (.rett x) s = .next u ∧ u.mem = s.mem ∧
      (u.bank x.core x.bank).st = .frozen) ∧
    (b.depth ≠ 0 → folioAt w x.core (preBank w x) addr false = some pa → linesKnown w x.core x.bank [recordPart pa] = true →
      (r.wcur ≤ 5 → r.pl.toNat ≤ b.psw.pl.toNat → ¬(r.world = true ∧ b.psw.world = false) → ∃ u, exec (.rett x) s = .next u ∧ u.mem = s.mem ∧
        let z := u.bank x.core x.bank
        z.psw = { (moved x s t).psw with
          pl := r.pl, world := r.world, ie := r.ie, fie := r.fie, wcur := r.wcur, tw := r.tw, rsm := r.rsm, cf0 := r.cf0, cf1 := r.cf1, vf0 := r.vf0, vf1 := r.vf1 } ∧
        z.pc = ws.getD 1 0 ∧ z.depth = b.depth - 1 ∧ (∀ i, 1 ≤ i → i ≤ 6 → mget 0 z.phys i = ws.getD (i + 1) 0) ∧
        (∀ i, 6 < i → mget 0 z.phys i = mget 0 (moved x s t).phys i) ∧ (if out then t + 9 + 4 ≤ z.ready else z.ready = t + 9)) ∧
      (b.depth < 2 → 6 ≤ r.wcur → Enters .rett x s t t 1 1 0 0 0) ∧
      (b.depth < 2 → r.wcur ≤ 5 → b.psw.pl.toNat < r.pl.toNat ∨ (r.world = true ∧ b.psw.world = false) → Enters .rett x s t t 2 1 0 0 0)) ∧
    (b.depth ≠ 0 → folioAt w x.core (preBank w x) addr false = some pa → linesKnown w x.core x.bank [recordPart pa] = false →
      ∃ u, exec (.rett x) s = .next u ∧ u.mem = s.mem ∧
        let z := u.bank x.core x.bank
        z.psw = b.psw ∧ z.pc = b.pc ∧ z.phys = b.phys ∧ z.depth = b.depth ∧ z.held.isSome = true ∧
        ∃ l ∈ z.loads, l.blk = 2 ∧ l.pa = pa ∧ l.size = 64)

namespace Sys2Proof.Claims
/-- The address of a load or store: base and displacement, or ra + rb, rb shifted by the size where fn[3] is 1 (R86). -/
def address (o : Op) (x : Syl) (b : Bank) : Word :=
  if o = .ldx ∨ o = .stx then b.g x.a + (if x.fn.getLsbD 3 then b.g x.b <<< (x.fn.toNat % 4) else b.g x.b)
  else if o = .stcond then b.g x.a
  else b.g x.a + x.imm

/-- Bytes of a load and whether it extends the sign; of a store, its bytes (R86). -/
def loadKind (o : Op) (x : Syl) : Option (Nat × Bool) :=
  match o with
  | .ldb => some (1, true)
  | .ldbu => some (1, false)
  | .ldh => some (2, true)
  | .ldhu => some (2, false)
  | .ldw => some (4, true)
  | .ldwu => some (4, false)
  | .ldd => some (8, false)
  | .ldres => some (8, false)
  | .ldx => some (2 ^ (x.fn.toNat % 4), !x.fn.getLsbD 2)
  | _ => none
def storeKindOf (o : Op) (x : Syl) : Option Nat :=
  match o with
  | .stb => some 1
  | .sth => some 2
  | .stw => some 4
  | .std => some 8
  | .stx => some (2 ^ (x.fn.toNat % 4))
  | _ => none

/-- The checks of an access let it pass, and these are its translated parts (R205, R221). -/
def accessed (x : Syl) (s : State) (t : Nat) (va : Word) (n : Nat) (k : AccKind) (align : Nat) (noDev : Option Nat) (ps : List PartAt) : Prop :=
  accessCheck (seenBy s x t) x.core (preBank (seenBy s x t) x) va n k align noDev = .ok ps

/-- The byte at place `i` of an access as the L1D or the context's own buffered stores give it (R87, R215). -/
def knownAt (x : Syl) (s : State) (t : Nat) (ps : List PartAt) (i : Nat) : Option Byte :=
  match ps.find? (fun p => decide (p.off ≤ i) && decide (i < p.off + p.n)) with
  | some p => knownByte (seenBy s x t) x.core x.bank p (i - p.off)
  | none => none

/-- A value is the `n` bytes that `f` gives, extended by sign or with zeros (R86). -/
def extended (n : Nat) (sg : Bool) (f : Nat → Option Byte) (v : Word) : Prop :=
  (∀ i, i < n → some (v.extractLsb' (8 * i) 8) = f i) ∧
    if sg then v = (v.setWidth (8 * n)).signExtend 64 else v.toNat < 2 ^ (8 * n)

/-- Whether an entry of a write buffer is of a bank's context: of the bank, or of its thread in another (R102, R215, R222). -/
def owned (b : Bank) (bi : Nat) (e : WbEnt) : Bool := decide (e.bank = bi) || (b.thread.isSome && decide (e.thread = b.thread))

/-- No older access of a core waits to be sent out of it: what its write buffer holds unsent goes to its own caches. -/
def quiet (k : Core) : Prop := ∀ e ∈ k.wb, e.sent = true ∨ e.kind = .normal ∨ e.kind = .stack ∨ e.kind = .dev

/-- A store of `n` bytes stands in the write buffer: place, kind, and its bytes by the mask of a line (R215). -/
def buffered (k : Core) (bi : Nat) (kind : WbKind) (pa n : Nat) (byte : Nat → Byte) : Prop :=
  ∃ e ∈ k.wb, e.bank = bi ∧ e.kind = kind ∧ e.pa / 64 = pa / 64 ∧
    ∀ i, i < n → e.mask.getLsbD (pa % 64 + i) = true ∧ e.data.extractLsb' (8 * (pa % 64 + i)) 8 = byte i

/-- Byte `i` of a word. -/
def byteOf (v : Word) (i : Nat) : Byte := v.extractLsb' (8 * i) 8

/-- What a memory access of a bank leaves of the bank beside its accesses under way: its registers, status and place. -/
structure Kept (a b : Bank) : Prop where
  psw : b.psw = a.psw
  pc : b.pc = a.pc
  phys : b.phys = a.phys
  mreg : b.mreg = a.mreg
  dvs : b.dvs = a.dvs
  rs : b.rs = a.rs ∧ b.rst = a.rst
  sr : b.fpc = a.fpc ∧ b.lof = a.lof ∧ b.folio = a.folio ∧ b.tvbs = a.tvbs ∧ b.tvbp = a.tvbp ∧ b.tvbm = a.tvbm ∧ b.psec = a.psec
  prog : b.prog = a.prog
  depth : b.depth = a.depth
  who : b.tenant = a.tenant ∧ b.asid = a.asid ∧ b.thread = a.thread
end Sys2Proof.Claims

namespace Sys2Proof.Claims
/-- A load of normal memory that passes its checks completes: where every byte is held by the L1D or the context's own stores, its result
is in flight for the edge of R87 (one later when split, R221), with the bytes extended as R86 says; else it takes its place
among the loads that wait. Registers, flags and memory are unchanged; LDRES also sets the reservation to its granule (R103). -/
def NormalLoads : Prop :=
  ∀ (o : Op) (x : Syl) (s : State) (t n : Nat) (sg : Bool) (ps : List PartAt), Issues o x s t → loadKind o x = some (n, sg) →
    let b := found s x t
    let y := moved x s t
    let va := address o x b
    accessed x s t va n .read (if o = .ldres then 8 else 1) (if o = .ldres then some 0xA else none) ps →
    (∀ p ∈ ps, p.mt ≠ .device) →
    ((∀ i, i < n → (knownAt x s t ps i).isSome) →
      ∃ u v, exec (instrOf o x) s = .next u ∧ Aside x.core s u ∧ extended n sg (knownAt x s t ps) v ∧
        Bank.same (u.bank x.core x.bank) { y with
          fly := addFlight y.fly { kind := .load, due := t + 2 + ps.length, pw := some (b.nm x.d, v) }, seq := y.seq + 1,
          resv := if o = .ldres then ps.head?.map (fun p => p.pa / 128) else y.resv, resvAt := if o = .ldres then t else y.resvAt }) ∧
    ((∃ i, i < n ∧ knownAt x s t ps i = none) → (∀ p ∈ ps, p.mt = .wb) → quiet (s.core x.core) →
      ∃ u, exec (instrOf o x) s = .next u ∧ Aside x.core s u ∧ Kept y (u.bank x.core x.bank) ∧ (u.bank x.core x.bank).fly = y.fly ∧
        (∃ l ∈ (u.bank x.core x.bank).loads, l.seq = y.seq ∧ l.phys = b.nm x.d ∧ l.va = va ∧ l.size = n ∧ l.sext = sg ∧ l.pc = b.pc ∧ l.mt = .wb) ∧
        (u.bank x.core x.bank).resv = if o = .ldres then ps.head?.map (fun p => p.pa / 128) else y.resv) ∧
    ((∃ i, i < n ∧ knownAt x s t ps i = none) → quiet (s.core x.core) →
      ∃ u, exec (instrOf o x) s = .next u ∧ u.mem = s.mem ∧ Kept y (u.bank x.core x.bank) ∧
        ∃ l ∈ (u.bank x.core x.bank).loads, l.seq = y.seq ∧ l.phys = b.nm x.d ∧ l.va = va ∧ l.size = n ∧ l.sext = sg ∧ l.pc = b.pc)
end Sys2Proof.Claims

namespace Sys2Proof.Claims
/-- A load of device type that passes its checks is asked for in its place, and its bundle held: no register, no memory and no status changes
until its data has come (R217, R218). -/
def DeviceLoads : Prop :=
  ∀ (o : Op) (x : Syl) (s : State) (t n : Nat) (sg : Bool) (p : PartAt), Issues o x s t → loadKind o x = some (n, sg) → o ≠ .ldres →
    accessed x s t (address o x (found s x t)) n .read 1 none [p] → p.mt = .device →
    ∃ u, exec (instrOf o x) s = .next u ∧ Aside x.core s u ∧ Kept (found s x t) (u.bank x.core x.bank) ∧
      (∃ w, (u.bank x.core x.bank).held = some w ∧ w.at_ = t ∧ w.syls = [(o, x)]) ∧
      ∃ l ∈ (u.bank x.core x.bank).loads, l.mt = .device ∧ l.sent = false ∧ l.pa = p.pa ∧ l.va = address o x (found s x t) ∧ l.size = n ∧ l.sext = sg
end Sys2Proof.Claims

/-- The loads of normal and of device memory (R53, R86, R87, R103, R217, R218, R221). -/
def Obligations.Loads : Prop := Claims.NormalLoads ∧ Claims.DeviceLoads

/-- A store that passes its checks completes: each part stands in the write buffer, or behind it, with its bytes of rs, and a reservation of
its own granule goes; registers and memory are unchanged until it is performed (R86, R105, R215, R221). -/
def Obligations.Stores : Prop :=
  ∀ (o : Op) (x : Syl) (s : State) (t n : Nat) (ps : List PartAt), Issues o x s t → storeKindOf o x = some n →
    let b := found s x t
    accessed x s t (address o x b) n .write 1 none ps →
    (quiet (s.core x.core) → (∀ p ∈ ps, (p.mt = .wb ∧ p.dec = false) ∨ (p.mt = .device ∧ b.devLost = false)) →
      ∃ u, exec (instrOf o x) s = .next u ∧ Aside x.core s u ∧ Kept (moved x s t) (u.bank x.core x.bank) ∧
        (u.bank x.core x.bank).fly = (moved x s t).fly ∧
        (∀ p ∈ ps, buffered (u.core x.core) x.bank (if p.mt = .device then .dev else .normal) p.pa p.n (fun i => byteOf (b.g x.d) (p.off + i)) ∧
          (u.bank x.core x.bank).resv ≠ some (p.pa / 128))) ∧
    ∃ u, exec (instrOf o x) s = .next u ∧ u.mem = s.mem ∧ Kept (moved x s t) (u.bank x.core x.bank) ∧
      ∀ p ∈ ps, p.mt ≠ .device → (u.bank x.core x.bank).resv ≠ some (p.pa / 128)

/-- The checks of an access raise their exceptions in the order of R205: an address LDRES or STCOND does not allow (R106), then what the
translation answers; 2 edges after issue, with the address and the syndrome of R204 (R207). -/
def Obligations.AccessFaults : Prop :=
  ∀ (o : Op) (x : Syl) (s : State) (t : Nat), Issues o x s t →
    let b := found s x t
    let va := address o x b
    b.depth < 2 →
    (o = .ldres ∨ o = .stcond → va.toNat % 8 ≠ 0 → Enters o x s t (t + 2) 6 1 va (syndrome 7 false 8 (decide (o = .stcond)) false false) 0) ∧
    (∀ n sg f, loadKind o x = some (n, sg) → (o = .ldres → va.toNat % 8 = 0) →
      translateFor (seenBy s x t) x.core (preBank (seenBy s x t) x) va .read = .fault f →
      Enters o x s t (t + 2) 5 (if f.s2 then 2 else 1) va (syndrome f.level f.s2 f.kind false f.walk false) (if f.s2 then BitVec.ofNat 64 f.ipa else 0)) ∧
    (∀ n f, storeKindOf o x = some n → translateFor (seenBy s x t) x.core (preBank (seenBy s x t) x) va .write = .fault f →
      Enters o x s t (t + 2) 5 (if f.s2 then 2 else 1) va (syndrome f.level f.s2 f.kind true f.walk false) (if f.s2 then BitVec.ofNat 64 f.ipa else 0))

/-- STCOND completes: without a reservation for the granule of its address it stores nothing and 0 is in flight to rd; with one, and the
line held writable, its store stands in the write buffer and 1 is in flight; both 3 edges on, and the reservation is gone; with one
but no such line, the context waits for ownership, and of memory that is not write-back for its store to be performed (R104 to R106). -/
def Obligations.StoreConditional : Prop :=
  ∀ (x : Syl) (s : State) (t : Nat) (p : PartAt), Issues .stcond x s t →
    let b := found s x t
    let y := moved x s t
    accessed x s t (b.g x.a) 8 .write 8 (some 0xA) [p] →
    let done := fun (v : Word) => addFlight y.fly { kind := .slow, due := t + 3, pw := some (b.nm x.b, v) }
    let writable := l1dOn s x.core = true ∧ ∃ l ∈ (s.core x.core).l1d, l.line = p.pa / 64 ∧ l.st ≠ .s
    (b.resv ≠ some (p.pa / 128) → ∃ u, exec (.stcond x) s = .next u ∧ Aside x.core s u ∧
      Bank.same (u.bank x.core x.bank) { y with fly := done 0, resv := none } ∧ (u.core x.core).wb = (s.core x.core).wb) ∧
    (b.resv = some (p.pa / 128) → p.mt = .wb → p.dec = false →
      (writable → quiet (s.core x.core) →
        ∃ u, exec (.stcond x) s = .next u ∧ Aside x.core s u ∧ Kept y (u.bank x.core x.bank) ∧
          (u.bank x.core x.bank).fly = done 1 ∧ (u.bank x.core x.bank).resv = none ∧
          buffered (u.core x.core) x.bank .normal p.pa 8 (byteOf (b.g x.d))) ∧
      (¬writable →
        ∃ u, exec (.stcond x) s = .next u ∧ Aside x.core s u ∧ Kept y (u.bank x.core x.bank) ∧
          (u.bank x.core x.bank).stc = some ⟨b.nm x.b, p.pa, b.g x.d, none⟩ ∧ (u.bank x.core x.bank).fly = y.fly ∧ (u.core x.core).wb = (s.core x.core).wb)) ∧
    (b.resv = some (p.pa / 128) → p.mt ≠ .wb → ∃ u, exec (.stcond x) s = .next u ∧ u.mem = s.mem ∧ Kept y (u.bank x.core x.bank) ∧
      (u.bank x.core x.bank).stc = some ⟨b.nm x.b, p.pa, b.g x.d, some y.seq⟩ ∧ (u.bank x.core x.bank).resv = none)

/-- BARL, BARS and BARA complete: one whose condition is unmet takes its place behind the context's accesses, BARL's while an earlier load is
open or its data not usable, BARS's while an earlier store or maintenance operation is unperformed, BARA's while either is; one whose
condition is met holds nothing (R108, R109). PREF writes no register and no memory and raises nothing, whatever its address; its line is
asked for at the level of its hint (R88). -/
def Obligations.BarriersAndPrefetch : Prop :=
  ∀ (x : Syl) (s : State) (t : Nat),
    let loads := fun (y : Bank) => y.loads.any (fun l => decide (l.seq < y.seq)) || y.fly.any (fun f => decide (f.kind = .load))
    let stores := fun (y : Bank) => (s.core x.core).wb.any (fun e => owned y x.bank e && decide (e.kind ≠ .stack) && decide (e.seq < y.seq))
    let bar := fun (k : BarKind) (unmet : Bank → Bool) (y : Bank) => if unmet y then { y with bars := y.bars ++ [⟨k, y.seq⟩], seq := y.seq + 1 } else y
    (Issues .barl x s t → Commits .barl x s t (bar .barl loads)) ∧ (Issues .bars x s t → Commits .bars x s t (bar .bars stores)) ∧
    (Issues .bara x s t → Commits .bara x s t (bar .bara (fun y => loads y || stores y))) ∧
    (Issues .pref x s t → ∃ u, exec (.pref x) s = .next u ∧ u.mem = s.mem ∧ Kept (moved x s t) (u.bank x.core x.bank) ∧
      (u.bank x.core x.bank).entry = (moved x s t).entry ∧ (quiet (s.core x.core) → Aside x.core s u) ∧
      let b := found s x t
      let l := u.core x.core
      ∀ pa ent, translateFor (seenBy s x t) x.core (preBank (seenBy s x t) x) (b.g x.a + x.imm) (if x.d = 1 then .write else .read) = .ok pa .wb false ent →
        addrClass pa = .dram →
        (2 ≤ x.d.toNat → ∃ m ∈ l.mshr, m.line = pa / 64 ∧ m.lvl = x.d.toNat ∧ m.pref = true) ∧
        (x.d.toNat < 2 → (∃ y ∈ l.l1d, y.line = pa / 64) ∨ (∃ m ∈ l.mshr, m.line = pa / 64 ∧ m.lvl = 1) ∨ ∃ q ∈ l.pfl, q.line = pa / 64))

/-- DCLEAN and DINVAL of a line of DRAM stand in the write buffer until they are performed; ICLEAN removes the line from the L1I of every
core of the cluster; at a device address, and the former two outside DRAM space, they complete with no effect; a failed check is a precise fault (R111, R264). -/
def Obligations.CacheInstructions : Prop :=
  ∀ (o : Op) (x : Syl) (s : State) (t : Nat), Issues o x s t →
    let b := found s x t
    let va := b.g x.a + x.imm
    let k : AccKind := if o = .dclean then .read else if o = .dinval then .write else .exec
    let w := seenBy s x t
    (o = .dclean ∨ o = .dinval ∨ o = .iclean → b.depth < 2 → ∀ f, translateFor w x.core (preBank w x) va k = .fault f →
      Enters o x s t (t + 2) 5 (if f.s2 then 2 else 1) va (syndrome f.level f.s2 f.kind (decide (o = .dinval)) f.walk false)
        (if f.s2 then BitVec.ofNat 64 f.ipa else 0)) ∧
    ∀ pa mt dec ent, translateFor w x.core (preBank w x) va k = .ok pa mt dec ent →
      (o = .dclean ∨ o = .dinval ∨ o = .iclean → mt = .device → Commits o x s t id) ∧
      (o = .dclean ∨ o = .dinval → addrClass pa ≠ .dram → Commits o x s t id) ∧
      (o = .dclean ∨ o = .dinval → mt ≠ .device → addrClass pa = .dram →
        ∃ u, exec (instrOf o x) s = .next u ∧ u.mem = s.mem ∧ Kept (moved x s t) (u.bank x.core x.bank) ∧
          (decodeFails (routerMap s x.core) b.psw.world (decide (o = .dinval)) (64 * (pa / 64)) = false →
            ∃ e ∈ (u.core x.core).wb, e.bank = x.bank ∧ e.pa = 64 * (pa / 64) ∧ e.kind = if o = .dclean then .clean else .inval)) ∧
      (o = .iclean → mt ≠ .device →
        ∃ u, exec (.iclean x) s = .next u ∧ u.mem = s.mem ∧ Bank.same (u.bank x.core x.bank) (moved x s t) ∧
          ∀ c, (u.core c).l1i = if c / 8 = x.core / 8 then (s.core c).l1i.filter (fun l => decide (l.line ≠ pa / 64)) else (s.core c).l1i)

namespace Sys2Proof.Claims
/-- Register `i` of the view of a half-context save (R174). -/
def viewReg (b : Bank) (i : Nat) : Word :=
  let v := if b.psw.tw then (b.psw.wcur + 5) % 6 else b.psw.wcur
  if i = 0 then 0
  else if i < 16 then mget 0 b.phys i
  else if i < 32 then mget 0 b.phys (physH ((v + 5) % 6) (i - 16))
  else if i < 48 then mget 0 b.phys (physK v (i - 32))
  else mget 0 b.phys (physH v (i - 48))

/-- The oldest resident position (R63). -/
def oldestPos (b : Bank) : Nat := ((if b.psw.tw then (b.psw.wcur + 5) % 6 else b.psw.wcur) + 6 - (b.psw.wres - 1)) % 6

/-- The lines a block instruction moves, from the first offset, and its words in order, for the stores (R67, R80, R171, R172, R176). -/
def blockLines (o : Op) : Option (List Nat) :=
  match o with
  | .savel | .restl => some [0x40, 0x80, 0xC0, 0x100, 0x140]
  | .saveh | .resth => some [0x40, 0x80, 0xC0, 0x100, 0x140, 0x180, 0x1C0]
  | .wspill | .wfill => some [0, 0x40, 0x80, 0xC0]
  | .rsspill | .rsfill => some [0]
  | _ => none
def storedWord (o : Op) (x : Syl) (b : Bank) (k : Nat) : Word :=
  match o with
  | .savel =>
    if k < 32 then viewReg b k
    else if k = 32 then b.psw.word
    else if k = 33 then b.pc + BitVec.ofNat 64 (4 * words x)
    else if k = 34 then b.fpc
    else if k = 35 then b.lof
    else if k = 36 then BitVec.ofNat 64 b.depth
    else mget 0 b.prog (k - 37)
  | .saveh =>
    if k < 32 then viewReg b (k + 32)
    else if k < 38 then mget 0 b.mreg (k - 32)
    else if k = 38 then b.dvs &&& ~~~1#64
    else if k = 39 then BitVec.ofNat 64 (b.rst % 16 + b.psw.rsd * 16)
    else mget 0 b.rs (k - 40)
  | .wspill => if k < 16 then mget 0 b.phys (physH ((oldestPos b + 5) % 6) k) else mget 0 b.phys (physK (oldestPos b) (k - 16))
  | _ => mget 0 b.rs ((b.rst + 32 - b.psw.rsd + k) % 16)

/-- The block of an instruction passes its checks, line by line (R175). -/
def blockOk (o : Op) (x : Syl) (s : State) (t : Nat) (ps : List PartAt) : Prop :=
  ∃ l, blockLines o = some l ∧
    blockCheck (seenBy s x t) x.core (preBank (seenBy s x t) x) (if o = .savel ∨ o = .saveh ∨ o = .wspill ∨ o = .rsspill then .write else .read)
      ((found s x t).g x.a + x.imm) l = .ok ps
end Sys2Proof.Claims

namespace Sys2Proof.Claims
/-- SAVEL, SAVEH, WSPILL and RSSPILL complete: every doubleword of their block stands in the write buffer with the content of R67, R80, R171
and R172; WSPILL frees the oldest position and RSSPILL drops eight entries; no other register changes, and the next bundle issues 8 edges on
(R176, R177). -/
def BlockStores : Prop :=
  ∀ (o : Op) (x : Syl) (s : State) (t : Nat) (ps : List PartAt), Issues o x s t → o = .savel ∨ o = .saveh ∨ o = .wspill ∨ o = .rsspill →
    blockOk o x s t ps → (∀ p ∈ ps, p.mt = .wb ∧ p.dec = false) → quiet (s.core x.core) →
    let b := found s x t
    let y := moved x s t
    ∃ u, exec (instrOf o x) s = .next u ∧ Aside x.core s u ∧
      Kept { y with psw := if o = .wspill then { y.psw with wres := y.psw.wres - 1 } else if o = .rsspill then { y.psw with rsd := y.psw.rsd - 8 } else y.psw }
        (u.bank x.core x.bank) ∧ (u.bank x.core x.bank).ready = t + 8 ∧
      ∀ (i k : Nat) (p : PartAt), ps[i]? = some p → k < 8 →
        buffered (u.core x.core) x.bank .normal (p.pa + 8 * k) 8 (byteOf (storedWord o x b (8 * i + k)))
end Sys2Proof.Claims

namespace Sys2Proof.Claims
/-- RESTL, RESTH, WFILL and RSFILL complete where the L1D and the context's own stores hold their block: the registers, slots and fields that
R67, R80, R174 and R176 name take its doublewords, and nothing else changes; the next bundle issues 8 edges on, 10 after RESTH (R177). A line
that they do not hold is asked for, the bundle held meanwhile (R251). -/
def BlockLoads : Prop :=
  ∀ (o : Op) (x : Syl) (s : State) (t : Nat) (ps : List PartAt), Issues o x s t → blockOk o x s t ps →
    let y := moved x s t
    let w := seenBy s x t
    let d := fun (k : Nat) => (knownWords w x.core x.bank ps).getD k 0
    let v := if y.psw.tw then (y.psw.wcur + 5) % 6 else y.psw.wcur
    (o = .restl ∨ o = .resth ∨ o = .wfill ∨ o = .rsfill → linesKnown w x.core x.bank ps = false →
      ∃ u, exec (instrOf o x) s = .next u ∧ u.mem = s.mem ∧ Kept (found s x t) (u.bank x.core x.bank) ∧
        (∃ h, (u.bank x.core x.bank).held = some h ∧ h.at_ = t ∧ h.syls = [(o, x)]) ∧
        ∀ p ∈ ps, ∃ l ∈ (u.bank x.core x.bank).loads, l.blk = 1 ∧ l.pa = p.pa ∧ l.size = 64) ∧
    (y.psw.wcur < 6 → linesKnown w x.core x.bank ps = true →
    (o = .restl → ∃ u, exec (.restl x) s = .next u ∧ Aside x.core s u ∧
      let z := u.bank x.core x.bank
      (∀ i, 1 ≤ i → i < 32 → viewReg z i = d i) ∧ (∀ j, j < 6 → ∀ i, i < 16 → mget 0 z.phys (physK j i) = mget 0 y.phys (physK j i)) ∧
      (∀ j, j < 6 → j ≠ (v + 5) % 6 → ∀ i, i < 16 → mget 0 z.phys (physH j i) = mget 0 y.phys (physH j i)) ∧
      fld z.fpc 3 5 = fld (d 34) 3 5 ∧ fld z.fpc 0 3 = (if fld (d 34) 0 3 ≤ 4 then fld (d 34) 0 3 else fld y.fpc 0 3) ∧
      z.lof = d 35 &&& ~~~0x3FF0000000000000#64 ∧ (∀ i, i < 3 → mget 0 z.prog i = d (37 + i)) ∧
      z.psw = (let q := d 32
               if y.psw.tw then { y.psw with wres := 1 }
               else { y.psw with wres := 1, ie := q.getLsbD 3, fie := q.getLsbD 4, rsm := q.getLsbD 12, rsl := q.getLsbD 13, cf0 := q.getLsbD 19,
                                 cf1 := q.getLsbD 20, vf0 := q.getLsbD 21, vf1 := q.getLsbD 22 }) ∧
      z.pc = y.pc ∧ z.mreg = y.mreg ∧ z.dvs = y.dvs ∧ z.rs = y.rs ∧ z.depth = y.depth ∧ z.ready = t + 8) ∧
    (o = .resth → ∃ u, exec (.resth x) s = .next u ∧ Aside x.core s u ∧
      let z := u.bank x.core x.bank
      (∀ i, i < 32 → viewReg z (i + 32) = d i) ∧ (∀ j, j < 6 → j ≠ v → ∀ i, i < 16 →
        mget 0 z.phys (physK j i) = mget 0 y.phys (physK j i) ∧ mget 0 z.phys (physH j i) = mget 0 y.phys (physH j i)) ∧
      (∀ i, i < 16 → mget 0 z.phys i = mget 0 y.phys i) ∧ (∀ i, i < 6 → mget 0 z.mreg i = d (32 + i)) ∧
      z.dvs = (y.dvs &&& 1#64) ||| (d 38 &&& 0x11E#64) ∧ z.rst = fld (d 39) 0 4 ∧ z.psw = { y.psw with rsd := min (fld (d 39) 4 5) 16 } ∧
      (∀ i, i < 16 → mget 0 z.rs i = d (40 + i)) ∧ z.pc = y.pc ∧ z.fpc = y.fpc ∧ z.lof = y.lof ∧ z.depth = y.depth ∧ z.ready = t + 10) ∧
    (o = .wfill → ∃ u, exec (.wfill x) s = .next u ∧ Aside x.core s u ∧
      let z := u.bank x.core x.bank
      let p := (oldestPos y + 5) % 6
      (∀ i, i < 16 → mget 0 z.phys (physH ((p + 5) % 6) i) = d i ∧ mget 0 z.phys (physK p i) = d (16 + i)) ∧
      (∀ r, (∀ i, i < 16 → r ≠ physH ((p + 5) % 6) i ∧ r ≠ physK p i) → mget 0 z.phys r = mget 0 y.phys r) ∧
      Kept { y with psw := { y.psw with wres := y.psw.wres + 1 }, phys := z.phys } z ∧ z.ready = t + 8) ∧
    (o = .rsfill → ∃ u, exec (.rsfill x) s = .next u ∧ Aside x.core s u ∧
      let z := u.bank x.core x.bank
      let at_ := fun (i : Nat) => (y.rst + 40 - y.psw.rsd + i) % 16
      (∀ i, i < 8 → mget 0 z.rs (at_ i) = d i) ∧ (∀ j, (∀ i, i < 8 → j ≠ at_ i) → mget 0 z.rs j = mget 0 y.rs j) ∧
      Kept { y with psw := { y.psw with rsd := y.psw.rsd + 8 }, rs := z.rs } z ∧ z.ready = t + 8))
end Sys2Proof.Claims

/-- SAVEL, SAVEH, WSPILL, RSSPILL, RESTL, RESTH, WFILL and RSFILL complete with every doubleword of their block moved (R67, R80, R171 to R177). -/
def Obligations.BlockTransfers : Prop := Claims.BlockStores ∧ Claims.BlockLoads

namespace Sys2Proof.Claims
/-- A held bundle of one instruction goes on, on the next edge (R179). -/
structure GoesOn (o : Op) (x : Syl) (s : State) (t : Nat) (h : Held) : Prop where
  core : x.core < 128
  bank : x.bank < 8
  can : canIssue s x.core x.bank = true
  held : (s.bank x.core x.bank).held = some h
  syls : h.syls = [(o, x)]
  words : h.words = words x
  edge : t = max ((s.core x.core).cyc + 1) (s.bank x.core x.bank).ready
  legal : checkSyl ((h.view x.core x.bank (s.landAt x.core t)).bank x.core x.bank) o x = none
  debug : noDebug s x.core

/-- An STM or LDM makes access `k` of its registers on edge `t`, its bundle having issued on `t0` with the registers `b`, reading through `w` and
behind the stores numbered below `seq`:
a store stands in the write buffer, a load that the L1D gives is in flight. Before the last the bundle is held; with the last it completes, the
next issuing n edges after it did at the earliest, and the progress word is no longer valid (R179, R180). -/
def makesAccess (o : Op) (x : Syl) (s w : State) (b : Bank) (got : List Flight) (t t0 k seq : Nat) (p : PartAt) : Prop :=
  let regs := (List.range 64).filter (fun i => (b.g x.d).getLsbD i)
  let stands := fun (u : State) (i : Nat) => o = .stm → u.mem = s.mem ∧ buffered (u.core x.core) x.bank .normal p.pa 8 (byteOf (b.g (BitVec.ofNat 6 i))) ∧
    (u.bank x.core x.bank).resv ≠ some (p.pa / 128)
  let flight := fun (i : Nat) (f : Flight) => ∃ v, f = { kind := FlightKind.load, due := t + 3, pw := some (b.nm (BitVec.ofNat 6 i), v) } ∧
    ∀ j, j < 8 → some (byteOf v j) = knownByte w x.core x.bank p j
  ∀ i, regs[k]? = some i →
    accessCheck w x.core (w.bank x.core x.bank) (b.g x.a + x.imm + BitVec.ofNat 64 (8 * k)) 8 (if o = .stm then .write else .read) 8 none = .ok [p] →
    p.mt = .wb → p.dec = false → quiet (s.core x.core) →
    (o = .ldm → (∀ e ∈ (s.core x.core).wb, e.bank = x.bank → e.seq < seq) ∧ ∀ j, j < 8 → (knownByte w x.core x.bank p j).isSome) →
    (k + 1 < regs.length → ∃ u, exec (instrOf o x) s = .next u ∧ stands u i ∧
      let z := u.bank x.core x.bank
      z.psw = (s.bank x.core x.bank).psw ∧ z.pc = (s.bank x.core x.bank).pc ∧
      ∃ h, z.held = some h ∧ h.at_ = t0 ∧ h.syls = [(o, x)] ∧ (if o = .stm then h.stm = k + 1 else h.ldm = k + 1 ∧ ∃ f, flight i f ∧ h.got = got ++ [f])) ∧
    (k + 1 = regs.length → ∃ u, exec (instrOf o x) s = .next u ∧ stands u i ∧
      let z := u.bank x.core x.bank
      z.pc = (s.bank x.core x.bank).pc + BitVec.ofNat 64 (4 * words x) ∧ z.held = none ∧ bit (mget 0 z.prog z.depth) 63 = false ∧
      z.ready = max (t + 1) (t0 + regs.length) ∧
      (o = .ldm → (∃ f, flight i f ∧ f ∈ z.fly) ∧ ∀ f ∈ got, { f with due := max f.due (t + 1) } ∈ z.fly))
end Sys2Proof.Claims

/-- STM and LDM make one access an edge, in ascending order of the registers, their bundle held until the last (R179): one that begins anew its
first; one that goes on the next after those it has made. With no register selected they complete at once. -/
def Obligations.MultipleRegisters : Prop :=
  ∀ (o : Op) (x : Syl) (s : State) (t : Nat) (p : PartAt), o = .stm ∨ o = .ldm →
    (Issues o x s t →
      let b := found s x t
      (b.g x.d = 0 → bit (mget 0 b.prog b.depth) 63 = false → ∃ u, exec (instrOf o x) s = .next u ∧ u.mem = s.mem ∧
        let z := u.bank x.core x.bank
        Kept { moved x s t with prog := z.prog } z ∧ bit (mget 0 z.prog z.depth) 63 = false ∧ z.ready = t + 1) ∧
      (bit (mget 0 b.prog b.depth) 63 = false → makesAccess o x s (seenBy s x t) b [] t t 0 b.seq p)) ∧
    ∀ h, GoesOn o x s t h →
      let w := h.view x.core x.bank (s.landAt x.core t)
      makesAccess o x s w (w.bank x.core x.bank) h.got t h.at_ (if o = .stm then h.stm else h.ldm) h.seq p

namespace Sys2Proof.Claims
/-- A bank of a core whose clock runs. -/
def onCore (s : State) (c bi : Nat) : Prop := c < 128 ∧ bi < 8 ∧ coreClocked s c = true

/-- The command by which a result in flight lands. -/
def landing (k : FlightKind) (c bi : Nat) : Option Instr :=
  match k with
  | .mul => some (.mResultWrite c bi)
  | .div => some (.divideComplete c bi)
  | .dec => some (.decimalComplete c bi)
  | .fp => some (.fResultWrite c bi)
  | .fpLong => some (.fLongOperationComplete c bi)
  | .load => some (.loadDataReturn c bi (2 ^ 70) (.data 0))
  | .slow => none

/-- A bank once the result `f` has landed: product, quotient and remainder, or a general register; the flags of FPC; of a divide or decimal
operation DVS, and LOF for its fault (R76, R94, R96, R99, R100, R119, R125). -/
def landed (f : Flight) (rest : List Flight) (b : Bank) : Bank :=
  let long := f.kind = .div ∨ f.kind = .dec
  let dvs1 := if long then (b.dvs &&& ~~~1#64) ||| BitVec.ofNat 64 f.dvs else b.dvs
  let dvs2 := match f.dcy with
    | some y => (dvs1 &&& ~~~16#64) ||| (if y then 16#64 else 0)
    | none => dvs1
  let lof := match f.fault with
    | none => b.lof
    | some c =>
      if b.lof.getLsbD 63 then b.lof ||| 1#64 <<< 62
      else (b.lof &&& ~~~(0x800FFFFFFFFFFFFF#64)) ||| BitVec.ofNat 64 (f.addr.toNat % 2 ^ 48 + c % 16 * 2 ^ 48 + 2 ^ 63)
  { b with
    fly := rest, mreg := f.mw.foldl (fun m q => mset m q.1 q.2) b.mreg,
    phys := match f.pw with
      | some (p, v) => if p = 0 then b.phys else mset b.phys p v
      | none => b.phys,
    fpc := b.fpc ||| BitVec.ofNat 64 (8 * f.fl), dvs := dvs2, lof := lof,
    lofPend := b.lofPend || (f.fault.isSome && !b.lof.getLsbD 63) }

/-- An entry of the write buffer leaves, and the others keep their order. -/
def without (e : WbEnt) (l : List WbEnt) : List WbEnt := l.filter (fun f => !(decide (f.bank = e.bank) && decide (f.seq = e.seq)))

/-- The entries of a write buffer have numbers of their own. -/
def distinct (l : List WbEnt) : Prop := l.Pairwise (fun e f => ¬(e.bank = f.bank ∧ e.seq = f.seq))

/-- Entries of two write buffers are the same but for whether they are sent. -/
def sameStores (l m : List WbEnt) : Prop :=
  l.map (fun e => { e with sent := false, late := 0, tag := 0 }) = m.map (fun e => { e with sent := false, late := 0, tag := 0 })

/-- Store `e` was recorded lost in a core's MMU_DWL: the first kept, later ones noted (R224, R225). -/
def lossRecorded (s u : State) (c : Nat) (e : WbEnt) : Prop :=
  let a := R.MMU_DWL c
  if s.f a F.MMU_DWL_valid = 0 then
    u.f a F.MMU_DWL_valid = 1 ∧ u.f a F.MMU_DWL_pa = e.pa % 2 ^ F.MMU_DWL_pa.w ∧ u.f a F.MMU_DWL_tenant = e.tenant % 2 ^ F.MMU_DWL_tenant.w ∧
      u.f a F.MMU_DWL_bank = e.bank % 2 ^ F.MMU_DWL_bank.w ∧ u.f a F.MMU_DWL_dropped = 0
  else u.f a F.MMU_DWL_over = 1 ∧ u.f a F.MMU_DWL_pa = s.f a F.MMU_DWL_pa
end Sys2Proof.Claims

namespace Sys2Proof.Claims
/-- M_RESULT_WRITE, DIVIDE_COMPLETE, DECIMAL_COMPLETE, F_RESULT_WRITE, F_LONG_OPERATION_COMPLETE, and LOAD_DATA_RETURN for a load that
the L1D gave, complete: the bank's next result lands on its edge, in its own bank, with what R76, R87, R94, R96, R100, R119 and R125 say it
writes, and nothing else of the bank changes. -/
def ResultsLand : Prop :=
  ∀ (s : State) (c bi : Nat) (f : Flight) (rest : List Flight) (i : Instr), onCore s c bi → landing f.kind c bi = some i →
    let b := s.bank c bi
    b.fly = f :: rest → (∀ g ∈ rest, f.due < g.due) → (∀ q ∈ f.mw, q.1 < 6) → (∀ l ∈ b.loads, l.seq < 2 ^ 70) →
    ∃ u, exec i s = .next u ∧ Local c s u ∧ Bank.same (u.bank c bi) (landed f rest b) ∧ (u.core c).cyc = max (s.core c).cyc f.due
end Sys2Proof.Claims

namespace Sys2Proof.Claims
/-- LOAD_DATA_RETURN completes a load that waits: one whose lines have come writes its bytes, extended, to the register fixed at issue, and
leaves the loads (R53, R86, R87); a non-cacheable one takes its data from the answer that waits for it. A request that has reached the unit that
serves it is answered there, a register's value while the unit runs (R41, R46, R582); with the answer of a device load its held bundle commits, the
value in its register, and the next bundle issues 5 edges on (R218). -/
def LoadDataReturns : Prop :=
  ∀ (s : State) (c bi n : Nat) (ans : MemAns) (l : LoadEnt), onCore s c bi →
    let b := s.bank c bi
    let k := s.core c
    b.loads.find? (fun l => decide (l.seq = n)) = some l →
    let lands := fun (v : Word) => ∃ u, exec (.loadDataReturn c bi n ans) s = .next u ∧ u.mem = s.mem ∧ u.regs = s.regs ∧
      u.bank c bi = { b with
        phys := if l.phys = 0 then b.phys else mset b.phys l.phys v, loads := b.loads.filter (fun y => decide (y.seq ≠ n)),
        gLand := if 1 ≤ l.phys ∧ l.phys ≤ 6 then max b.gLand k.cyc else b.gLand } ∧
      ∀ d e, d ≠ c ∨ e ≠ bi → u.bank d e = s.bank d e
    let answered := fun (p : Pkt) (w : Nat) => findAns s c l.tag = some p ∧ ansOf p = some (.data w) ∧ p.net = 1 ∧ p.pa = l.pa ∧ l.size ≤ 2 ^ p.size
    let bytes := fun (w i : Nat) => some (BitVec.ofNat 8 (w / 256 ^ i))
    ((∀ i, i < l.size → l.fwd.any (fun q => decide (q.1 = i)) = true) → l.mt ≠ .device → l.blk = 0 → b.held = none → l.size ≤ 8 → 0 < l.size →
      ∃ v, lands v ∧ extended l.size l.sext (fun i => some (mget 0 l.fwd i)) v) ∧
    (l.mt = .nc → l.sent = true → l.fwd = [] → l.hi = none → l.blk = 0 → b.held = none → 0 < l.size → l.size ≤ 8 → ∀ (p : Pkt) (w : Nat), answered p w →
      ∃ v, lands v ∧ extended l.size l.sext (bytes w) v) ∧
    (l.mt ≠ .wb → l.sent = true → l.fwd = [] → l.hi = none → 0 < l.size → findAns s c l.tag = none → ans ≠ .timeout →
      ∀ p, reachedReq s (clusterUnit (c / 8)) l.tag = some p → p.typ = 7 ∨ p.typ = 0xA → addrClass p.pa = .config →
      regRuns s (p.pa - 0xF0000000000) = true → writeBefore s p = false →
      ∃ u, exec (.loadDataReturn c bi n ans) s = .next u ∧ u = (s.take p).answer p (.data (configRead s p.closed p.pa (2 ^ p.size)))) ∧
    (l.mt = .device → l.sent = true → l.fwd = [] → l.hi = none → 0 < l.size → l.size ≤ 8 → (∀ m ∈ b.loads, m.mt = .device → m.seq = n) →
      ∀ (o : Op) (x : Syl) (h : Held) (p : Pkt) (w : Nat), b.held = some h → h.syls = [(o, x)] → h.multi = false → x.core = c → x.bank = bi →
      loadKind o x = some (l.size, l.sext) → checkSyl ((h.view c bi (s.landAt c k.cyc)).bank c bi) o x = none → answered p w →
      ∃ u v, exec (.loadDataReturn c bi n ans) s = .next u ∧ u.mem = s.mem ∧ extended l.size l.sext (bytes w) v ∧
        let z := u.bank c bi
        z.held = none ∧ z.pc = b.pc + BitVec.ofNat 64 (4 * h.words) ∧ (b.nm x.d ≠ 0 → mget 0 z.phys (b.nm x.d) = v) ∧
        z.ready = k.cyc + 5 ∧ ∀ m ∈ z.loads, m.mt ≠ .device)
end Sys2Proof.Claims

/-- Results in flight land in their own bank on their edge, and the data of a waiting load is written to the register fixed at issue (R53, R76, R86, R87, R94 to R100, R119, R125, R218). -/
def Obligations.ResultsArrive : Prop := Claims.ResultsLand ∧ Claims.LoadDataReturns

namespace Sys2Proof.Claims
/-- STORE_PERFORM performs a buffered store on the line its L1D holds writable, once the order of its context's accesses lets it: the line has the
store's bytes, is modified, and is dirty; the store leaves the buffer; no other line, no register and no byte of DRAM changes (R214 to R216). -/
def StorePerforms : Prop :=
  ∀ (s : State) (c bi n : Nat) (e : WbEnt) (l : CLine), onCore s c bi →
    (s.core c).wb.find? (fun e => decide (e.bank = bi) && decide (e.seq = n)) = some e → e.kind = .normal ∨ e.kind = .stack → distinct (s.core c).wb →
    quiet (s.core c) → mayGo s c e = true → l1dOn s c = true → findLine (s.core c).l1d (e.pa / 64) = some l → l.st ≠ .s →
    ∃ u, exec (.storePerform c bi n) s = .next u ∧ Aside c s u ∧ sameStores (u.core c).wb (without e (s.core c).wb) ∧
      (∀ k, k ≠ e.pa / 64 → findLine (u.core c).l1d k = findLine (s.core c).l1d k) ∧ (∀ d, Kept (s.bank c d) (u.bank c d)) ∧
      ∃ m, findLine (u.core c).l1d (e.pa / 64) = some m ∧ m.st = .m ∧ m.dirty = true ∧ (m.poison = true ↔ l.poison = true ∧ e.mask ≠ BitVec.allOnes 64) ∧
        ∀ i, i < 64 → m.data.extractLsb' (8 * i) 8 = if e.mask.getLsbD i then e.data.extractLsb' (8 * i) 8 else l.data.extractLsb' (8 * i) 8
end Sys2Proof.Claims

namespace Sys2Proof.Claims
/-- STORE_ACKNOWLEDGE takes the acknowledgement of a store that left the core: the store is performed and leaves the buffer; a decode error
has it dropped and recorded, and marks its bank for the imprecise fault (R43, R214, R224, R225). A store that has reached the Closed SRAM is written
there, and acknowledged (R438). -/
def StoreAcknowledged : Prop :=
  ∀ (s : State) (c bi n : Nat) (ans : MemAns) (e : WbEnt), onCore s c bi →
    (s.core c).wb.find? (fun e => decide (e.bank = bi) && decide (e.seq = n) && e.sent && (decide (e.kind = .nc) || decide (e.kind = .dev))) = some e →
    (∀ p, findAns s c e.tag = some p → distinct (s.core c).wb → quiet (s.core c) → (s.bank c bi).thread = e.thread → e.bank = bi →
      (∀ v, ansOf p = some (.data v) →
        ∃ u, exec (.storeAcknowledge c bi n ans) s = .next u ∧ u.mem = s.mem ∧ u.regs = s.regs ∧ sameStores (u.core c).wb (without e (s.core c).wb) ∧
          ∀ d, Kept (s.bank c d) (u.bank c d) ∧ (u.bank c d).lost = (s.bank c d).lost) ∧
      (ansOf p = some .decodeError ∨ (ansOf p = some .poison ∧ e.kind = .dev) →
        ∃ u, exec (.storeAcknowledge c bi n ans) s = .next u ∧ u.mem = s.mem ∧ lossRecorded s u c e ∧
        (∀ a, a ≠ R.MMU_DWL c → u.reg a = s.reg a) ∧ sameStores (u.core c).wb (without e (s.core c).wb) ∧
        (u.bank c bi).lost = some ((s.bank c bi).lost.getD ⟨e.pa, if ansOf p = some .decodeError then 0xC else 0xE, e.seq⟩) ∧
        ∀ d, Kept (s.bank c d) (u.bank c d))) ∧
    (∀ p, findAns s c e.tag = none → ans ≠ .timeout → reachedReq s (clusterUnit (c / 8)) e.tag = some p → islandRuns s 202 = true → p.typ = 8 ∨ p.typ = 0xB →
      0xF8000100000 ≤ p.pa → p.pa < 0xF8000140000 →
      ∃ u, exec (.storeAcknowledge c bi n ans) s = .next u ∧ u.mem = memWrite s.mem p.pa (lineField p.data (p.pa % 64) (2 ^ p.size)) (2 ^ p.size) ∧
        u.regs = s.regs ∧ u.cores = s.cores)
end Sys2Proof.Claims

/-- STORE_PERFORM performs a buffered store in the L1D, and STORE_ACKNOWLEDGE one that left the core (R43, R214 to R216, R224, R225). -/
def Obligations.StoresPerformed : Prop := Claims.StorePerforms ∧ Claims.StoreAcknowledged

/-- DEVICE_ACCESS_SEND sends a bank's oldest device access once no earlier one is unperformed: the store or load is marked sent, with the edge from
which it is late, under the tag of its request; one behind a lost device store is dropped and counted (R217, R223, R224). DEVICE_ACCESS_TIMEOUT, from
that edge on, records the store lost, or takes fault 8 of kind 0xD at the load's bundle (R223 to R225). -/
def Obligations.DeviceAccesses : Prop :=
  ∀ (s : State) (c bi : Nat), onCore s c bi →
    let b := s.bank c bi
    let k := s.core c
    let tag := coreTag s c
    let dto := min 25000 (max 25 (s.f (R.MMU_DTO c) F.MMU_DTO_dto))
    let store := k.wb.find? (fun e => decide (e.bank = bi) && decide (e.kind = .dev) && mayGo s c e)
    let load := b.loads.find? (fun l => decide (l.mt = .device) && !l.sent)
    (∀ e, devBusy k bi b = false → distinct k.wb → store = some e → (∀ l, load = some l → e.seq < l.seq) → b.devLost = false →
      decodeFails (routerMap s c) e.closed true e.pa = false →
      ∃ u, exec (.deviceAccessSend c bi) s = .next u ∧ u.mem = s.mem ∧ u.regs = s.regs ∧
        (u.core c).wb = k.wb.map (fun f => if f.bank = e.bank ∧ f.seq = e.seq then { f with sent := true, late := s.ref + dto, tag := tag } else f) ∧
        (clusterUnit (c / 8), tag) ∈ u.openTags ∧ ∀ d, Kept (s.bank c d) (u.bank c d)) ∧
    (∀ l, devBusy k bi b = false → load = some l → (∀ e, store = some e → l.seq ≤ e.seq) → decodeFails (routerMap s c) b.psw.world false l.pa = false →
      ∃ u, exec (.deviceAccessSend c bi) s = .next u ∧ u.mem = s.mem ∧ u.regs = s.regs ∧ (u.core c).wb = k.wb ∧
        (u.bank c bi).loads = b.loads.map (fun m => if m.seq = l.seq then { l with sent := true, late := s.ref + dto, tag := tag } else m) ∧
        (clusterUnit (c / 8), tag) ∈ u.openTags ∧ ∀ d, Kept (s.bank c d) (u.bank c d)) ∧
    (∀ n e, b.loads.find? (fun l => decide (l.seq = n) && decide (l.mt = .device) && l.sent && !l.complete) = none →
      k.wb.find? (fun e => decide (e.bank = bi) && decide (e.seq = n) && decide (e.kind = .dev) && e.sent) = some e →
      e.late ≤ s.ref → distinct k.wb → quiet k → b.thread = e.thread → e.bank = bi →
      ∃ u, exec (.deviceAccessTimeout c bi n) s = .next u ∧ u.mem = s.mem ∧ lossRecorded s u c e ∧ sameStores (u.core c).wb (without e k.wb) ∧
        (u.bank c bi).lost = some (b.lost.getD ⟨e.pa, 0xE, e.seq⟩) ∧ (u.bank c bi).devLost = true ∧ (∀ a, a ≠ R.MMU_DWL c → u.reg a = s.reg a)) ∧
    (∀ n l, b.loads.find? (fun l => decide (l.seq = n) && decide (l.mt = .device) && l.sent && !l.complete) = some l →
      l.late ≤ s.ref → b.depth < 2 → b.lost = none →
      ∃ u, exec (.deviceAccessTimeout c bi n) s = .next u ∧ u.mem = s.mem ∧ u.regs = s.regs ∧ (u.bank c bi).phys = b.phys ∧
        (∀ m ∈ (u.bank c bi).loads, m ∈ b.loads ∧ m.seq ≠ l.seq) ∧ (u.bank c bi).held = none ∧
        (u.bank c bi).entry = some ⟨k.cyc, 8, 1, l.va, syndrome 7 false 0xD false false false, 0, l.pc⟩)

/-- BARRIER_RELEASE completes: the barriers of a context whose condition is met go, BARL's once no earlier load is open, BARS's once no earlier
store or maintenance operation is unperformed, BARA's with both, on the edge by which the data of its loads is usable (R108, R109); one whose
condition is unmet stays, and so does one that ended with a lost store, for the bundle that it holds (R110). FETCH_MISS_FILL brings the block a
bank waits for, a line that the L2 answered, the packet of a non-cacheable one, or from outside DRAM what is given: its bundle issues 3 edges
on (R133); a poisoned line freezes the bank (R243, R291). Nothing else of the context changes. -/
def Obligations.BarriersAndFetch : Prop :=
  ∀ (s : State) (c bi : Nat) (given : Line), onCore s c bi →
    let b := s.bank c bi
    let k := s.core c
    let open_ := fun (w : BarWait) => (w.kind ≠ .bars ∧ ∃ l ∈ b.loads, l.seq < w.seq) ∨
      (w.kind ≠ .barl ∧ ∃ e ∈ k.wb, owned b bi e = true ∧ e.kind ≠ .stack ∧ e.seq < w.seq)
    (b.lost = none → b.bars ≠ [] → (∀ w ∈ b.bars, ¬open_ w) →
      ∃ u, exec (.barrierRelease c bi) s = .next u ∧ Local c s u ∧ Bank.same (u.bank c bi) { landBank (u.core c).cyc b with bars := [] } ∧
        ((∃ w ∈ b.bars, w.kind ≠ .bars) → ∀ f ∈ b.fly, f.kind = .load → f.due ≤ (u.core c).cyc) ∧
        ∀ e, e ≠ bi → Bank.same (u.bank c e) (landBank (u.core c).cyc (s.bank c e))) ∧
    (∀ w, b.bars = [w] → open_ w ∨ (w.kind ≠ .barl ∧ ∃ l, b.lost = some l ∧ l.seq < w.seq) → exec (.barrierRelease c bi) s = .next s) ∧
    (∀ pa, b.fwait = some pa →
      let fills := fun (d : Line) (P : State → Prop) => ∃ u, exec (.fetchMissFill c bi given) s = .next u ∧ u.mem = s.mem ∧ u.regs = s.regs ∧
        u.bank c bi = { b with fwait := none, fsent := none, fbuf := [(pa / 32, d)], ready := max b.ready (k.cyc + 3) } ∧
        (∀ e, e ≠ bi → u.bank c e = s.bank c e) ∧ P u
      (b.fsent = none → k.ifill.find? (fun x => decide (x.1 = pa / 64)) = none → addrClass pa ≠ .dram → fills given (fun u => Aside c s u)) ∧
      (∀ d, b.fsent = none → k.ifill.find? (fun x => decide (x.1 = pa / 64)) = some (pa / 64, d, false) → fills d (fun u => Aside c s u)) ∧
      (∀ tag late p, b.fsent = some (tag, late) → findAns s c tag = some p → p.net = 3 → p.poison = false → fills p.data (fun u => ¬p ∈ u.inbox ∨ 1 < s.inbox.count p)) ∧
      (∀ d, b.fsent = none → k.ifill.find? (fun x => decide (x.1 = pa / 64)) = some (pa / 64, d, true) →
        ∃ u, exec (.fetchMissFill c bi given) s = .next u ∧ u.mem = s.mem ∧ (u.bank c bi).st = .frozen ∧ (u.bank c bi).phys = b.phys))

namespace Sys2Proof.Claims
/-- EXCEPTION_ENTRY and NORMAL_INTERRUPT_ACCEPT complete: their entries are accepted in place of the next bundle, at the level the cause's row of
R142 gives, an interrupt's at that of its routing entry, with its source number and the accept notice sent (R147, R148, R326); a long-operation
exception that is pending goes before another (R100, R150). The results due by then have landed, and nothing else changes. -/
def EntriesAccepted : Prop :=
  ∀ (s : State) (c bi : Nat), onCore s c bi →
    let b := s.bank c bi
    let accepts := fun (i : Instr) (t cause : Nat) (level : BitVec 2) (g2 g3 g4 : Word) (y : Bank) (P : State → Prop) =>
      ∃ u, exec i s = .next u ∧ P u ∧ Bank.same (u.bank c bi) { y with
        resv := none, missing := false, fwait := none, fsent := none, fbuf := [], ready := t, entry := some ⟨t, cause, level, g2, g3, g4, b.pc⟩ }
    (∀ (cause : Nat) (g2 g3 g4 : Word), canIssue s c bi = true → cause < 20 → b.held = none → b.depth < 2 →
      let t := max ((s.core c).cyc + 1) b.ready
      let y := landBank t b
      let synd := 4 ≤ cause ∧ cause ≤ 9
      (y.lofPend = false → y.lost = none → cause ≠ 9 → cause ≠ 10 → cause ≠ 18 →
        accepts (.exceptionEntry c bi cause g2 g3 g4) t cause
          (if cause = 17 then 3 else if cause = 16 ∨ ((cause = 4 ∨ cause = 5) ∧ g3.getLsbD 3 = true) ∨
             (cause = 19 ∧ s.f (R.TRC_DCFG c) F.TRC_DCFG_lvl ≠ 0) then 2 else 1)
          (if cause ≤ 2 ∨ (11 ≤ cause ∧ cause ≤ 14) then 0 else if 15 ≤ cause ∧ cause ≤ 17 then g2 &&& 0xFFFF#64 else g2)
          (if synd then g3 else 0) (if synd then g4 else 0) y (fun u => Local c s u)) ∧
      (y.lofPend = true → y.lost = none → cause ≠ 18 →
        accepts (.exceptionEntry c bi cause g2 g3 g4) t 10 1 (y.lof &&& 0xFFFFFFFFFFFF#64) 0 0 { y with lofPend := false } (fun u => Local c s u))) ∧
    (∀ n, normalDue s c bi = some n → b.held = none → b.lost = none →
      let t := (s.core c).cyc + 1
      accepts (.normalInterruptAccept c bi) t 18 (BitVec.ofNat 2 (s.f (icuSrc n) F.ICU_SRC_lvl)) (BitVec.ofNat 64 n) 0 0 { landBank t b with irq := some (b.depth, n) }
        (fun u => u.mem = s.mem ∧ u.regs = s.regs ∧ u.notices = s.notices ++ [(true, n)] ∧
          ∀ e, e ≠ bi → Bank.same (u.bank c e) (landBank t (s.bank c e))))
end Sys2Proof.Claims

namespace Sys2Proof.Claims
/-- ENTRY_CAPTURE takes an entry: the record of PSW, PC and g1 to g6 stands in the write buffer at the folio's record of the depth; the level is
the higher of the cause's and the one held, ie is 0, the window turns, tw is 1, M is of the Closed world; g1 holds the cause, g2 to g4 what the
entry brings, g5 and g6 zero; the depth grows, the PC is at the vector of the level, and the handler issues 6 edges after the capture edge, or later by the
flush of a world switch (R63, R64, R142 to R148, R260). -/
def EntryCaptured : Prop :=
  ∀ (s : State) (c bi pa : Nat) (e : EntrySeq), onCore s c bi →
    let b := s.bank c bi
    let ce := max (e.at_ + 5) b.gLand
    b.entry = some e → b.fly = [] → b.loads = [] → b.lofPend = false → quiet (s.core c) → e.cause < 32 → b.psw.wcur < 6 →
    folioAt (s.landAt c ce) c ((s.landAt c ce).bank c bi) (b.folio.toNat + 0x180 + 0x40 * b.depth) true = some pa → pa % 64 = 0 →
    ∃ u, exec (.entryCapture c bi) s = .next u ∧ u.mem = s.mem ∧ (∀ a, ¬traceReg a → u.reg a = s.reg a) ∧
      let z := u.bank c bi
      let l : BitVec 2 := if e.level.toNat < b.psw.pl.toNat then b.psw.pl else e.level
      z.psw = { b.psw with pl := l, ie := false, world := b.psw.world || decide (l = 3), wcur := if b.psw.tw then b.psw.wcur else (b.psw.wcur + 1) % 6, tw := true } ∧
      z.depth = b.depth + 1 ∧ z.entry = none ∧ (if l = 3 ∧ b.psw.world = false then ce + 10 ≤ z.ready else z.ready = max b.ready (ce + 6)) ∧
      z.pc = (if l = 3 then tvbmOf s b else if l = 2 then b.tvbp else b.tvbs) + BitVec.ofNat 64 (0x80 * e.cause) ∧
      mget 0 z.phys 1 = BitVec.ofNat 64 e.cause ∧ mget 0 z.phys 2 = e.g2 ∧ mget 0 z.phys 3 = e.g3 ∧ mget 0 z.phys 4 = e.g4 ∧
      mget 0 z.phys 5 = 0 ∧ mget 0 z.phys 6 = 0 ∧ (∀ i, 6 < i → mget 0 z.phys i = mget 0 b.phys i) ∧
      ∀ i, i < 8 → buffered (u.core c) bi .stack (pa + 8 * i) 8 (byteOf (if i = 0 then b.psw.word else if i = 1 then e.pc else mget 0 b.phys (i - 1)))
end Sys2Proof.Claims

namespace Sys2Proof.Claims
/-- FAST_CLASS_ENTRY completes: it starts the idle fast bank at offset 0xF80 of its level's vectors, 5 edges on, its first block in the
fast-vector buffer where that is loaded, with nothing stacked and no register written, and sends the accept notice (R151, R152, R157). -/
def FastEntry : Prop :=
  ∀ (s : State) (c n : Nat), onCore s c 7 →
    let k := s.core c
    let b := s.bank c 7
    k.pres.find? (fun p => decide (p.1 = 8)) = some (8, n) → k.fastRun = false → b.psw.fast = true → b.st ≠ .frozen → b.held = none → k.move = none →
    s.f (R.SCHED_CORE (c / 8) (c % 8)) F.SCHED_CORE_fast_en = 1 → (∀ r, runBank k = some r → (k.bank r).psw.fie = true) →
    ∃ u, exec (.fastClassEntry c) s = .next u ∧ u.mem = s.mem ∧ (∀ a, ¬traceReg a → u.reg a = s.reg a) ∧ u.notices = s.notices ++ [(true, n)] ∧
      (u.core c).fastRun = true ∧ (u.core c).fastSrc = some n ∧ (∀ d, d ≠ 7 → (s.bank c d).held = none → u.bank c d = s.bank c d) ∧
      u.bank c 7 = { b with
        pc := (if b.psw.pl = 3 then tvbmOf s b else if b.psw.pl = 2 then b.tvbp else b.tvbs) + 0xF80, ready := max b.ready (k.cyc + 5),
        fbuf := k.fastBuf.toList, fwait := none, fsent := none, missing := false }
end Sys2Proof.Claims

/-- Entries are accepted, captured and started as R142 to R157 say: EXCEPTION_ENTRY, NORMAL_INTERRUPT_ACCEPT, ENTRY_CAPTURE and FAST_CLASS_ENTRY. -/
def Obligations.EntriesTaken : Prop := Claims.EntriesAccepted ∧ Claims.EntryCaptured ∧ Claims.FastEntry

/-- PAGE_WALK_READ goes on with the next read of a walk: one of DRAM takes the line that has come for it, else the value that a hit in the L2 in its
turn gives; one outside DRAM is sent, and takes the data of its answer (R204, R210, R248, R253). TRANSLATION_RESULT of a walk that the L2 TLB serves
puts the entry in the port's TLB, first, and the waiting bank issues anew 5 edges on, or takes the fault of its permission; a walk that ends in a
fault has that fault taken (R204, R207 to R210). -/
def Obligations.Translations : Prop :=
  ∀ (s : State) (c : Nat) (instr : Bool) (w : Walk) (ans : MemAns), onCore s c w.bank → (s.core c).walkOf instr = some w →
    let k := s.core c
    let b := k.bank w.bank
    let q := c / 8
    let reads := fun (pa : Nat) (v : WalkAns) => ∃ u, exec (.pageWalkRead c instr ans) s = .next u ∧ u.mem = s.mem ∧ u.regs = s.regs ∧
      (u.core c).walkOf instr = some { w with ans := (pa, v) :: w.ans, l2 := true, sent := none, got := none } ∧ ∀ d, u.bank c d = s.bank c d
    (∀ pa, l2Find k w = none → walkRun s c w = .need pa →
      let word := fun (d : Line) => WalkAns.data (BitVec.ofNat 64 (lineField d (pa % 64) 8))
      (addrClass pa = .dram →
        (∀ d, w.got = some (pa / 64, d, false) → reads pa (word d)) ∧
        (∀ x, w.got = none → (∀ m ∈ (s.cluster q).mshr, m.line = pa / 64 → m.walks = []) → l1Modified s (clusterCores q) (pa / 64) = none →
          lookupTurn (s.updCore c (fun k => k.setWalk instr (some { w with l2 := true }))) q (portOf c false) (pa / 64) false = true →
          l2Line s q (pa / 64) = some x → x.poison = false → reads pa (word x.data))) ∧
      (addrClass pa ≠ .dram →
        (w.sent = none → decodeFails (routerMap s c) w.closed false pa = false → ∃ u, exec (.pageWalkRead c instr ans) s = .next u ∧ u.mem = s.mem ∧
          (clusterUnit q, coreTag s c) ∈ u.openTags ∧ ∃ late, (u.core c).walkOf instr = some { w with l2 := true, sent := some (coreTag s c, late) }) ∧
        (∀ tag late p v, w.sent = some (tag, late) → findAns s c tag = some p → ansOf p = some (.data v) → p.net = 1 → reads pa (.data (BitVec.ofNat 64 v))))) ∧
    (∀ e, l2Find k w = some e → w.pref = none → b.missing = true → b.pc = w.pc → permFault e w.kind w.user w.va.toNat = none → quiet k →
      ∃ u, exec (.translationResult c instr) s = .next u ∧ Aside c s u ∧ (u.core c).walkOf instr = none ∧
        (if instr then (u.core c).itlb.head? = some e else (u.core c).dtlb.head? = some e) ∧
        Kept b (u.bank c w.bank) ∧ (u.bank c w.bank).missing = false ∧ (u.bank c w.bank).ready = max b.ready (k.cyc + 5)) ∧
    (∀ f, l2Find k w = none → walkRun s c w = .fault f → w.pref = none → b.missing = true → b.pc = w.pc → b.depth < 2 → b.lost = none → b.held = none →
      quiet k → k.prefs = [] →
      ∃ u, exec (.translationResult c instr) s = .next u ∧ Aside c s u ∧ (u.core c).walkOf instr = none ∧
        Kept b (u.bank c w.bank) ∧ (u.bank c w.bank).missing = false ∧ (u.bank c w.bank).resv = none ∧
        (u.bank c w.bank).entry = some ⟨k.cyc, if instr then 4 else 5, if f.s2 then 2 else 1, w.va,
          syndrome f.level f.s2 f.kind (decide (w.kind = .write)) f.walk w.upper, if f.s2 then BitVec.ofNat 64 f.ipa else 0, b.pc⟩)

/-- BUNDLE_ISSUE completes. A bundle of one instruction, whose block the fetch buffer or the L1I holds, does what the command of that
instruction does, on the state in which the fetch has used its line and translation (R48, R53, R132); one of integer instructions has the value of
each in its rd, all computed from the operands that the bundle finds, and the PC past it (R53, R83). A bundle that is no bundle, and one that the fetch may not read, takes its exception (R52, R59, R206); one whose
translation or block is not held starts its walk or its miss (R133, R210). -/
def Obligations.BundleIssues : Prop :=
  ∀ (s : State) (c bi : Nat), onCore s c bi →
    let b := s.bank c bi
    let k := s.core c
    canIssue s c bi = true → b.held = none → fastFetch s c bi = none →
    (∀ (pa n : Nat) (mt : MType) (ent : Option TlbEnt) (d : Line), fetchAt s c b = .ok pa mt ent → fetchLine s c bi pa mt = some d →
      let bytes := decodeBundle c bi (b.pc.toNat % 32 / 4) (blockTail d (pa % 64 / 4))
      (∀ (o : Op) (x : Syl), bytes = .ok [(o, x)] n →
        ∃ s1 u, exec (.bundleIssue c bi) s = .next u ∧ exec (instrOf o x) s1 = .next u ∧ Aside c s s1 ∧ (∀ e, e ≠ bi → s1.bank c e = s.bank c e) ∧
          (∃ l, s1.bank c bi = { b with fbuf := (pa / 32, d) :: l }) ∧
          x.core = c ∧ x.bank = bi) ∧
      (∀ (xs : List (Op × Syl)) (t : Nat) (v : Op × Syl → Word), bytes = .ok xs n → xs ≠ [] → (∀ p ∈ xs, Issues p.1 p.2 s t ∧
          intValue p.1 p.2 ((landBank t b).g p.2.a) ((landBank t b).g p.2.b) p.2.imm ((landBank t b).g p.2.d) b.pc = some (v p)) →
        ∃ u, exec (.bundleIssue c bi) s = .next u ∧ u.mem = s.mem ∧ (u.bank c bi).pc = b.pc + BitVec.ofNat 64 (4 * n) ∧
          (u.bank c bi).phys = (xs.foldl (fun y p => putG (landBank t b) p.2.d (v p) y) (landBank (t + 1) (landBank t b))).phys) ∧
      (bytes = .format ∨ bytes = .illegal → b.depth < 2 → holdEdge k bi [] ≠ none → b.fly = [] → b.lofPend = false → b.lost = none →
        ∃ u e, exec (.bundleIssue c bi) s = .next u ∧ (u.bank c bi).entry = some e ∧ e.cause = (if bytes = .format then 0 else 1) ∧ e.level = 1 ∧ e.pc = b.pc ∧
          (u.bank c bi).phys = b.phys ∧ u.mem = s.mem)) ∧
    (fetchAt s c b = .miss → k.walkI = none → ∃ u, exec (.bundleIssue c bi) s = .next u ∧ Aside c s u ∧ (u.bank c bi).missing = true ∧
      ∃ w, (u.core c).walkI = some w ∧ w.va = b.pc ∧ w.bank = bi ∧ w.kind = .fetch) ∧
    (∀ (pa : Nat) (ent : Option TlbEnt), fetchAt s c b = .ok pa .wb ent → fetchLine s c bi pa .wb = none → k.imshr = [] →
      ∃ u, exec (.bundleIssue c bi) s = .next u ∧ Aside c s u ∧ (u.bank c bi).fwait = some pa ∧ ∃ m ∈ (u.core c).imshr, m.line = pa / 64)

namespace Sys2Proof.Claims
/-- A scheduler of a cluster that runs. -/
def onCluster (s : State) (k : Nat) : Prop := k < 16 ∧ clusterRuns s k = true

/-- The registers of thread `n` of cluster `k`. -/
abbrev thA (k n : Nat) : Nat := R.SCHED_THR_A k n
abbrev thB (k n : Nat) : Nat := R.SCHED_THR_B k n

/-- Event bit `i` of a thread is set: it is pending, and a thread that waits for a pending event becomes READY-OUT, or READY with its bank, unless
debug holds it out (R162, R164, R536); no other register and no memory changes. -/
structure Raised (s u : State) (k n i : Nat) : Prop where
  pend : u.f (thB k n) F.SCHED_THR_B_pend = s.f (thB k n) F.SCHED_THR_B_pend ||| 2 ^ i
  other : ∀ a, a ≠ thB k n → u.reg a = s.reg a
  mem : u.mem = s.mem
  asleep : (s.f (thB k n) F.SCHED_THR_B_pend ||| 2 ^ i) &&& s.f (thB k n) F.SCHED_THR_B_wmask = 0 →
    u.f (thB k n) F.SCHED_THR_B_state = s.f (thB k n) F.SCHED_THR_B_state
  out : (s.f (thB k n) F.SCHED_THR_B_pend ||| 2 ^ i) &&& s.f (thB k n) F.SCHED_THR_B_wmask ≠ 0 → s.f (thB k n) F.SCHED_THR_B_state = 1 →
    u.f (thB k n) F.SCHED_THR_B_state = if n ∈ (s.cluster k).held then 1 else 2
  resident : (s.f (thB k n) F.SCHED_THR_B_pend ||| 2 ^ i) &&& s.f (thB k n) F.SCHED_THR_B_wmask ≠ 0 → s.f (thB k n) F.SCHED_THR_B_state = 3 →
    u.f (thB k n) F.SCHED_THR_B_state = 4 ∧
      let c := 8 * k + s.f (thB k n) F.SCHED_THR_B_core
      let bi := s.f (thB k n) F.SCHED_THR_B_bank
      ((s.bank c bi).st = .wait → (u.bank c bi).st = .ready)

/-- A thread is bound to a source by exactly one entry of the event table (R162). -/
def boundOnce (s : State) (k kind source n i : Nat) : Prop := bindings s k kind source = [(n, i)]
end Sys2Proof.Claims

/-- THREAD_VALIDATE of an OFF thread accepts its entry, to WAIT-OUT, or to READY-OUT where it is fast or an event it waits for is pending, or
rejects it where R160 and R481 say so, valid staying 0; an OFF or FROZEN thread that is made invalid is OFF, with no event pending (R160). -/
def Obligations.ThreadTable : Prop :=
  ∀ (s : State) (k n : Nat), onCluster s k → n < 256 →
    let st := s.f (thB k n) F.SCHED_THR_B_state
    (st = 0 → thrRejected s k n = false →
      ∃ u, exec (.threadValidate k n true) s = .next u ∧ Sets s u
        [(thB k n, F.SCHED_THR_B_ferr, 0), (thA k n, F.SCHED_THR_A_valid, 1), (thB k n, F.SCHED_THR_B_state,
          if s.f (thB k n) F.SCHED_THR_B_fast ≠ 0 then 2
          else if s.f (thB k n) F.SCHED_THR_B_pend &&& s.f (thB k n) F.SCHED_THR_B_wmask ≠ 0 ∧ n ∉ (s.cluster k).held then 2 else 1)]) ∧
    (st = 0 → s.f (thA k n) F.SCHED_THR_A_folio = 0 ∨
        (s.f (thB k n) F.SCHED_THR_B_fast = 1 ∧ s.f (R.SCHED_CORE k (s.f (thB k n) F.SCHED_THR_B_core)) F.SCHED_CORE_fast_en = 0) →
      ∃ u, exec (.threadValidate k n true) s = .next u ∧ Sets s u [(thB k n, F.SCHED_THR_B_ferr, 0), (thA k n, F.SCHED_THR_A_valid, 0)]) ∧
    (st = 0 ∨ st = 6 →
      ∃ u s1, exec (.threadValidate k n false) s = .next u ∧ s1 = { s with clusters := s1.clusters, faulted := s1.faulted } ∧ n ∉ (s1.cluster k).held ∧ Sets s1 u
        [(thB k n, F.SCHED_THR_B_ferr, 0), (thA k n, F.SCHED_THR_A_valid, 0), (thB k n, F.SCHED_THR_B_state, 0), (thB k n, F.SCHED_THR_B_pend, 0)])

namespace Sys2Proof.Claims
/-- SCHED_SEM_POST adds to the count, which stops at 65,535 with ovf; SEMAPHORE_TAKE gives one unit to the waiting thread of highest priority, among
equals of lowest number (R163). THREAD_TIMER_FIRE sets bit 14 once the deadline is reached, and adds the period or disarms the timer (R166). -/
def SemaphoresAndTimers : Prop :=
  ∀ (s : State) (k j : Nat), onCluster s k →
    let a := R.SCHED_SEM_CNT k (j / 8) (j % 8)
    let n := s.f a F.SCHED_SEM_CNT_count
    (∀ v, j < 64 → v < 65536 → ∃ u, exec (.schedSemPost k j v) s = .next u ∧
      Sets s u (if 65535 < n + v then [(a, F.SCHED_SEM_CNT_count, 65535), (a, F.SCHED_SEM_CNT_ovf, 1)] else [(a, F.SCHED_SEM_CNT_count, n + v)])) ∧
    (∀ t i, (t, i) ∈ semWaiters s k j ↔ (s.f (thB k t) F.SCHED_THR_B_state = 1 ∨ s.f (thB k t) F.SCHED_THR_B_state = 3) ∧
      (s.f (thB k t) F.SCHED_THR_B_wmask).testBit i = true ∧ i < 14 ∧ ∃ e, e < 512 ∧ s.f (R.SCHED_EVT k e) F.SCHED_EVT_valid = 1 ∧
        s.f (R.SCHED_EVT k e) F.SCHED_EVT_kind = 2 ∧ s.f (R.SCHED_EVT k e) F.SCHED_EVT_source % 64 = j ∧ s.f (R.SCHED_EVT k e) F.SCHED_EVT_thread = t ∧
        s.f (R.SCHED_EVT k e) F.SCHED_EVT_bit = i) ∧
    (j < 64 → n = 0 ∨ semWaiters s k j = [] → exec (.semaphoreTake k j) s = .next s) ∧
    (∀ t i, j < 64 → 0 < n → (t, i) ∈ semWaiters s k j →
      (∀ q ∈ semWaiters s k j, q = (t, i) ∨ s.f (thB k q.1) F.SCHED_THR_B_prio < s.f (thB k t) F.SCHED_THR_B_prio ∨
        (s.f (thB k q.1) F.SCHED_THR_B_prio = s.f (thB k t) F.SCHED_THR_B_prio ∧ t < q.1)) →
      ∃ u, exec (.semaphoreTake k j) s = .next u ∧ u.f a F.SCHED_SEM_CNT_count = n - 1 ∧ Raised (s.setF a F.SCHED_SEM_CNT_count (n - 1)) u k t i) ∧
    (∀ t, t < 256 → s.f (R.SCHED_THR_T k t) F.SCHED_THR_T_armed = 1 →
      let d := s.f (R.SCHED_THR_T k t) F.SCHED_THR_T_deadline
      let p := s.f (R.SCHED_THR_T k t) F.SCHED_THR_T_period
      (s.ref + 2 ^ 40 - d) % 2 ^ 40 < 2 ^ 39 →
      ∃ u v, exec (.threadTimerFire k t) s = .next u ∧ Raised s v k t 14 ∧ Sets v u
        [if p = 0 then (R.SCHED_THR_T k t, F.SCHED_THR_T_armed, 0) else (R.SCHED_THR_T k t, F.SCHED_THR_T_deadline, d + p)])
end Sys2Proof.Claims

namespace Sys2Proof.Claims
/-- COMPLETION_NOTICE of a notice that has reached its cluster's router, and INTERRUPT_EVENT_LEVEL while the level is high, set the bit of the
thread bound to their source, whatever the thread's state, and the notice is used up (R162, R329, R355). -/
def EventsBound : Prop :=
  ∀ (s : State) (k n i : Nat), onCluster s k → n < 256 → i < 14 →
    (∀ t q p, s.inbox.find? (fun p => isNotice p && p.dst = clusterUnit k && p.tenant = t && p.tag = q) = some p → boundOnce s k 0 (t * 8 + q) n i →
      ∃ u, exec (.completionNotice k t q) s = .next u ∧ u.inbox = dropFirst (fun x => decide (x = p)) s.inbox ∧ Raised (s.take p) u k n i) ∧
    (∀ x, x ∈ (s.cluster k).levels → boundOnce s k 1 x n i → ∃ u, exec (.interruptEventLevel k x) s = .next u ∧ Raised s u k n i)
end Sys2Proof.Claims

/-- Semaphores, thread timers and the events bound to threads (R162, R163, R166). -/
def Obligations.SemaphoresTimersEvents : Prop := Claims.SemaphoresAndTimers ∧ Claims.EventsBound

namespace Sys2Proof.Claims
/-- SCHEDULER_DECISION chooses, on every core of the cluster, a READY bank of higher priority than the RUN bank, and keeps the RUN bank against one of
equal priority (R167); QUANTUM_EXPIRY gives way to an equal one once the quantum is over, at entry depth 0. -/
def SchedulerChoices : Prop :=
  ∀ (s : State) (k i r q : Nat), onCluster s k → i < 8 →
    let c := 8 * k + i
    runBank (s.core c) = some r → bestReady s c = some q → selectable s c r = true →
    (∃ u, exec (.schedulerDecision k) s = .next u ∧ u.mem = s.mem ∧
      (bankPrio s c r < bankPrio s c q → (u.cluster k).decide_.find? (fun p => decide (p.1 = i)) = some (i, q)) ∧
      (bankPrio s c q ≤ bankPrio s c r → r ≠ q → (u.cluster k).decide_.find? (fun p => decide (p.1 = i)) = none)) ∧
    (coreClocked s c = true → (s.bank c r).depth = 0 → bankPrio s c r = bankPrio s c q →
      let w := s.f (R.SCHED_CORE k i) F.SCHED_CORE_quantum
      w ≠ 0 → (s.bank c r).runSince + w ≤ s.ref →
      ∃ u, exec (.quantumExpiry c) s = .next u ∧ u.cores = s.cores ∧ u.regs = s.regs ∧ u.mem = s.mem ∧
        (u.cluster k).decide_.find? (fun p => decide (p.1 = i)) = some (i, q))
end Sys2Proof.Claims

namespace Sys2Proof.Claims
/-- BANK_SWITCH switches the chosen READY bank in, its first bundle 3 edges on, a WAITEV that it left completed, and the RUN bank out, READY and
without its reservation; the threads' states follow (R105, R164, R168). WAITEV_ANSWER completes a wait with the pending events of its mask in g1 and
takes them from the pending word, or has the thread wait; it ends a thread by the save of its bank; a yield gives way to another READY bank that is not
below it, and goes on without one (R161, R164, R165, R167). -/
def SwitchAndWait : Prop :=
  ∀ (s : State) (c bi r n : Nat), onCore s c bi → r < 8 →
    let k := c / 8
    let b := s.bank c bi
    let p := s.f (thB k n) F.SCHED_THR_B_pend
    (runBank (s.core c) = some r → r ≠ bi → (s.cluster k).decide_.find? (fun p => decide (p.1 = c % 8)) = some (c % 8, bi) → b.st = .ready →
      (s.core c).move = none → pairBlocked s c = false → b.thread = some n → ∀ m, (s.bank c r).thread = some m → m ≠ n → m < 256 → n < 256 →
      ∀ g, (b.slept = none ∧ g = b) ∨ (∃ m, b.slept = some m ∧ p &&& m ≠ 0 ∧ g = { b with phys := mset b.phys 1 (BitVec.ofNat 64 (p &&& m)), waitev := none, slept := none }) →
      ∃ u, exec (.bankSwitch c) s = .next u ∧ u.mem = s.mem ∧
        Bank.same (u.bank c bi) { g with st := .run, runSince := s.ref, ready := max b.ready ((s.core c).cyc + 3) } ∧
        u.bank c r = { s.bank c r with st := .ready, waitSince := s.ref, resv := none } ∧
        u.f (thB k n) F.SCHED_THR_B_state = 5 ∧ u.f (thB k m) F.SCHED_THR_B_state = 4) ∧
    (∀ m, b.waitev = some m → b.thread = some n → m < 2 ^ 16 →
      (m ≠ 0 → ¬(m = 0xFFFF ∧ 2 ≤ b.psw.pl.toNat) →
        (p &&& m ≠ 0 → ∃ u, exec (.waitevAnswer c bi) s = .next u ∧ u.mem = s.mem ∧
          u.bank c bi = { b with
            phys := mset b.phys 1 (BitVec.ofNat 64 (p &&& m)), waitev := none, slept := none, ready := max b.ready ((s.core c).cyc + 3) } ∧
          u.f (thB k n) F.SCHED_THR_B_pend = p - (p &&& m) ∧ u.f (thB k n) F.SCHED_THR_B_wmask = m ∧
          u.f (thB k n) F.SCHED_THR_B_state = (if b.st = .run then 5 else 4) ∧ (∀ a, a ≠ thB k n → u.reg a = s.reg a)) ∧
        (p &&& m = 0 → b.psw.fast = false → ∃ u, exec (.waitevAnswer c bi) s = .next u ∧ u.mem = s.mem ∧
          u.bank c bi = { b with st := .wait, slept := some m, waitev := none, waitSince := s.ref, resv := none } ∧
          u.f (thB k n) F.SCHED_THR_B_state = 3 ∧ u.f (thB k n) F.SCHED_THR_B_wmask = m ∧ (∀ a, a ≠ thB k n → u.reg a = s.reg a))) ∧
      (m = 0xFFFF → 2 ≤ b.psw.pl.toNat → b.psw.fast = false → (s.core c).move = none →
        ∃ u, exec (.waitevAnswer c bi) s = .next u ∧ u.mem = s.mem ∧ (u.core c).move = some { bank := bi, victim := some n, ends := true } ∧
          (u.bank c bi).waitev = none ∧ (u.bank c bi).phys = b.phys) ∧
      (m = 0 → b.psw.fast = false → runBank (s.core c) = some bi → tenantRuns s (clusterHalf (c / 8)) b.tenant = true → b.slept = none →
        let others := (List.range 8).filter (fun q => decide (q ≠ bi) && decide ((s.bank c q).st = .ready) && selectable s c q)
        ((∀ q ∈ others, bankPrio s c q < bankPrio s c bi) → ∃ u, exec (.waitevAnswer c bi) s = .next u ∧ u.mem = s.mem ∧
          Bank.same (u.bank c bi) { b with
            waitev := none, runSince := s.ref, waitSince := s.ref, resv := none, ready := max b.ready ((s.core c).cyc + 3) }) ∧
        ((∀ q ∈ others, (s.bank c q).slept = none) → (∃ q ∈ others, bankPrio s c bi ≤ bankPrio s c q) →
          ∃ u q, exec (.waitevAnswer c bi) s = .next u ∧ u.mem = s.mem ∧ q ∈ others ∧ (u.bank c q).st = .run ∧
            (∀ o ∈ others, bankPrio s c o ≤ bankPrio s c q) ∧ u.bank c bi = { b with st := .ready, waitev := none, waitSince := s.ref, resv := none })))
end Sys2Proof.Claims

/-- The choice of banks, the quantum, switches and waits (R105, R164, R165, R167, R168). -/
def Obligations.SchedulingAndSwitches : Prop := Claims.SchedulerChoices ∧ Claims.SwitchAndWait

namespace Sys2Proof.Claims
/-- A thread that a sequence fails is FROZEN with ferr, and its bank EMPTY (R188). -/
structure Failed (u : State) (c bi v : Nat) : Prop where
  bank : (u.bank c bi).st = .empty
  thread : u.f (thB (c / 8) v) F.SCHED_THR_B_state = 6 ∧ u.f (thB (c / 8) v) F.SCHED_THR_B_ferr = 1
  ended : (u.core c).move = none

/-- Rows of a core's folio sequence that loads a thread: the lower half and its link, then the upper half, with which the thread stands in the bank: the
Open world, depth 0, the level of R186, the PC of its lower folio, its first bundle 10 edges on (R184, R186, R188). -/
def LoadRows (s : State) (c : Nat) (m : Move) (n : Nat) : Prop :=
  let k := c / 8
  let w := s.landAt c m.at_
  let lo := s.f (thA k n) F.SCHED_THR_A_folio * 64
  let ten := s.f (thA k n) F.SCHED_THR_A_tenant
  m.next = some n → n < 256 → m.bank < 8 → s.f (thB k n) F.SCHED_THR_B_state = 2 → (s.bank c m.bank).st = .empty →
    (m.row = m.w + 2 → ∀ l up, fReadLines w c m.bank ten 5 (lo + 0x40) = some l → fRead w c m.bank ten lo = some up →
      Leads (.threadLoad c) s (fun u => u.mem = s.mem ∧ (u.core c).move = some { m with row := m.row + 1, at_ := (w.core c).cyc + 8, lo := l ++ [up] })) ∧
    (m.row = m.w + 2 → fReadLines w c m.bank ten 5 (lo + 0x40) = none ∨ fRead w c m.bank ten lo = none →
      Leads (.threadLoad c) s (fun u => u.mem = s.mem ∧ Failed u c m.bank n)) ∧
    (m.row = m.w + 3 → ∀ h, fReadLines w c m.bank ten 7 ((m.lo.getD 40 0).toNat + 0x40) = some h → (mget {} (s.cluster k).parked n).slept = none →
      Leads (.threadLoad c) s (fun u => u.mem = s.mem ∧ (u.core c).move = none ∧
        let z := u.bank c m.bank
        z.thread = some n ∧ z.psw.world = false ∧ z.psw.tw = false ∧ z.depth = 0 ∧ z.pc = m.lo.getD 33 0 ∧ z.tenant = ten ∧
        z.folio = BitVec.ofNat 64 lo ∧ z.asid = s.f (thA k n) F.SCHED_THR_A_asid ∧
        z.psw.pl = BitVec.ofNat 2 (min (fld (m.lo.getD 32 0) 0 2) (min (s.f (thB k n) F.SCHED_THR_B_plmax) 2)) ∧
        (w.core c).cyc + 10 ≤ z.ready ∧ (z.st = .ready ∨ z.st = .run))) ∧
    (m.row = m.w + 3 → fReadLines w c m.bank ten 7 ((m.lo.getD 40 0).toNat + 0x40) = none →
      Leads (.threadLoad c) s (fun u => u.mem = s.mem ∧ Failed u c m.bank n))

/-- Rows of a core's folio sequence that save a victim: one spill, or one half, a row; after the last the bank is EMPTY and the thread WAIT-OUT, READY-OUT,
or, where it ends, OFF (R161, R183, R184, R188). -/
def SaveRows (s : State) (c : Nat) (m : Move) (v : Nat) : Prop :=
  let k := c / 8
  let w := s.landAt c m.at_
  let t := saveRow w c m
  m.victim = some v → (s.bank c m.bank).thread = some v → v < 256 → m.bank < 8 → m.row < m.w + 2 →
    (t.2 = true → m.row ≤ m.w → Leads (.threadLoad c) s (fun u => u.mem = t.1.mem ∧
      (u.core c).move = some { m with row := m.row + 1, at_ := (w.core c).cyc + 8 })) ∧
    (t.2 = true → m.row = m.w + 1 → (s.bank c m.bank).lost = none → Leads (.threadLoad c) s (fun u => u.mem = t.1.mem ∧ (u.bank c m.bank).st = .empty ∧
      (u.core c).move = (if m.next = none then none else some { m with row := m.row + 1, at_ := (w.core c).cyc + 8 }) ∧
      u.f (thB k v) F.SCHED_THR_B_state = if m.ends = true then 0 else if (s.bank c m.bank).st = .wait ∨ m.halt ≠ none then 1 else 2)) ∧
    (t.2 = false → Leads (.threadLoad c) s (fun u => u.mem = t.1.mem ∧ Failed u c m.bank v))
end Sys2Proof.Claims

/-- THREAD_LOAD brings the next READY-OUT thread into its core, by a sequence of rows, one a command, that stands still while a fast-class entry runs: it
starts once the victim's operations have ended, saves the victim, and loads the thread; a thread whose folios cannot be reached is FROZEN, with ferr
(R183 to R188). BANK_FREEZE saves a frozen bank and empties it, its thread FROZEN (R182). FAST_ENABLE_APPLY makes the EMPTY bank 7 the fast bank, or no
longer (R157). -/
def Obligations.ThreadsMove : Prop :=
  ∀ (s : State) (c bi : Nat), onCore s c bi →
    (∀ m, (s.core c).move = none → nextOut s c = some m → pairBlocked s c = false → domOn s c = true → (s.core c).fastRun = false →
      (m.victim = none ∨ (s.bank c m.bank).quiet = true) →
      Leads (.threadLoad c) s (fun u => u.mem = s.mem ∧ ∃ e, (s.core c).cyc < e ∧ (u.core c).move = some { m with begun := true, at_ := e })) ∧
    (∀ m, (s.core c).move = some m → (s.core c).fastRun = true → exec (.threadLoad c) s = .next s) ∧
    (∀ m, (s.core c).move = some m → (s.core c).fastRun = false → m.begun = true → (∀ n, LoadRows s c m n) ∧ ∀ v, SaveRows s c m v) ∧
    (∀ n t v, (s.bank c bi).st = .frozen → (s.bank c bi).thread = some n → (s.bank c bi).loads = [] → n < 256 →
      saveLow (s.settle c bi) c bi (BitVec.ofNat 64 ((s.bank c bi).depth % 4 + 4 + (if (s.bank c bi).psw.wres = 1 then 0 else 8))) = (t, true) →
      saveHigh t c bi = (v, true) →
      Leads (.bankFreeze c bi) s (fun u => (u.bank c bi).st = .empty ∧ u.f (thB (c / 8) n) F.SCHED_THR_B_state = 6 ∧ u.mem = v.mem)) ∧
    (bi = 7 → (s.bank c 7).st = .empty → (∀ m, (s.core c).move = some m → m.bank ≠ 7) →
      Leads (.fastEnableApply c) s (fun u => u.regs = s.regs ∧ u.mem = s.mem ∧ Bank.same (u.bank c 7) { s.bank c 7 with
        psw := { (s.bank c 7).psw with fast := decide (s.f (R.SCHED_CORE (c / 8) (c % 8)) F.SCHED_CORE_fast_en ≠ 0) } }))

namespace Sys2Proof.Claims
/-- Two states differ in nothing but registers and the counters' own data. -/
def pmuOnly (s u : State) : Prop := u = { s with regs := u.regs, pmu := u.pmu }

/-- The mode commands, snapshots, sampling, readout and windows of the counters (R548 to R558). -/
def Counting : Prop :=
  ∀ (s : State) (ag : Agent),
    (Written s .pmu R.PMU_MODE ag →
      let t := acked s ag R.PMU_MODE
      let m := s.f R.PMU_MODE F.PMU_MODE_mode
      let result := fun (ok : Prop) [Decidable ok] (n : Nat) (u : State) =>
        Sets t u [if ok then (R.PMU_MODE, F.PMU_MODE_mode, n) else (R.PMU_MODE, F.PMU_MODE_err, 1)]
      Leads (.serviceMode ag) s (result ((m = 0 ∨ m = 2) ∧ 2 ≤ ag.pl.toNat) 1) ∧
      Leads (.recoveryMode ag) s (result (m = 1 ∧ ag.closed = true) 2) ∧
      Leads (.testMode ag) s (result (m = 0 ∧ ag.closed = true ∧ (s.sec.life = 0 ∨ s.sec.life = 2 ∨ authorised s 3 = true)) 3)) ∧
    (Written s .pmu R.PMU_SNAP ag →
      let t := acked s ag R.PMU_SNAP
      ∀ q ∈ [(Instr.snapshot ag, 1), (Instr.freeze ag, 2), (Instr.unfreeze ag, 3), (Instr.freezeAndSnapshot ag, 4)],
        (s.f R.PMU_SNAP F.PMU_SNAP_pend = 0 →
          Leads q.1 s (fun u => Sets { t with pmu := { t.pmu with snap := some (q.2, max (s.f R.PMU_SNAPAT F.PMU_SNAPAT_at) (s.ref + 32)) } } u
            [(R.PMU_SNAP, F.PMU_SNAP_pend, 1)])) ∧
        (s.f R.PMU_SNAP F.PMU_SNAP_pend = 1 → Leads q.1 s (fun u => Sets t u [(R.PMU_SNAP, F.PMU_SNAP_lost, 1)]))) ∧
    (∀ op tau, s.pmu.snap = some (op, tau) → 1 ≤ op → op ≤ 4 → tau ≤ s.ref →
      Leads .snapshotTick s (fun u => pmuOnly s u ∧ u.pmu.snap = some (0, tau) ∧ u.pmu.cnt = s.pmu.cnt ∧
        (u.f R.PMU_SNAP F.PMU_SNAP_frozen = if op = 1 then s.f R.PMU_SNAP F.PMU_SNAP_frozen else if op = 3 then 0 else 1) ∧
        (op = 1 ∨ op = 4 → u.f R.PMU_SNAPT F.PMU_SNAPT_tick = tau % 2 ^ F.PMU_SNAPT_tick.w ∧
          u.f R.PMU_SNAPT F.PMU_SNAPT_sn = (s.f R.PMU_SNAPT F.PMU_SNAPT_sn + 1) % 2 ^ F.PMU_SNAPT_sn.w ∧ u.pmu.wraps = [] ∧
          ((s.pmu.cnt.map (·.1)).Nodup → ∀ i k v, i < 128 → k < 64 → (64 * i + k, v) ∈ s.pmu.cnt → domState s i ≠ 0 →
            mget 0 u.pmu.shadow (shadowKey i 0 k) = v % 2 ^ 48 + if 64 * i + k ∈ s.pmu.wraps then 2 ^ 48 else 0)))) ∧
    (∀ v : Word, Written s .pmu R.PMU_RD ag →
      let t := acked s ag R.PMU_RD
      let i := fld v 0 8
      let p := fld v 8 5
      let asked := [(R.PMU_RD, F.PMU_RD_island, i), (R.PMU_RD, F.PMU_RD_page, p)]
      (i < 128 → p = 0 → Leads (.pmuReadout ag v) s (fun u => ∃ x, Sets { t with pmu := x } u (asked ++ [(R.PMU_RD, F.PMU_RD_rstat, 0)]) ∧
        x.rd = some (i, 0) ∧ x.copySn = s.f R.PMU_SNAPT F.PMU_SNAPT_sn ∧ x.copyOff = s.pmu.off.contains i ∧ x.cnt = s.pmu.cnt ∧
        ∀ k, k < 64 → mget 0 x.copy k = if s.pmu.svc = true ∧ maskedEvent k = true then 2 ^ 49 else mget 0 s.pmu.shadow (shadowKey i 0 k))) ∧
      (128 ≤ i → i < 160 → Leads (.pmuReadout ag v) s (fun u => Sets { t with pmu := { t.pmu with rd := none } } u (asked ++ [(R.PMU_RD, F.PMU_RD_rstat, 3)])))) ∧
    (∀ (i p : Nat) (w : Nat → Nat), s.pmu.rd = some (i, p) → s.pmu.copy = (List.range 64).map (fun k => (k, w k)) → (∀ k, w k < 2 ^ 64) →
      Leads .pmuReadoutComplete s (fun u => u = { s with regs := u.regs, pmu := { s.pmu with rd := none } } ∧
        (∀ k, k < 64 → (u.reg (R.PMU_VAL k)).toNat = if i < 128 ∧ serviceMode s = true ∧ maskedEvent k = true then 2 ^ 49 else w k) ∧
        u.f R.PMU_RD F.PMU_RD_rstat = 1 ∧ u.f R.PMU_RD F.PMU_RD_sn = s.pmu.copySn % 2 ^ F.PMU_RD_sn.w ∧
        u.f R.PMU_RD F.PMU_RD_off = if s.pmu.copyOff then 1 else 0)) ∧
    (∀ (c : Nat) (h : Hit) (rest : List Hit), c < 128 → coreClocked s c = true → (mget {} s.pmu.smp c).hits = h :: rest → h.at_ + 4 ≤ (s.core c).cyc →
      Leads (.samplingFire c) s (fun u => u = { s with pmu := { s.pmu with
        smp := mset s.pmu.smp c { mget {} s.pmu.smp c with hits := rest },
        recs := mset s.pmu.recs c (mget [] s.pmu.recs c ++ [sampleRec s c h]) } })) ∧
    (∀ (c : Nat) (r : Word × Word) (rest : List (Word × Word)), c < 128 → mget [] s.pmu.recs c = r :: rest →
      let t : State := { s with pmu := { s.pmu with recs := mset s.pmu.recs c rest } }
      let a := R.PMU_SREC0 c
      Leads (.sampleRecordStored c) s (fun u =>
        if s.f a F.PMU_SREC0_valid = 1 then Sets t u [(a, F.PMU_SREC0_over, 1)]
        else u = { t with regs := u.regs } ∧ u.f a F.PMU_SREC0_valid = 1 ∧ u.f a F.PMU_SREC0_over = s.f a F.PMU_SREC0_over ∧
          u.f a F.PMU_SREC0_pc = fld r.1 0 48 ∧ u.f a F.PMU_SREC0_bank = fld r.1 48 3 ∧ u.f a F.PMU_SREC0_skid = fld r.1 51 2 ∧
          u.f a F.PMU_SREC0_pcv = fld r.1 53 1 ∧ u.reg (R.PMU_SREC1 c) = r.2 ∧ ∀ b, b ≠ a → b ≠ R.PMU_SREC1 c → u.reg b = s.reg b)) ∧
    (∀ m, m < 16 →
      let x := mget ({} : BwMon) s.pmu.bw m
      let n := x.bytes % 2 ^ 48
      fld x.set 0 2 ≠ 0 → x.edge ≤ s.ref → x.on_ = true →
      Leads (.bandwidthWindowEnd m) s (fun u => ∃ y, Sets { s with pmu := y } u
          [(R.PMU_BWLAST m, F.PMU_BWLAST_bytes, n), (R.PMU_BWLAST m, F.PMU_BWLAST_wins, s.f (R.PMU_BWLAST m) F.PMU_BWLAST_wins + 1),
            (R.PMU_BWMAX m, F.PMU_BWMAX_bytes, max (s.f (R.PMU_BWMAX m) F.PMU_BWMAX_bytes) n)] ∧
        y.cnt = s.pmu.cnt ∧ (mget ({} : BwMon) y.bw m).bytes = 0 ∧ (mget ({} : BwMon) y.bw m).on_ = true ∧ s.ref < (mget ({} : BwMon) y.bw m).edge)) ∧
    (∀ m, m < 16 → Written s .pmu (R.PMU_BWMAX m) ag →
      Leads (.bwmaxClear ag m) s (fun u => Sets (acked s ag (R.PMU_BWMAX m)) u [(R.PMU_BWMAX m, F.PMU_BWMAX_bytes, 0)])) ∧
    (∀ a r, a ∈ s.pmu.moved → findReg a = some r → Leads (.settingPropagate a) s (fun u =>
      u = { s with pmu := u.pmu } ∧ u.pmu.moved = s.pmu.moved.filter (fun b => decide (b ≠ a)) ∧ u.pmu.cnt = s.pmu.cnt ∧
      (r.d.name = "PMU_SMP" → mget {} u.pmu.smp r.idx1 = { mget {} s.pmu.smp r.idx1 with set := s.reg a, n := 0 }) ∧
      (r.d.name = "PMU_BWSEL" → (mget {} u.pmu.bw r.idx1).set = s.reg a ∧ (mget {} u.pmu.bw r.idx1).on_ = false) ∧
      (r.d.name ≠ "PMU_SMP" → r.d.name ≠ "PMU_BWSEL" → mget 0 u.pmu.force a = s.reg a)))

/-- What start and stop by trigger make of an encoder's state (R524). -/
def triggered (st : Nat) (start stop rearm : Bool) : Nat :=
  if st = 1 ∧ start = true ∧ stop = false then 2 else if st = 2 ∧ stop = true then 3 else if st = 3 ∧ start = true ∧ stop = false ∧ rearm = true then 2 else st

/-- The encoders, the Ledger and its sinks, halts and releases (R524 to R536). -/
def Tracing : Prop :=
  ∀ (s : State) (ag : Agent), domOn s 217 = true →
    (∀ (c : Nat) (v : Word), c < 128 → Written s .trc (R.TRC_ENC c) ag →
      let a := R.TRC_ENC c
      let t := acked s ag a
      (s.f a F.TRC_ENC_en = 0 → bit v 0 = true → fld v 3 2 = 0 ∨ fld v 3 2 = 3 →
        Leads (.traceEncoderEnable ag c v) s (fun u => ∃ e, Sets { t with encs := e } u
          [(a, ⟨1, 7⟩, fld v 1 7), (a, ⟨10, 18⟩, fld v 10 18), (a, ⟨28, 1⟩, fld v 28 1), (a, F.TRC_ENC_en, 1), (a, F.TRC_ENC_state, 2)])) ∧
      (s.f a F.TRC_ENC_en = 1 → bit v 0 = false → Leads (.traceEncoderEnable ag c v) s (fun u =>
        Sets { t with encs := u.encs, chunks := u.chunks } u [(a, F.TRC_ENC_en, 0), (a, F.TRC_ENC_state, 0)] ∧ (u.enc c).buf = [] ∧
          ∀ k ∈ u.chunks, k.src ≠ c))) ∧
    (Written s .trc R.TRC_CTL ag → (∀ d, d < 128 → s.f (R.TRC_ENC d) F.TRC_ENC_evtrig = 0) →
      Leads (.traceTrigger ag) s (fun u => ∀ c, c < 128 →
        let f := s.f (R.TRC_ENC c)
        u.f (R.TRC_ENC c) F.TRC_ENC_state =
          triggered (f F.TRC_ENC_state) (decide (f F.TRC_ENC_start = 2)) (decide (f F.TRC_ENC_stop = 2)) (decide (f F.TRC_ENC_rearm = 1)))) ∧
    (∀ c, c < 128 → (s.enc c).lastAt + 2 ≤ s.ref → (s.enc c).buf ≠ [] →
      Leads (.chunkCloseTimeout c) s (fun u => u = { s with encs := u.encs, chunks := u.chunks } ∧ (u.enc c).buf = [] ∧
        ∃ k, u.chunks = s.chunks ++ [k] ∧ k.src = c ∧ k.bytes = (s.enc c).buf)) ∧
    (∀ k, s.f R.TRC_CTL F.TRC_CTL_en = 1 → s.chunks = [k] → s.ledger.losses = [] → s.ledger.skip = [] → s.ledger.stopped = false → k.lost.bytes = 0 →
      k.src < 128 → k.bytes.length + 2 + s.f R.TRC_CTL F.TRC_CTL_reserve * (3 - s.f (R.TRC_SRC k.src) F.TRC_SRC_prio) * 1024 ≤ s.ledger.free →
      Leads .chunkAdmission s (fun u => u = { s with chunks := [], ledger := { s.ledger with merge := s.ledger.merge ++ [k], last := k.src } })) ∧
    (∀ b : List Byte, s.ledger.out = b → b.length = 64 → s.inbox = [] → s.f R.TRC_CTL F.TRC_CTL_sink = 1 → s.ledger.stopped = false →
      s.f R.TRC_CTL F.TRC_CTL_en = 1 →
      let o := s.f R.TRC_MWP F.TRC_MWP_offset
      let size := 2 ^ s.f R.TRC_MSIZE F.TRC_MSIZE_log2
      let pa := s.f R.TRC_MBASE F.TRC_MBASE_base * 4096 + o
      o + 64 < size → o + 64 < 2 ^ 30 → decodeFails (s.router 29).map false true pa = false →
      Leads .memorySinkWrite s (fun u => u.f R.TRC_MWP F.TRC_MWP_offset = o + 64 ∧ (∀ a, a ≠ R.TRC_MWP → u.reg a = s.reg a) ∧ u.mem = s.mem ∧
        u.ledger.out = [] ∧ u.ledger.sent = s.ledger.sent ++ [(s.nextTag ledgerUnit, rtoLate s 29)] ∧ u.ledger.merge = s.ledger.merge)) ∧
    (∀ n e rest, s.inbox = [] → s.ledger.sent = (n, e) :: rest → e ≤ s.ref →
      Leads .sinkError s (fun u => u.f R.TRC_STAT F.TRC_STAT_err = 1 ∧ u.ledger.stopped = true ∧ u.ledger.out = [] ∧ u.ledger.merge = [] ∧
        u.ledger.sent = rest.filter (fun x => decide (x.1 ≠ n)) ∧ u.mem = s.mem ∧ ∀ a, a ≠ R.TRC_STAT → a ≠ R.TRC_LOST → u.reg a = s.reg a)) ∧
    (∀ v : Word, Written s .trc R.TRC_CTL ag →
      let t := acked s ag R.TRC_CTL
      let settings := [(R.TRC_CTL, (⟨1, 7⟩ : Fld), fld v 1 7), (R.TRC_CTL, ⟨12, 8⟩, fld v 12 8)]
      (fld v 1 2 ≠ 1 → Leads (.ledgerEnable ag v) s (fun u => Sets { t with ledger := { t.ledger with stopped := false, out := [], pos := 0 } } u
        (settings ++ [(R.TRC_CTL, F.TRC_CTL_en, 1), (R.TRC_STAT, F.TRC_STAT_busy, 0), (R.TRC_MWP, ⟨0, 64⟩, 0)]))) ∧
      (fld v 1 2 = 1 → s.f R.TRC_MSIZE F.TRC_MSIZE_log2 < 16 →
        Leads (.ledgerEnable ag v) s (fun u => Sets t u (settings ++ [(R.TRC_CTL, F.TRC_CTL_en, 0), (R.TRC_STAT, F.TRC_STAT_err, 1)]))) ∧
      (s.f R.TRC_CTL F.TRC_CTL_en = 1 → Leads (.ledgerDisable ag v) s (fun u =>
        Sets t u (settings ++ [(R.TRC_CTL, F.TRC_CTL_en, 0), (R.TRC_STAT, F.TRC_STAT_busy, 1)])))) ∧
    (s.f R.TRC_STAT F.TRC_STAT_busy = 1 → s.f R.TRC_CTL F.TRC_CTL_sink = 1 ∨ s.f R.TRC_CTL F.TRC_CTL_sink = 2 → s.ledger.merge = [] → s.ledger.out = [] →
      Leads .ledgerFlushEnd s (fun u => Sets s u [(R.TRC_STAT, F.TRC_STAT_busy, 0)])) ∧
    (Written s .trc R.TRC_LOST ag → Leads (.trcLostClear ag) s (fun u => Sets (acked s ag R.TRC_LOST) u [(R.TRC_LOST, F.TRC_LOST_bytes, 0)])) ∧
    (∀ k n, k < 16 → n < 256 → Written s .trc R.TRC_HCMD ag →
      let t := acked s ag R.TRC_HCMD
      let result := fun (r h : Nat) => [(R.TRC_HSTAT, F.TRC_HSTAT_rstat, r), (R.TRC_HSTAT, F.TRC_HSTAT_held, h)]
      let m := s.f (R.TRC_DCFG (thrCore s k n)) F.TRC_DCFG_mode
      let st := s.f (R.SCHED_THR_B k n) F.SCHED_THR_B_state
      (m = 1 ∨ m = 2 → st ≠ 0 → st ≠ 6 → n ∉ (s.cluster k).held →
        Leads (.halt ag k n) s (fun u => Sets { t with dbg := { t.dbg with hcmd := some (k, n) } } u (result 0 0))) ∧
      (m = 0 ∨ m = 3 → n ∉ (s.cluster k).held → Leads (.halt ag k n) s (fun u => Sets { t with dbg := { t.dbg with hcmd := none } } u (result 3 0))) ∧
      (n ∈ (s.cluster k).held → Leads (.release ag k n) s (fun u => u.f R.TRC_HSTAT F.TRC_HSTAT_rstat = 1 ∧ u.f R.TRC_HSTAT F.TRC_HSTAT_held = 0 ∧
        n ∉ (u.cluster k).held ∧ u.f (R.SCHED_THR_B k n) F.SCHED_THR_B_state = 2 ∧ u.mem = s.mem ∧
        ∀ a, a ≠ R.TRC_HSTAT → a ≠ R.SCHED_THR_B k n → u.reg a = s.reg a)))
end Sys2Proof.Claims

/-- The monitors: SERVICE_MODE, RECOVERY_MODE, TEST_MODE, SNAPSHOT, FREEZE, UNFREEZE, FREEZE_AND_SNAPSHOT, SNAPSHOT_TICK, PMU_READOUT, PMU_READOUT_COMPLETE, SAMPLING_FIRE, SAMPLE_RECORD_STORED, BANDWIDTH_WINDOW_END, BWMAX_CLEAR and SETTING_PROPAGATE have their effect (R548 to R558). -/
def Obligations.Monitors : Prop := Claims.Counting

/-- The trace and its Ledger: TRACE_ENCODER_ENABLE, TRACE_TRIGGER, CHUNK_CLOSE_TIMEOUT, CHUNK_ADMISSION, MEMORY_SINK_WRITE, SINK_ERROR, LEDGER_ENABLE, LEDGER_DISABLE, LEDGER_FLUSH_END, TRC_LOST_CLEAR, HALT and RELEASE have their effect (R524 to R536). -/
def Obligations.TraceLedger : Prop := Claims.Tracing

namespace Sys2Proof.Claims
/-- A whole register, as a field. -/
abbrev whole : Fld := ⟨0, 64⟩

/-- The security block's own data become `f` of what they were. -/
def onSec (t : State) (f : Sec → Sec) : State := { t with sec := f t.sec }

/-- A 64-bit register of eight bytes of a list. -/
def eight (l : List Byte) (k : Nat) : Word := BitVec.ofNat 64 (bytesNat (sub l (8 * k) 8))

/-- Each operation of the key store (R450 to R454): done with result 0 and its effect, or refused with result 2 and none. -/
def KeyStore : Prop :=
  ∀ (s : State) (ag : Agent) (v : Word), Written s .seccw R.SEC_CW_KSCMD ag →
    let t := acked s ag R.SEC_CW_KSCMD
    let slot := fld v 4 4
    let who := fld v 8 6
    let ok := fun (f : Sec → Sec) (u : State) => Sets (onSec t f) u [(R.SEC_CW_KSSTAT, whole, 1)]
    let refused := fun (u : State) => Sets t u [(R.SEC_CW_KSSTAT, whole, 9)]
    let put := fun (key : Nat) (x : Sec) => { x with slots := mset x.slots slot { mget {} x.slots slot with key := key % 2 ^ (if bit v 15 then 256 else 128) } }
    let derived := bytesNat (kdf (dusBytes s ++ ksBytes s 0 4 ++ if bit v 14 then beBytes 32 s.sec.measHash else []))
    let body := reportBody t ++ sm2Sign (aliasPriv t) (sigNonce t) (beBytes 64 s.sec.aliasPub) (reportBody t)
    let dst := s.f R.SEC_CW_KSDST F.SEC_CW_KSDST_pa * 64
    (s.sec.life = 1 → Leads (.deriveIntoSlot ag v) s (ok (put derived))) ∧
    (s.sec.life ≠ 1 → Leads (.deriveIntoSlot ag v) s refused ∧ Leads (.attest ag) s refused) ∧
    Leads (.loadKeyIntoSlot ag v) s (fun u => Sets (onSec t (put (ksNat s 0 4))) u
      ((R.SEC_CW_KSSTAT, whole, 1) :: (List.range 16).map (fun k => (R.SEC_CW_KSDATA k, whole, 0)))) ∧
    (who ≤ 43 → Leads (.releaseSlot ag v) s (ok (fun x => { x with slots := mset x.slots slot { mget {} x.slots slot with consumer := some who } }))) ∧
    (43 < who → Leads (.releaseSlot ag v) s refused) ∧
    Leads (.revokeSlot ag v) s (fun u => ∃ l, ok (fun x => { x with slots := l }) u ∧ mget {} l slot = {} ∧ ∀ k, k ≠ slot → mget {} l k = mget {} s.sec.slots k) ∧
    (s.sec.life = 1 → inSram dst = true → inSram (dst + body.length) = true →
      Leads (.attest ag) s (fun u => u.reg R.SEC_CW_KSSTAT = 1 ∧ (∀ a, a ≠ R.SEC_CW_KSSTAT → u.reg a = s.reg a) ∧ u.sec = s.sec ∧ u.draws = s.draws + 4 ∧
        (∀ i, i < body.length → memGet u.mem (dst + i) = body.getD i 0) ∧
        ∀ a, a < dst ∨ dst + body.length ≤ a → memGet u.mem a = memGet s.mem a)) ∧
    (rootHash s slot = 0 → slot ≤ 3 → Leads (.programRoot ag v) s (ok (fun x => { x with roots := mset x.roots slot (beNat (ksBytes s 0 4)) }))) ∧
    (rootHash s slot ≠ 0 ∨ 3 < slot → Leads (.programRoot ag v) s refused) ∧
    ((∃ i, i < 4 ∧ i ≠ slot ∧ rootLive s i = true) → slot ≤ 3 →
      Leads (.revokeRoot ag v) s (ok (fun x => { x with revoked := x.revoked ||| 2 ^ slot }))) ∧
    ((∀ i, i < 4 → i ≠ slot → rootLive s i = false) → Leads (.revokeRoot ag v) s refused) ∧
    (s.sec.life = 0 → s.f R.SEC_STAT F.SEC_STAT_trng_fail = 0 → Leads (.generateDus ag) s (fun u =>
      Sets { onSec t (fun x => { x with dus := some (s.sec.dus.getD 0 ||| trng256 s), certGrants := 0 }) with draws := s.draws + 4 } u
        [(R.SEC_CW_KSSTAT, whole, 1)])) ∧
    (s.sec.life ≠ 0 ∨ s.f R.SEC_STAT F.SEC_STAT_trng_fail = 1 → Leads (.generateDus ag) s refused) ∧
    (s.sec.life = 0 → s.sec.dus ≠ none → (∃ k, k < 4 ∧ rootHash s k ≠ 0) → Leads (.sealKey ag) s (ok (fun x => { x with life := 1 }))) ∧
    (s.sec.life ≠ 0 ∨ s.sec.dus = none → Leads (.sealKey ag) s refused) ∧
    (let n := ksNat s 0 1
     (s.sec.rollback ≤ n → n ≤ 64 → Leads (.advanceRollback ag) s (ok (fun x => { x with rollback := n }))) ∧
     (n < s.sec.rollback ∨ 64 < n → Leads (.advanceRollback ag) s refused)) ∧
    (s.sec.dbgkey = none →
      Leads (.programDebugKey ag) s (ok (fun x => { x with dbgkey := some (beNat (ksBytes s 0 4)), dbgpol := ksNat s 4 1 % 256 }))) ∧
    (s.sec.dbgkey ≠ none → Leads (.programDebugKey ag) s refused) ∧
    Leads (.decommission ag) s (ok (fun x => { x with life := 2 }))

/-- Measurement, bootlock, carve-outs and the map they enter, the watchdog and the restart of the Closed world (R436, R437, R449, R458,
R459, R581). -/
def ClosedWorld : Prop :=
  ∀ (s : State) (ag : Agent),
    (∀ i, i < 16 → Written s .seccw R.SEC_CW_MREXT ag →
      let t := acked s ag R.SEC_CW_MREXT
      let h := sm3 (measBytes s i ++ ksBytes s 0 4)
      let locked := s.f R.SEC_CW_CTL F.SEC_CW_CTL_bootlock = 1
      ((i < 8 ∧ locked) ∨ i = 15 → Leads (.measurementExtend ag i) s (fun u => Sets t u [(R.SEC_CW_MRSTAT, whole, 5)])) ∧
      (¬((i < 8 ∧ locked) ∨ i = 15) → Leads (.measurementExtend ag i) s (fun u => Sets t u
        ((R.SEC_CW_MRSTAT, whole, 1) :: (List.range 4).map (fun k => (R.SEC_MEAS i k, whole, (eight h k).toNat)))))) ∧
    (Written s .seccw R.SEC_CW_CTL ag →
      let t := acked s ag R.SEC_CW_CTL
      (s.f R.SEC_CW_CTL F.SEC_CW_CTL_bootlock = 0 → Leads (.bootlockSet ag) s (fun u =>
        u.f R.SEC_CW_CTL F.SEC_CW_CTL_bootlock = 1 ∧ u.sec.measHash = beNat (sm3 ((List.range 8).flatMap (measBytes s))) ∧ u.mem = s.mem ∧
        (s.f (R.SEC_CW_CO 0) F.SEC_CW_CO_v = 1 →
          u.map.golden = some (s.f (R.SEC_CW_CO 0) F.SEC_CW_CO_base * 2 ^ 24, s.f (R.SEC_CW_CO 0) F.SEC_CW_CO_size * 2 ^ 21)) ∧
        (s.sec.life = 1 → u.sec.idPub = beNat (sm2Pub (idPriv s))) ∧
        (s.sec.life ≠ 1 → ∀ a, a ≠ R.SEC_CW_CTL → u.reg a = s.reg a))) ∧
      Leads (.trngRestart ag true) s (fun u => Sets t u [(R.SEC_STAT, F.SEC_STAT_trng_fail, 0)]) ∧
      (s.f R.SEC_STAT F.SEC_STAT_cw_state = 1 → Leads (.cwRestartRequest ag) s (fun u => Sets t u [(R.SEC_STAT, F.SEC_STAT_cw_state, 2)])) ∧
      Leads (.dbgRevoke ag) s (fun u => u = onSec t (fun x => { x with certGrants := 0 }))) ∧
    (Written s .seccw R.SEC_CW_COCTL ag → s.f R.SEC_CW_COCTL F.SEC_CW_COCTL_lock = 0 → s.sec.lockReq = false →
      (carveOk s (carveOuts s) = true → Leads (.carveOutLock ag) s (fun u => u.map = { s.map with carve := carveOuts s } ∧ u.mem = s.mem ∧
        (u.sec.lockReq = true ∨ u.f R.SEC_CW_COCTL F.SEC_CW_COCTL_lock = 1) ∧ ∀ a, a ≠ R.SEC_CW_COCTL → u.reg a = s.reg a)) ∧
      (carveOk s (carveOuts s) = false →
        Leads (.carveOutLock ag) s (fun u => Sets (acked s ag R.SEC_CW_COCTL) u [(R.SEC_CW_COCTL, F.SEC_CW_COCTL_err, 1)]))) ∧
    (∀ n, n < 160 → s.sec.lockReq = false → Leads (.decodeMapChange n) s (fun u => u.regs = s.regs ∧ u.mem = s.mem ∧ u.map = s.map ∧
      (n < 128 → u.core n = { s.core n with itlb := [], dtlb := [], l2tlb := [], wc1 := [], wcr := [], wc2 := [], walkI := (u.core n).walkI,
                                            walkD := (u.core n).walkD, map := s.map } ∧ ∀ c, c ≠ n → u.core c = s.core c) ∧
      (128 ≤ n → n < 158 → u.router (n - 128) = { s.router (n - 128) with map := s.map } ∧ u.cores = s.cores) ∧
      (158 ≤ n → u.pcie (n - 158) = { s.pcie (n - 158) with cache := [], map := s.map } ∧ u.cores = s.cores))) ∧
    (∀ v : Word, Written s .seccw R.SEC_CW_WDT ag →
      let t := acked s ag R.SEC_CW_WDT
      let a := R.SEC_CW_WDT
      let p := fld v 0 24
      (s.f a F.SEC_CW_WDT_arm = 0 → p ≠ 0 → Leads (.cwWatchdogArm ag v) s (fun u =>
        Sets (onSec t (fun x => { x with wdtEnd := some (s.ref + p * 256) })) u [(a, F.SEC_CW_WDT_period, p), (a, F.SEC_CW_WDT_arm, 1)])) ∧
      (s.f a F.SEC_CW_WDT_arm = 1 → Leads (.cwWatchdogKick ag v) s (fun u =>
        u = onSec t (fun x => { x with wdtEnd := some (s.ref + s.f a F.SEC_CW_WDT_period * 256) })))) ∧
    (∀ e, s.sec.wdtEnd = some e → e ≤ s.ref → s.f R.SEC_STAT F.SEC_STAT_cw_state = 1 →
      Leads .cwWatchdogExpiry s (fun u => Sets (onSec s (fun x => { x with wdtEnd := none })) u [(R.SEC_STAT, F.SEC_STAT_cw_state, 2)])) ∧
    (Written s .sec R.SEC_CTL ag → s.f R.SEC_STAT F.SEC_STAT_cw_state = 1 →
      Leads (.cwRestart ag) s (fun u => Sets (acked s ag R.SEC_CTL) u [(R.SEC_STAT, F.SEC_STAT_cw_state, 2)])) ∧
    (let n := s.f R.SEC_CW_GLEN F.SEC_CW_GLEN_len
     let base := s.f (R.SEC_CW_CO 0) F.SEC_CW_CO_base * 2 ^ 24
     s.f R.SEC_STAT F.SEC_STAT_cw_state = 2 → closedBanks s = [] → (∀ q, ∀ x ∈ (s.cluster q).l2, x.way < 14) → (∀ k, ∀ x ∈ (s.slice k).lines, x.way < 14) →
     s.f R.SEC_CW_COCTL F.SEC_CW_COCTL_lock = 1 → base + n ≤ 2 ^ 41 → s.f R.SEC_CW_GDST F.SEC_CW_GDST_pa * 64 + n ≤ 2 ^ 41 →
     Leads .closedWorldRestart s (fun u => (∀ a, inSram a = true → memGet u.mem a = 0) ∧ u.sec.wdtEnd = none ∧ u.reg R.SEC_CW_WDT = regReset R.SEC_CW_WDT ∧
       (sm3 (physBytes s base n) = regBytes s R.SEC_CW_GOLD 4 → u.f R.SEC_STAT F.SEC_STAT_cw_state = 1 ∧ u.f R.SEC_CW_STAT F.SEC_CW_STAT_fresh = 1 ∧
         u.f R.SEC_RSTCNT F.SEC_RSTCNT_count = (s.f R.SEC_RSTCNT F.SEC_RSTCNT_count + 1) % 2 ^ 32) ∧
       (sm3 (physBytes s base n) ≠ regBytes s R.SEC_CW_GOLD 4 → u.f R.SEC_STAT F.SEC_STAT_cw_state = 3)))

/-- Crypto jobs, the TRNG and debug certificates (R455 to R457, R463 to R465). -/
def JobsAndDebug : Prop :=
  ∀ (s : State) (ag : Agent),
    (∀ (j : Nat) (v : Word), j < 4 → Written s .sec (R.SEC_JOB_CMD j) ag →
      let t := acked s ag (R.SEC_JOB_CMD j)
      ∀ q ∈ [(Instr.sm3Job ag j v, 1), (Instr.sm4GcmEncrypt ag j v, 2), (Instr.sm4GcmDecrypt ag j v, 3), (Instr.aesGcmEncrypt ag j v, 4),
          (Instr.aesGcmDecrypt ag j v, 5), (Instr.sm2Verify ag j v, 6), (Instr.trngJob ag j v, 7)],
        (bit v 4 = false → Leads q.1 s (fun u => ∃ x l, Sets (onSec t (fun y => { y with jobs := mset y.jobs j x, jobKey := l })) u
            [(R.SEC_JOB_STAT j, whole, 0)] ∧
          x.op = q.2 ∧ x.src = s.f (R.SEC_JOB_SRC j) F.SEC_JOB_SRC_pa ∧ x.dst = s.f (R.SEC_JOB_DST j) F.SEC_JOB_DST_pa ∧
          x.len = s.f (R.SEC_JOB_LEN j) F.SEC_JOB_LEN_len ∧ x.key = jobKeyRegs s j (if bit v 5 then 8 else 4) 0 ∧ x.iv = jobKeyRegs s j 4 8 ∧
          ∀ i, i < 12 → mget 0 l (12 * j + i) = 0)) ∧
        (bit v 4 = true → 2 ≤ q.2 → q.2 ≤ 5 → (∀ p ∈ s.sec.slots, p.2.consumer ≠ some (40 + j)) →
          Leads q.1 s (fun u => u.reg (R.SEC_JOB_STAT j) = 35 ∧ u.sec.jobs.find? (fun p => decide (p.1 = j)) = none ∧
            ∀ a, a ≠ R.SEC_JOB_STAT j → u.reg a = s.reg a))) ∧
    (∀ (j : Nat) (x : Job), j < 4 → domOn s 216 = true → s.sec.jobs.find? (fun p => decide (p.1 = j)) = some (j, x) →
      let gone := onSec s (fun y => { y with jobs := mdel y.jobs j })
      let result := fun (l : List Byte) => (R.SEC_JOB_STAT j, whole, 1) :: (List.range 4).map (fun k => (R.SEC_JOB_RES j k, whole, (eight l k).toNat))
      (x.op = 1 → jobReadBad s x = false → Leads (.jobComplete j) s (fun u => Sets gone u (result (sm3 (physBytes s x.src x.len))))) ∧
      (1 ≤ x.op → x.op < 7 → jobReadBad s x = true → Leads (.jobComplete j) s (fun u => Sets gone u [(R.SEC_JOB_STAT j, whole, 19)])) ∧
      (x.op = 7 → s.f R.SEC_STAT F.SEC_STAT_trng_fail = 0 →
        Leads (.jobComplete j) s (fun u => Sets { gone with draws := s.draws + 4 } u (result (wordBytes 32 (trng256 s))))) ∧
      (x.op = 7 → s.f R.SEC_STAT F.SEC_STAT_trng_fail = 1 → Leads (.jobComplete j) s (fun u => Sets gone u [(R.SEC_JOB_STAT j, whole, 67)]))) ∧
    Leads .trngHealthFailure s (fun u => Sets s u [(R.SEC_STAT, F.SEC_STAT_trng_fail, 1)]) ∧
    (s.f R.SEC_STAT F.SEC_STAT_trng_fail = 0 → Leads .debugChallengeRead s (fun u =>
      Sets { onSec s (fun x => { x with chalFresh := true }) with draws := s.draws + 4 } u
        ((List.range 4).map (fun k => (R.SEC_DBG_CHAL k, whole, trng256 s / 2 ^ (32 * k) % 2 ^ 32))))) ∧
    (Written s .sec R.SEC_DBG_CMD ag →
      let c := certBytes s
      Leads (.debugCertificateCheck ag) s (fun u => ∃ g, Sets (onSec (acked s ag R.SEC_DBG_CMD) (fun x => { x with chalFresh := false, certGrants := g })) u
          [(R.SEC_DBG_STAT, F.SEC_DBG_STAT_rstat, if certGood s c then 1 else 3)] ∧
        (certGood s c = false → g = s.sec.certGrants) ∧
        (certGood s c = true → ∀ i, i < 4 →
          g.testBit i = (s.sec.certGrants.testBit i || ((bytesNat (sub c 4 4)).testBit i && decide (s.sec.dbgpol / 4 ^ i % 4 = 0)))))) ∧
    (Written s .sec R.SEC_DBG_CTL ag → Leads (.debugRevoke ag) s (fun u => u = onSec (acked s ag R.SEC_DBG_CTL) (fun x => { x with certGrants := 0 })))
end Sys2Proof.Claims

/-- The key store and the worlds: DERIVE_INTO_SLOT, LOAD_KEY_INTO_SLOT, RELEASE_SLOT, REVOKE_SLOT, ATTEST, PROGRAM_ROOT, REVOKE_ROOT, GENERATE_DUS, SEAL, ADVANCE_ROLLBACK, PROGRAM_DEBUG_KEY and DECOMMISSION; MEASUREMENT_EXTEND, BOOTLOCK_SET, CARVE_OUT_LOCK, DECODE_MAP_CHANGE, CW_WATCHDOG_ARM, CW_WATCHDOG_KICK, CW_WATCHDOG_EXPIRY, CW_RESTART_REQUEST, CW_RESTART, CLOSED_WORLD_RESTART, TRNG_RESTART and DBG_REVOKE have their effect, or are refused, as the rules say (R436, R437, R449, R453, R454, R456, R458, R459, R465, R581). The byte orders of keys and the numbers in KSDATA are the model's (log 46). -/
def Obligations.KeysAndWorlds : Prop := Claims.KeyStore ∧ Claims.ClosedWorld

/-- The crypto engines and debug grants: SM3_JOB, SM4_GCM_ENCRYPT, SM4_GCM_DECRYPT, AES_GCM_ENCRYPT, AES_GCM_DECRYPT, SM2_VERIFY, TRNG_JOB, JOB_COMPLETE, TRNG_HEALTH_FAILURE, DEBUG_CHALLENGE_READ, DEBUG_CERTIFICATE_CHECK and DEBUG_REVOKE have their effect (R455 to R457, R463 to R465). The values of the TRNG are free; where a job finds its parts is the model's (log 44). -/
def Obligations.CryptoJobsAndGrants : Prop := Claims.JobsAndDebug

namespace Sys2Proof.Claims
/-- The packets `ps` are launched one after the other by their sources. -/
def launches (s : State) (ps : List Pkt) : SMap Router := (ps.foldl State.inject s).routers

/-- Packet `p` is taken from the inbox. -/
def taken (s : State) (p : Pkt) : List Pkt := dropFirst (fun q => decide (q = p)) s.inbox

/-- A slice has served packet `p` with one answer: of `w`, only the slice's own data differ, the packet is taken and the answer launched. -/
structure Served (s w u : State) (k : Nat) (p ans : Pkt) : Prop where
  rest : u = { w with slices := u.slices, routers := launches s [ans], inbox := taken s p }
  others : ∀ j, j ≠ k → u.slice j = s.slice j
  queue : (u.slice k).queue = [] ∧ (u.slice k).txns = (s.slice k).txns

/-- The answer to a request: from the unit that serves it to its sender, under its tag, in its class and for its tenant (R279, R282). -/
def answerTo (p : Pkt) (net typ : Nat) (src : Nat) : Pkt :=
  { net := net, typ := typ, src := src, dst := p.src, pa := p.pa, clsA := p.clsA, tag := p.tag, closed := p.closed, tenant := p.tenant }

/-- A line comes to a cluster with its data (R248, R278). -/
def fillOf (p : Pkt) (src : Nat) (d : Line) (poison excl : Bool) : Pkt :=
  { answerTo p 3 0 src with size := 6, data := d, poison := poison, excl := excl, fromDram := p.fromDram }

/-- Bytes of a line come to a reader (R279, R587). -/
def bytesOf (p : Pkt) (src : Nat) (v : Nat) : Pkt :=
  { answerTo p 1 3 src with size := p.size, more := decide (p.size = 3), data := BitVec.ofNat 512 v }

/-- A slice in which nothing waits. -/
structure NoneWaits (s : State) (k : Nat) : Prop where
  unit : k < 16 ∧ unitRuns s (sliceDom k) (144 + k) = true
  queue : (s.slice k).queue = []
  evicts : ∀ t ∈ (s.slice k).txns, t.evict = false

/-- A slice that is idle for a request: nothing waits there, no earlier request of the same source, and the line has no transaction. -/
structure Idle (s : State) (k : Nat) (p : Pkt) : Prop extends NoneWaits s k where
  first : earlierWaits s p = false
  txn : txnOf s k (p.pa / 64) = none

/-- The line has no directory entry, and its set has room for one. -/
def unlisted (s : State) (k line : Nat) : Prop :=
  (∀ d ∈ (s.slice k).dir, d.line ≠ line) ∧ ((s.slice k).dir.filter (fun d => decide (d.line % 8192 = line % 8192))).length < 16

/-- The line's directory entry names one cluster. -/
def heldBy1 (s : State) (k line c : Nat) (owner : Bool) : Prop :=
  (s.slice k).dir.find? (fun d => decide (d.line = line)) = some { line := line, holders := [c], owner := if owner then some c else none }

/-- The directory without a line's entry. -/
def dirWithout (s : State) (k line : Nat) : List DirLine := (s.slice k).dir.filter (fun d => decide (d.line ≠ line))

/-- What a slice does with each kind of request for a line whose data it holds, or for which it needs none (R245, R248, R250, R254, R255, R264). -/
def SliceRequests : Prop :=
  ∀ (s : State) (k c : Nat) (p : Pkt) (x : CLine), p.net = 0 →
    let line := p.pa / 64
    let src := sliceUnit k
    Idle s k p → sliceLine s k line = some x →
    let out := s.clearResvOut line (fun i => decide (clusterOf i = c))
    let outW := s.clearResvOut line (wrote s p)
    (fromCluster p = some c → unlisted s k line →
      (p.typ = 0 → p.fromDram = false → Leads (.readShared k p) s (fun u => Served s s u k p (fillOf p src x.data x.poison true) ∧
        (u.slice k).dir = { line := line, holders := [c], owner := some c } :: (s.slice k).dir ∧ (u.slice k).lines = touchLine (s.slice k).lines line)) ∧
      (p.typ = 1 → p.fromDram = false → Leads (.readUnique k p) s (fun u => Served s out u k p (fillOf p src x.data x.poison true) ∧
        (u.slice k).dir = { line := line, holders := [c], owner := some c } :: (s.slice k).dir ∧ (u.slice k).lines = touchLine (s.slice k).lines line)) ∧
      (p.typ = 3 → p.mask = 0 → Leads (.cleanRequest k p) s (fun u => Served s s u k p (answerTo p 1 0 src) ∧
        (u.slice k).dir = (s.slice k).dir ∧ (u.slice k).lines = (s.slice k).lines)) ∧
      (p.typ = 4 → Leads (.invalidateRequest k p) s (fun u => Served s { s with poison := s.poison.filter (fun l => decide (l ≠ line)) } u k p (answerTo p 1 0 src) ∧
        (u.slice k).dir = (s.slice k).dir ∧ (u.slice k).lines = dropLine (s.slice k).lines line))) ∧
    (fromCluster p = some c → heldBy1 s k line c false → p.typ = 2 → Leads (.upgrade k p) s (fun u => Served s out u k p (answerTo p 1 1 src) ∧
      (u.slice k).dir = { line := line, holders := [c], owner := some c } :: dirWithout s k line ∧ (u.slice k).lines = (s.slice k).lines)) ∧
    (fromCluster p = some c → heldBy1 s k line c true → p.mask ≠ 0 → ∀ q ∈ [(Instr.evict k p, 5), (Instr.victimOffer k p, 6)], p.typ = q.2 →
      Leads q.1 s (fun u => Served s s u k p (answerTo p 1 0 src) ∧ (u.slice k).dir = dirWithout s k line ∧
        (u.slice k).lines = putCLine (s.slice k).lines { x with data := p.data, dirty := true, poison := p.poison })) ∧
    (unlisted s k line → p.size ≤ 3 → x.poison = false → ∀ q ∈ [(Instr.nonCacheableRead k p, 7), (Instr.deviceRead k p, 0xA)], p.typ = q.2 →
      Leads q.1 s (fun u => Served s s u k p (bytesOf p src (lineField x.data (p.pa % 64) (2 ^ p.size))) ∧
        (u.slice k).dir = (s.slice k).dir ∧ (u.slice k).lines = touchLine (s.slice k).lines line)) ∧
    (unlisted s k line → ∀ q ∈ [(Instr.nonCacheableWrite k p, 8), (Instr.fullLineWrite k p, 9), (Instr.deviceWrite k p, 0xB)], p.typ = q.2 →
      let whole := p.typ = 9 ∨ p.mask = BitVec.allOnes 64
      Leads q.1 s (fun u => Served s outW u k p (answerTo p 1 0 src) ∧ (u.slice k).dir = (s.slice k).dir ∧
        (∃ y, findLine (u.slice k).lines line = some y ∧ y.dirty = true ∧ (y.poison = if whole then p.poison else x.poison || p.poison) ∧
          ∀ i, i < 64 → y.data.extractLsb' (8 * i) 8 = if whole ∨ p.mask.getLsbD i then p.data.extractLsb' (8 * i) 8 else x.data.extractLsb' (8 * i) 8) ∧
        ∀ l, l ≠ line → findLine (u.slice k).lines l = findLine (s.slice k).lines l))

/-- The DRAM controller's data end a read at its slice, and a read that is unanswered for rto is closed with an error (R249, R291). -/
def SliceAnswers : Prop :=
  ∀ (s : State) (k line : Nat) (t : SliceTxn), NoneWaits s k → txnOf s k line = some t →
    t.rd = true → t.wr = false → t.await = [] → t.replied = false → t.req.typ = 7 → t.req.size ≤ 3 →
    (∀ p, fromCluster p = none → p.net = 3 → p.poison = false → p.pa / 64 = line → Leads (.snoopAnswer k p) s (fun u =>
      u = { s.take p with slices := u.slices, routers := launches s [bytesOf t.req (sliceUnit k) (lineField p.data (t.req.pa % 64) (2 ^ t.req.size))] } ∧
      txnOf u k line = none ∧ (∀ l, l ≠ line → txnOf u k l = txnOf s k l) ∧ (u.slice k).lines = (s.slice k).lines ∧ (u.slice k).dir = (s.slice k).dir)) ∧
    (t.late ≤ s.ref → Leads (.transactionTimeout (sliceUnit k) line) s (fun u =>
      u = { s.loseTag (sliceUnit k) t.tag with slices := u.slices, routers := launches s [answerTo t.req 1 0xA (sliceUnit k)] } ∧
      txnOf u k line = none ∧ (∀ l, l ≠ line → txnOf u k l = txnOf s k l) ∧ (u.slice k).lines = (s.slice k).lines ∧ (u.slice k).dir = (s.slice k).dir))

/-- A DRAM channel that runs. -/
def onChan (s : State) (m : Nat) : Prop := m < 8 ∧ unitRuns s (dramDom m) (190 + m) = true

/-- Requests in a DRAM channel: accepted, admitted, read, written in batches, refreshed (R309 to R316). -/
def ChannelTraffic : Prop :=
  ∀ (s : State) (m : Nat), onChan s m → s.f (R.DMC_INIT m) F.DMC_INIT_done = 1 →
    let x := s.chan m
    let only := fun (u : State) => u.regs = s.regs ∧ u.mem = s.mem ∧ (∀ j, j ≠ m → u.chan j = s.chan j)
    (∀ p : Pkt, p.net = 0 → s.f (R.DMC_REG m (regGroup s m p)) F.DMC_REG_en = 0 →
      (p.typ = 0xC → p.clsA = false → x.dq.length < 32 → Leads (.dramRead m p) s (fun u => only u ∧ u.chan m = { x with dq := x.dq ++ [p] } ∧ u.inbox = taken s p)) ∧
      (p.typ = 0xC → p.clsA = true → x.aq.length < 32 → Leads (.dramRead m p) s (fun u => only u ∧ u.chan m = { x with aq := x.aq ++ [p] } ∧ u.inbox = taken s p)) ∧
      (p.typ = 0xD → p.poison = false → x.wq.length < 32 → Leads (.dramWrite m p) s (fun u => u.regs = s.regs ∧ u.inbox = taken s p ∧
        u.routers = launches s [answerTo p 1 0 (dramUnit m)] ∧ u.chan m = { x with wq := x.wq.filter (fun q => decide (q.pa / 64 ≠ p.pa / 64)) ++ [p] } ∧
        u.memLine (p.pa / 64) = p.data ∧ p.pa / 64 ∉ u.poison ∧ ∀ a, a / 64 ≠ p.pa / 64 → memGet u.mem a = memGet s.mem a))) ∧
    (∀ (p : Pkt) (g : Nat), x.held = [(g, p)] → s.f (R.DMC_REG m g) F.DMC_REG_en = 1 → 64 ≤ mget 0 x.tokens g → p.typ = 0xC → p.clsA = true →
      x.aq.length < 32 → Leads (.regulatorAdmit m g) s (fun u => only u ∧
        u.chan m = { x with held := [], tokens := mset x.tokens g (mget 0 x.tokens g - 64), aq := x.aq ++ [p] })) ∧
    (∀ (p : Pkt) (l : List Pkt), x.dq = p :: l → p ∉ x.aq → (∀ q ∈ x.wq, q.pa / 64 ≠ p.pa / 64) → x.deferred = [] →
      Leads (.dramReadComplete m p 0 0) s (fun u => only u ∧ (u.chan m).dq = l ∧ (u.chan m).aq = x.aq ∧ (u.chan m).wq = x.wq ∧
        u.routers = launches s [{ answerTo p 3 0 (dramUnit m) with size := 6, data := s.memLine (p.pa / 64), poison := decide (p.pa / 64 ∈ s.poison) }])) ∧
    (x.wq ≠ [] → x.dq = [] → x.aq = [] → Leads (.writeBatchStart m) s (fun u => only u ∧
      (u.chan m).wq = x.wq.drop (max 1 (s.f (R.DMC_CTL m) F.DMC_CTL_wbatch)) ∧ (u.chan m).dq = [] ∧ (u.chan m).aq = [])) ∧
    (∀ r, r < x.ranks → x.dq = [] →
      let b := mget 0 x.refBank r
      Leads (.refreshDue m r) s (fun u => only u ∧ u.chan m = { x with refBank := mset x.refBank r ((b + 1) % 16), rows := mdel x.rows (r * 16 + b) })) ∧
    (∀ rate errs, x.lecc = false → Leads (.mr4Poll m rate errs) s (fun u => Sets s u [(R.DMC_TIM2 m, F.DMC_TIM2_mult, min 2 rate)]))

/-- The region table, initialisation and the error counts of the channels (R307, R317, R318). -/
def ChannelSetup : Prop :=
  ∀ (s : State) (ag : Agent) (m : Nat), onChan s m →
    let a := R.DMC_INIT m
    let c := R.DMC_REGCTL 0
    (Written s .dmc c ag → s.f c F.DMC_REGCTL_commit = 0 →
      let t := acked s ag c
      let l := regionsFrom s 8 0
      (tableOk s = true → Leads (.regionCommit ag) s (fun u => ∃ n, Sets { t with map := { s.map with regions := l, populated := n } } u
        [(c, F.DMC_REGCTL_commit, 1)] ∧ n = (l.map (fun r => r.2.1)).sum)) ∧
      (tableOk s = false → Leads (.regionCommit ag) s (fun u => Sets t u [(c, F.DMC_REGCTL_err, 1)]))) ∧
    (s.f c F.DMC_REGCTL_commit = 1 → mapEverywhere s = true → Leads .regionTableDone s (fun u => Sets s u [(c, F.DMC_REGCTL_done, 1)])) ∧
    (Written s .dmc a ag → s.f a F.DMC_INIT_done = 0 → s.f a F.DMC_INIT_err = 0 → (s.chan m).initing = false →
      let t := acked s ag a
      (initCheck s m = true → Leads (.dramInitStart ag m) s (fun u => Sets { t with chans := u.chans } u [(a, F.DMC_INIT_step, 1)] ∧ (u.chan m).initing = true ∧
        (u.chan m).ranks = s.f (R.DMC_CFG m) F.DMC_CFG_ranks + 1 ∧ (u.chan m).rowBits = s.f (R.DMC_CFG m) F.DMC_CFG_row_bits ∧
        ∀ j, j ≠ m → u.chan j = s.chan j)) ∧
      (initCheck s m = false → Leads (.dramInitStart ag m) s (fun u =>
        Sets { t with chans := u.chans, reports := s.reports ++ [⟨chanHalf m, 0x11, 190 + m⟩] } u [(a, F.DMC_INIT_err, 1), (a, F.DMC_INIT_step, 1)]))) ∧
    ((s.chan m).initing = true → ∀ fail mr4,
      (fail = 0 → Leads (.dramInitEnd m fail mr4) s (fun u => Sets { s with chans := u.chans, mem := u.mem, poison := u.poison } u
          [(a, F.DMC_INIT_done, 1), (a, F.DMC_INIT_step, 10), (R.DMC_TIM2 m, F.DMC_TIM2_mult, min 2 mr4)] ∧ (u.chan m).initing = false ∧
        ∀ b, let here := 64 * (b / 64) < s.map.populated ∧ channelOf s.map (b / 64) = m
          (here → memGet u.mem b = memInit) ∧ (¬here → memGet u.mem b = memGet s.mem b) ∧ (b ∈ u.poison ↔ b ∈ s.poison ∧ ¬(64 * b < s.map.populated ∧ channelOf s.map b = m)))) ∧
      (2 ≤ fail → fail ≤ 10 → Leads (.dramInitEnd m fail mr4) s (fun u =>
        Sets { s with chans := u.chans, reports := s.reports ++ [⟨chanHalf m, 0x11, 190 + m⟩] } u [(a, F.DMC_INIT_err, 1), (a, F.DMC_INIT_step, fail)] ∧
          (u.chan m).initing = false))) ∧
    (Written s .dmc (R.DMC_ERR m) ag → Leads (.dmcErrClear ag m) s (fun u => Sets (acked s ag (R.DMC_ERR m)) u
      [(R.DMC_ERR m, F.DMC_ERR_icorr, 0), (R.DMC_ERR m, F.DMC_ERR_iuncorr, 0), (R.DMC_ERR m, F.DMC_ERR_lcorr, 0), (R.DMC_ERR m, F.DMC_ERR_luncorr, 0)]))
end Sys2Proof.Claims

/-- The home slices: READ_SHARED, READ_UNIQUE, UPGRADE, CLEAN_REQUEST, INVALIDATE_REQUEST, EVICT, VICTIM_OFFER, NON_CACHEABLE_READ,
NON_CACHEABLE_WRITE, FULL_LINE_WRITE, DEVICE_READ, DEVICE_WRITE, SNOOP_ANSWER and TRANSACTION_TIMEOUT: what each leaves in the directory and the
slice's data, and the answer it has launched (R245 to R250, R254, R255, R264, R279, R282, R291). -/
def Obligations.HomeSlices : Prop := SliceRequests ∧ SliceAnswers

/-- The DRAM channels: DRAM_READ, DRAM_WRITE, REGULATOR_ADMIT, DRAM_READ_COMPLETE, WRITE_BATCH_START, REFRESH_DUE, MR4_POLL, REGION_COMMIT,
REGION_TABLE_DONE, DRAM_INIT_START, DRAM_INIT_END and DMC_ERR_CLEAR (R303 to R318). -/
def Obligations.DramChannels : Prop := ChannelTraffic ∧ ChannelSetup

namespace Sys2Proof.Claims
/-- A core with nothing to ask for: no store and no maintenance waits, no load waits for a miss register, no STCOND for its line, no PREF. -/
def calm (k : Core) : Prop := k.wb = [] ∧ (∀ bi, ∀ l ∈ (k.bank bi).loads, l.want = []) ∧ (∀ bi, (k.bank bi).stc = none) ∧ k.pfl = [] ∧ k.prefs = []

/-- The snoops of chapter 8, by their type: the answer's packets, tagged with the line's place in a set of the L1s, a forwarded line with the requester's
tag, and what stays of the line in the L2 (R250, R261 to R263, R277). That an owner answers a Clean snoop with the data of an unmodified line, and that a
mask marks modified data, is the model's choice (log 22). -/
def snoopAnswers (q : Nat) (p : Pkt) (x : CLine) : List Pkt × Option CLine :=
  let t : Pkt := { p with tag := p.pa / 64 % 256 }
  let data : Pkt := { answerTo t 3 3 (clusterUnit q) with size := 6, data := x.data, poison := x.poison, mask := if x.dirty then BitVec.allOnes 64 else 0 }
  let none_ : Pkt := answerTo t 1 8 (clusterUnit q)
  let forward : Pkt := { answerTo p 3 2 (clusterUnit q) with dst := p.data.toNat % 2 ^ 16, size := 6, data := x.data, poison := x.poison }
  if p.typ = 0 then ([if x.dirty then data else none_], none)
  else if p.typ = 1 then ([forward, data], some { x with dirty := false, st := .s })
  else if p.typ = 2 then ([data], none)
  else ([data], some { x with dirty := false, st := if x.st = .m then .e else x.st })

/-- A cluster has answered a snoop of a line that its L2 holds and no L1D of it. -/
structure Snooped (s u : State) (q : Nat) (p : Pkt) (x : CLine) (inbox snoops : List Pkt) : Prop where
  rest : u = { s with cores := u.cores, clusters := u.clusters, routers := launches s (snoopAnswers q p x).1, inbox := inbox, pmu := u.pmu }
  others : ∀ j, j ≠ q → u.cluster j = s.cluster j
  snoops : (u.cluster q).snoops = snoops ∧ (u.cluster q).mshr = (s.cluster q).mshr
  line : findLine (u.cluster q).l2 (p.pa / 64) = (snoopAnswers q p x).2
  lines : ∀ l, l ≠ p.pa / 64 → findLine (u.cluster q).l2 l = findLine (s.cluster q).l2 l
  banks : ∀ c bi, Kept (s.bank c bi) (u.bank c bi)
  resv : (snoopAnswers q p x).2 = none → ∀ c, c / 8 = q → c < 128 → ∀ bi, (u.bank c bi).resv ≠ some (p.pa / 128)

/-- A cluster that runs and holds a line in its L2, with no L1D copy, no eviction and no deferral of it, and no fill of it on its way. -/
structure HoldsLine (s : State) (q line : Nat) (x : CLine) : Prop where
  runs : q < 16 ∧ clusterRuns s q = true
  on_ : l2On s q = true
  held : findLine (s.cluster q).l2 line = some x
  noL1 : ∀ c, c / 8 = q → findLine (s.core c).l1d line = none
  noEvict : ∀ e ∈ (s.cluster q).evq, e.line ≠ line
  noFill : fillOnWay s q line = false
  noDefer : deferring s (clusterCores q) line = []

/-- Lookups, fills, grants, evictions and snoops at an L2 (R250 to R256, R261 to R263). -/
def ClusterCache : Prop :=
  ∀ (s : State) (c : Nat), onCore s c 0 →
    let k := s.core c
    let q := c / 8
    (∀ (line : Nat) (m : Mshr), k.mshr.find? (fun m => decide (m.line = line) && !m.asked) = some m → m.lvl = 1 → lookupTurn s q (2 * (c % 8) + 1) line m.pref = true →
      (∀ x, l2On s q = true → findLine (s.cluster q).l2 line = some x → m.write = false ∨ x.st ≠ .s →
        Leads (.l2Lookup c false line) s (fun u => u = { s with cores := u.cores, clusters := u.clusters } ∧ (∀ d, d ≠ c → u.core d = s.core d) ∧
          u.cluster q = { s.cluster q with l2 := touchLine (s.cluster q).l2 line } ∧
          u.core c = { k with mshr := k.mshr.map (fun n => if n.line = line then { n with asked := true } else n) })) ∧
      (l2On s q = false → (s.cluster q).evq = [] → l2Mshr s q line = none → (s.cluster q).mshr.length < 48 →
        Leads (.l2Lookup c false line) s (fun u =>
          let p := clusterPkt s q (if m.write then 1 else 0) m.line m.tenant m.closed
          u.routers = (s.request p).routers ∧ u.tags = (s.request p).tags ∧ u.mem = s.mem ∧ u.regs = s.regs ∧ (∀ d, d ≠ c → u.core d = s.core d) ∧
          u.core c = { k with mshr := k.mshr.map (fun n => if n.line = m.line then { n with asked := true } else n) } ∧
          (u.cluster q).mshr = (s.cluster q).mshr ++
            [{ m with
              ports := if m.write then [] else [2 * (c % 8) + 1], wports := if m.write then [2 * (c % 8) + 1] else [], walks := [], secs := 0, asked := true,
              way := none, tag := s.nextTag (clusterUnit q), late := rtoLate s (tileRouter q) }]))) ∧
    (∀ (p : Pkt) (m : Mshr) (w : Nat), calm k → l2Mshr s q (p.pa / 64) = some m → m.write = false → m.ports = [2 * (c % 8) + 1] → m.wports = [] → m.walks = [] → p.net = 3 → p.typ = 0 → p.poison = false →
      (s.cluster q).evq = [] → (s.cluster q).mshr.Nodup → l2On s q = true → m.lvl = 1 → m.way = some w → (∀ y ∈ (s.cluster q).l2, y.line ≠ m.line ∧ ¬(y.line % 4096 = m.line % 4096 ∧ y.way = w)) →
      l1dOn s c = true → (k.l1d.filter (fun y => decide (y.line % 256 = m.line % 256))).length < 4 → (∀ d, d / 8 = q → ∀ y ∈ (s.core d).l1d, y.line ≠ m.line) →
      Leads (.fill c false p) s (fun u => u.mem = s.mem ∧ u.regs = s.regs ∧ u.inbox = taken s p ∧ (u.cluster q).mshr = (s.cluster q).mshr.filter (fun n => decide (n ≠ m)) ∧
        (∃ y, findLine (u.cluster q).l2 m.line = some y ∧ y.data = p.data ∧ y.way = w ∧ y.tenant = m.tenant ∧ y.dirty = decide (p.mask ≠ 0) ∧
          y.st = if p.mask ≠ 0 then .m else if p.excl then .e else .s) ∧
        findLine (u.core c).l1d m.line = some { line := m.line, st := .s, data := p.data } ∧ (∀ n ∈ (u.core c).mshr, ¬(n.line = m.line ∧ n.lvl = 1)) ∧
        ∀ bi, bi < 8 → Kept (s.bank c bi) (u.bank c bi) ∧ ∀ l ∈ (s.bank c bi).loads, l.mt = .wb → l.hi = none → l.pa / 64 = m.line → l.pa % 64 + l.size ≤ 64 →
          ∃ n ∈ (u.bank c bi).loads, n.seq = l.seq ∧ n.complete = true)) ∧
    (∀ (p : Pkt) (m : Mshr) (x : CLine), calm k → l2Mshr s q (p.pa / 64) = some m → m.write = true → m.ports = [] → m.walks = [] → m.wports = [2 * (c % 8) + 1] → p.net = 1 → p.typ = 1 → p.poison = false →
      (s.cluster q).evq = [] → (s.cluster q).mshr.Nodup → l2On s q = true → findLine (s.cluster q).l2 m.line = some x → x.st = .s →
      l1Modified s (clusterCores q) m.line = none → deferring s (otherCores c) m.line = [] → l1dOn s c = true → ((dropLine k.l1d m.line).filter (fun y => decide (y.line % 256 = m.line % 256))).length < 4 →
      Leads (.ownershipGrant c p) s (fun u => u.mem = s.mem ∧ u.regs = s.regs ∧ u.inbox = taken s p ∧ (u.cluster q).mshr = (s.cluster q).mshr.filter (fun n => decide (n ≠ m)) ∧
        findLine (u.cluster q).l2 m.line = some { x with st := .e } ∧
        findLine (u.core c).l1d m.line = some { line := m.line, st := .e, data := x.data, poison := x.poison } ∧
        (∀ d, d / 8 = q → d ≠ c → (l1dOn s d = true → findLine (u.core d).l1d m.line = none) ∧ ∀ bi, (u.bank d bi).resv ≠ some (m.line / 2)) ∧
        ∀ bi, Kept (s.bank c bi) (u.bank c bi))) ∧
    (∀ (bi n v : Nat) (ans : MemAns) (e : WbEnt) (p : Pkt), bi < 8 →
      k.wb.find? (fun e => decide (e.bank = bi) && decide (e.seq = n) && e.sent && (decide (e.kind = .clean) || decide (e.kind = .inval))) = some e →
      distinct k.wb → quiet k → findAns s c e.tag = some p → ansOf p = some (.data v) →
      Leads (.maintenanceAcknowledge c bi n ans) s (fun u => u.mem = s.mem ∧ u.regs = s.regs ∧ u.inbox = taken s p ∧
        sameStores (u.core c).wb (without e k.wb) ∧ ∀ d, Kept (s.bank c d) (u.bank c d))) ∧
    (clusterRuns s q = true → ∀ (p : Pkt) (e : EvEnt), (s.cluster q).evq = [e] → e.line = p.pa / 64 → (∀ n ∈ (s.cluster q).mshr, n.waitWb = true → n.line = e.miss) →
      Leads (.evictAnswer q p) s (fun u => u = { s.take p with clusters := u.clusters } ∧ (∀ j, j ≠ q → u.cluster j = s.cluster j) ∧
        (u.cluster q).evq = [] ∧ (u.cluster q).mshr = (s.cluster q).mshr.filter (fun n => !n.waitWb) ∧ (u.cluster q).l2 = (s.cluster q).l2))

/-- The four snoops, and the end of a deferral (R107, R250, R261 to R263). -/
def Snoops : Prop :=
  ∀ (s : State) (q : Nat) (p : Pkt) (x : CLine), HoldsLine s q (p.pa / 64) x →
    (∀ i ∈ [(Instr.snoopInvalidate q p, 0), (Instr.forwardShared q p, 1), (Instr.forwardUnique q p, 2), (Instr.snoopClean q p, 3)], p.net = 2 → p.typ = i.2 →
      Leads i.1 s (fun u => Snooped s u q p x (taken s p) (s.cluster q).snoops)) ∧
    (p ∈ (s.cluster q).snoops → p.typ < 4 →
      Leads (.snoopDeferralEnd q p) s (fun u => Snooped s u q p x s.inbox (dropFirst (fun y => decide (y = p)) (s.cluster q).snoops)))

/-- Whole-cache maintenance: a write of CACHE_MAINT starts it, with its ways, on a block that runs none; it ends once every set is visited and every
writeback accepted, here of a slice that has none to make (R269, R270). -/
def WholeCache : Prop :=
  ∀ (s : State) (ag : Agent) (j : Nat),
    let st := R.CACHE_STAT j
    (∀ core ways level, (j < 16 ∧ clusterRuns s j = true ∧ level < 3) ∨ (16 ≤ j ∧ j < 32 ∧ unitRuns s (sliceDom (j - 16)) (128 + j) = true ∧ level = 0) →
      Written s .cache (R.CACHE_MAINT j) ag → s.f st F.CACHE_STAT_busy = 0 →
      let t := acked s ag (R.CACHE_MAINT j)
      ∀ i ∈ [(Instr.cacheInvalidate ag j level core ways, 0), (Instr.cacheClean ag j level core ways, 1), (Instr.cacheCleanInvalidate ag j level core ways, 2)],
        Leads i.1 s (fun u => Sets (t.setMaint j (some
          { op := i.2, level := level, core := core % 8, ways := if ag.closed then ways % 2 ^ 16 else ways % 2 ^ 14 })) u [(st, F.CACHE_STAT_busy, 1)])) ∧
    (∀ k m, k < 16 → j = 16 + k → unitRuns s (sliceDom k) (144 + k) = true → (s.slice k).maint = some m → m.wait = [] → m.level = 0 →
      (s.slice k).txns = [] → ((s.slice k).lines.map (·.line)).Nodup →
      let hit : CLine → Bool := fun y => m.ways.testBit y.way && decide (m.nextSet ≤ y.line % 4096)
      m.op = 0 ∨ (∀ y ∈ (s.slice k).lines, hit y = true → y.dirty = false) →
      Leads (.cacheMaintComplete j) s (fun u => Sets { s with slices := u.slices } u [(st, F.CACHE_STAT_busy, 0)] ∧ (u.slice k).maint = none ∧
        (∀ i, i ≠ k → u.slice i = s.slice i) ∧ (u.slice k).dir = (s.slice k).dir ∧
        (u.slice k).lines = if m.op = 1 then (s.slice k).lines else (s.slice k).lines.filter (fun y => !hit y)))
end Sys2Proof.Claims

/-- The cluster caches: L2_LOOKUP, FILL, OWNERSHIP_GRANT, EVICT_ANSWER, MAINTENANCE_ACKNOWLEDGE, SNOOP_INVALIDATE, FORWARD_SHARED, FORWARD_UNIQUE,
SNOOP_CLEAN, SNOOP_DEFERRAL_END, CACHE_INVALIDATE, CACHE_CLEAN, CACHE_CLEAN_INVALIDATE and CACHE_MAINT_COMPLETE (R107, R250 to R256, R261 to R265, R269,
R270). -/
def Obligations.ClusterCaches : Prop := ClusterCache ∧ Snoops ∧ WholeCache

namespace Sys2Proof.Claims
/-- No probe of a router is enabled. -/
def noProbes (s : State) (r : Nat) : Prop := ∀ i, i < 2 → s.f (R.NOC_PRB_SEL r i) F.NOC_PRB_SEL_en = 0

/-- The head of an input's channel of a router that runs, behind which no packet waits in its unit. -/
structure HeadAt (s : State) (r net d vc : Nat) (p : Pkt) (rest : List Pkt) : Prop where
  bound : r < 30 ∧ net < 4 ∧ d < 7 ∧ vc < 4
  runs : routerRuns s r = true
  head : (s.router r).buf net d vc = p :: rest
  backlog : mget [] (s.router r).backlog (bufIx net d vc) = []
  probes : noProbes s r

/-- The head of an input's channel, and that nothing else waits in its router on its network. -/
structure AloneAt (s : State) (r net d vc : Nat) (p : Pkt) (rest : List Pkt) : Prop extends HeadAt s r net d vc p rest where
  alone : ∀ e v, e < 7 → v < 4 → (e, v) ≠ (d, vc) → (s.router r).buf net e v = []
  link : linkUp s r d = true
  known : reservedType p = false

/-- A whole packet that is no answer stands in its unit; one of two halves waits for the other (R273, R279). -/
def Arrives (s : State) (p : Pkt) : Prop :=
  (inHalves p = false → isAnswer p = false → s.deliver p = { s with inbox := s.inbox ++ [p] }) ∧
  (inHalves p = true → (∀ q ∈ s.halves, makeWhole q p = false ∧ makeWhole p q = false) → s.deliver p = { s with halves := s.halves ++ [p] })

/-- What the mesh moves: heads, slots, the escape channel, credits and heartbeats (R37, R272, R280 to R287, R290 to R293). -/
def MeshMoves : Prop :=
  ∀ (s : State) (r : Nat),
    (∀ (net d vc : Nat) (p : Pkt) (rest : List Pkt), AloneAt s r net d vc p rest →
      let write := p.typ = 8 ∨ p.typ = 9 ∨ p.typ = 0xB
      let passes := d < 4 ∨ net ≠ 0 ∨ 0xC ≤ p.typ ∨ isNotice p = true ∨ decodeFails (s.router r).map p.closed (decide write) p.pa = false
      (passes → p.dst / 4 = r → ejectRoom s p = true → Leads (.routerHeadFlit r net d vc 0) s (fun u =>
        u = { s.deliver p with routers := u.routers, pmu := u.pmu } ∧ (u.router r).buf net d vc = rest) ∧ Arrives s p) ∧
      (passes → p.dst / 4 ≠ r → p.dst / 4 < 30 → vc = 0 →
        let o := xyOut r p.dst
        let n := neighbour r o
        fenced s r o = false → flits p ≤ 4 - usedOf s r net o 0 → Leads (.routerHeadFlit r net d vc 0) s (fun u =>
          u = { s with routers := u.routers, pmu := u.pmu } ∧ (u.router r).buf net d vc = rest ∧
          (u.router n).buf net (opposite o) 0 = (s.router n).buf net (opposite o) 0 ++ [p] ∧ usedOf u r net o 0 = usedOf s r net o 0 + flits p)) ∧
      (4 ≤ d → net = 0 → p.typ < 0xC → isNotice p = false → decodeFails (s.router r).map p.closed (decide write) p.pa = true →
        Leads (.routerHeadFlit r net d vc 0) s (fun u => u = { s.deliver (answerTo p 1 4 (4 * r)) with routers := u.routers, pmu := u.pmu } ∧
          (u.router r).buf net d vc = rest)) ∧
      (4 ≤ d → Leads (.routerHeadFlit r net d vc 2) s (fun u => u.inbox = s.inbox ∧ u.mem = s.mem ∧ (u.router r).buf net d vc = rest ∧
        u.f (R.NOC_ERR r) F.NOC_ERR_uncorr = min (2 ^ F.NOC_ERR_uncorr.w - 1) (s.f (R.NOC_ERR r) F.NOC_ERR_uncorr + 1) ∧
        u.f (R.NOC_ERR r) F.NOC_ERR_net = net ∧ u.f (R.NOC_ERR r) F.NOC_ERR_port = d ∧ u.reports = s.reports ++ [⟨routerHalf r, 0x0A, 160 + r⟩]))) ∧
    (∀ (port slot g : Nat) (p : Pkt) (l : List Pkt), r < 30 → routerRuns s r = true → port < 3 → slot < 60 →
      mget 0 (s.router r).admitted port ≤ 60 * s.ref + slot → slotGroup s r port slot = some g → mget [] (s.router r).waiting port = p :: l →
      groupOf s r p.tenant p.closed = g → p.net = 0 →
      let b := (s.router r).buf 0 (4 + port) 0
      let w := mget [] (s.router r).backlog (bufIx 0 (4 + port) 0)
      let room := w = [] ∧ (b.map flits).sum + flits p ≤ 4
      Leads (.slotAdmission r port slot) s (fun u =>
        u = { s with routers := u.routers, pmu := u.pmu } ∧ mget [] (u.router r).waiting port = l ∧ (∀ j, j ≠ r → u.router j = s.router j) ∧
        (room → (u.router r).buf 0 (4 + port) 0 = b ++ [p]) ∧
        (¬room → (u.router r).buf 0 (4 + port) 0 = b ∧ mget [] (u.router r).backlog (bufIx 0 (4 + port) 0) = w ++ [p]))) ∧
    (∀ (net d vc : Nat) (p : Pkt) (rest : List Pkt), HeadAt s r net d vc p rest → vc = 1 ∨ vc = 2 → p.dst / 4 < 30 → p.dst / 4 ≠ r →
      mget 0 (s.router r).starved (bufIx net d vc) ≠ 0 →
      (∀ o ∈ avail (rx r) (ry r) (rx (p.dst / 4)) (ry (p.dst / 4)) (rx (p.src / 4)), 4 < usedOf s r net o 1 + flits p ∧ 4 < usedOf s r net o 2 + flits p) →
      let o := xyOut r p.dst
      let n := neighbour r o
      fenced s r o = false → flits p + usedOf s r net o 3 ≤ 4 → escapeGranted s r net o d = true → Leads (.escapeChannelMove r net d vc) s (fun u =>
        u = { s with routers := u.routers, pmu := u.pmu } ∧ (u.router r).buf net d vc = rest ∧
        (u.router n).buf net (opposite o) 3 = (s.router n).buf net (opposite o) 3 ++ [{ p with esc := true }])) ∧
    (∀ net o vc, r < 30 → routerRuns s r = true → net < 4 → o < 4 → vc < 4 → Leads (.creditReturn r net o vc) s (fun u =>
      u = { s with routers := u.routers } ∧ usedOf u r net o vc = usedOf s r net o vc - mget 0 (s.router r).freed (bufIx net o vc) ∧
      mget 0 (u.router r).freed (bufIx net o vc) = 0 ∧ ∀ j, j ≠ r → u.router j = s.router j)) ∧
    (∀ o net, r < 30 → o < 4 → net < 4 → routerRuns s r = true → hasPort r o = true → mget 0 (s.router r).lastSent (4 * o + net) < s.ref →
      Leads (.linkHeartbeat r o net) s (fun u => u = { s with routers := u.routers } ∧ mget 0 (u.router r).lastSent (4 * o + net) = s.ref ∧
        mget 0 (u.router (neighbour r o)).lastWord (opposite o) = s.ref)) ∧
    (∀ d, r < 30 → d < 4 → routerRuns s r = true → hasPort r d = true → linkUp s r d = true → mget 0 (s.router r).lastWord d + 4 ≤ s.ref →
      Leads (.linkSilenceTimeout r d) s (fun u => Sets { s with reports := s.reports ++
          (if onCut r d = true then [⟨0, 0x0C, 160 + r⟩, ⟨1, 0x0C, 160 + r⟩] else [⟨routerHalf r, 0x0B, 160 + r⟩]) } u
        [(R.NOC_LINK r, linkFld d 2, 1), (R.NOC_LINK r, linkFld d 0, 0)])) ∧
    (∀ ag o, r < 30 → o < 4 → Written s .noc (R.NOC_LINK r) ag →
      Leads (.linkFence ag r o) s (fun u => Sets (acked s ag (R.NOC_LINK r)) u [(R.NOC_LINK r, linkFld o 1, 1)])) ∧
    (r < 30 → routerRuns s r = true → Leads (.dslotApply r) s (fun u => u = { s with routers := u.routers } ∧
      (∀ i, i < 60 → mget 0 (u.router r).slots i = s.reg (R.NOC_DSLOT r i)) ∧ ∀ j, j ≠ r → u.router j = s.router j)) ∧
    (∀ ag, r < 30 → routerRuns s r = true → Written s .noc (R.NOC_ERR r) ag → Leads (.nocErrClear ag r) s (fun u => Sets (acked s ag (R.NOC_ERR r)) u
      [(R.NOC_ERR r, F.NOC_ERR_corr, 0), (R.NOC_ERR r, F.NOC_ERR_uncorr, 0), (R.NOC_ERR r, F.NOC_ERR_net, 0), (R.NOC_ERR r, F.NOC_ERR_port, 0)]))

/-- What the interrupt distributors do: sampling, presentation, notices, entries and wakes (R321 to R332, R335, R336). -/
def Distributors : Prop :=
  ∀ (s : State),
    (∀ n, n < 1024 → s.f (icuSrc n) F.ICU_SRC_ev = 0 →
      let a := icuSrc n
      (lineLevel s n = true → s.f a F.ICU_SRC_pend = 0 → Leads (.sourceLevelChange n) s (fun u => Sets { s with clusters := u.clusters } u [(a, F.ICU_SRC_pend, 1)])) ∧
      (lineLevel s n = false → s.f a F.ICU_SRC_pend = 1 → s.f a F.ICU_SRC_en = 1 → s.f a F.ICU_SRC_act = 0 →
        Leads (.sourceLevelChange n) s (fun u => Sets { s with clusters := u.clusters } u [(a, F.ICU_SRC_lost, 1), (a, F.ICU_SRC_pend, 0)])) ∧
      ((true, n) ∈ s.notices → cutOff s n = false → Leads (.acceptNotice n) s (fun u =>
        Sets { s with notices := dropFirst (fun x => decide (x = (true, n))) s.notices, cores := u.cores } u [(a, F.ICU_SRC_act, 1)] ∧
        ∀ c, ∀ x ∈ (u.core c).pres, x.2 ≠ n)) ∧
      ((false, n) ∈ s.notices → cutOff s n = false → lineLevel s n = true → Leads (.endNotice n) s (fun u =>
        Sets { s with notices := dropFirst (fun x => decide (x = (false, n))) s.notices, clusters := u.clusters } u
          [(a, F.ICU_SRC_act, 0), (a, F.ICU_SRC_pend, 1)]))) ∧
    (∀ pin level, pin < 16 → Leads (.pinLevelFiltered pin level) s (fun u => u.icu.soft = s.icu.soft ∧ u.mem = s.mem ∧
      (∀ i, u.icu.pins.contains i = if i = pin then level else s.icu.pins.contains i) ∧ ∀ a, a ≠ icuSrc (896 + pin) → u.reg a = s.reg a)) ∧
    (∀ c slot, c < 128 → slot < 8 → coreClocked s c = true → isChecker s c = false → Leads (.sourcePresentation c slot) s (fun u =>
      u = { s with cores := u.cores } ∧ (u.core c).pres.find? (fun x => decide (x.1 = slot)) = (bestSource s c slot).map (fun n => (slot, n)) ∧
      ∀ d, d ≠ c → u.core d = s.core d)) ∧
    (∀ (ag : Agent) (half : Nat) (v : Word), half < 2 → Written s .icu (R.ICU_SWL half) ag →
      let n := fld v 0 10
      912 ≤ n → srcOwner n = half → Leads (.icuSwl ag half v) s (fun u =>
        u = { acked s ag (R.ICU_SWL half) with icu := u.icu } ∧ u.icu.pins = s.icu.pins ∧ ∀ i, u.icu.soft.contains i = if i = n then bit v 10 else s.icu.soft.contains i)) ∧
    (∀ (ag : Agent) (half n : Nat) (v : Word), half < 2 → n < 1024 →
      let a := R.ICU_SRC half n
      Written s .icu a ag → icuHas half n = true → (ag.closed = true ∨ (s.f a F.ICU_SRC_lvl ≠ 3 ∧ fld v 13 2 ≠ 3 ∧ (n < 736 ∨ 740 ≤ n))) →
      Leads (.icuSrcWrite ag half n v) s (fun u => u.mem = s.mem ∧ (∀ b, b ≠ a → u.reg b = s.reg b) ∧
        (∀ i, i < 28 → (u.reg a).getLsbD i = if s.f (R.ICU_CTL half) F.ICU_CTL_lock = 1 then (s.reg a).getLsbD i else v.getLsbD i) ∧
        (u.reg a).getLsbD 28 = (s.reg a).getLsbD 28 ∧
        (∀ i, i = 29 ∨ i = 30 → (u.reg a).getLsbD i = ((s.reg a).getLsbD i && !v.getLsbD i)) ∧ ∀ i, 31 ≤ i → (u.reg a).getLsbD i = false)) ∧
    (∀ c, c < 128 → s.f (R.PWR_CORE c) F.PWR_CORE_asleep = 1 → wakeWanted s c = true → Leads (.coreWakeRequest c) s (fun u =>
      u = { s with icu := { s.icu with wake := c :: s.icu.wake.filter (fun d => decide (d ≠ c)) } }))
end Sys2Proof.Claims

/-- The mesh: ROUTER_HEAD_FLIT, SLOT_ADMISSION, ESCAPE_CHANNEL_MOVE, CREDIT_RETURN, LINK_HEARTBEAT, LINK_SILENCE_TIMEOUT, LINK_FENCE, DSLOT_APPLY and NOC_ERR_CLEAR have their effect (R37, R272, R280 to R293, R298). That 60 router edges stand for one [ref] period, and that only the request queues of the DRAM controllers can refuse a packet, are the model's (logs 29 and 30). -/
def Obligations.Mesh : Prop := Claims.MeshMoves

/-- The interrupt distributors: SOURCE_LEVEL_CHANGE, PIN_LEVEL_FILTERED, SOURCE_PRESENTATION, ACCEPT_NOTICE, END_NOTICE, ICU_SWL, ICU_SRC_WRITE and CORE_WAKE_REQUEST have their effect (R321 to R336). -/
def Obligations.InterruptDistributors : Prop := Claims.Distributors

namespace Sys2Proof.Claims
/-- What the record and the count of a fault leave in an anchor's registers (R471, R473, R474). -/
def recorded (t : State) (h code island : Nat) : List (Nat × Fld × Nat) :=
  let a := R.SAFE_FREC h
  (if t.f a F.SAFE_FREC_valid = 1 then [(a, F.SAFE_FREC_over, 1)]
   else [(a, F.SAFE_FREC_code, code), (a, F.SAFE_FREC_island, island), (a, F.SAFE_FREC_time, t.f (R.SAFE_TIME h) F.SAFE_TIME_ticks), (a, F.SAFE_FREC_valid, 1)]) ++
  [(R.SAFE_FMAP h code, F.SAFE_FMAP_cnt, min (2 ^ F.SAFE_FMAP_cnt.w - 1) (t.f (R.SAFE_FMAP h code) F.SAFE_FMAP_cnt + 1))]

/-- The command makes the anchor of half `h`, as it stands in `t`, take a fault: recorded and counted; by the action of its code also irqf, or the level
MIN, or SAFE-STATE, with the cause, chg and own (R472 to R477). -/
def TakesFault (i : Instr) (s t : State) (h code island : Nat) : Prop :=
  let m := R.SAFE_FMAP h code
  let a := R.SAFE_STAT h
  let act := t.f m F.SAFE_FMAP_act
  let changes := fun (u : State) (l : Nat) => u.f a F.SAFE_STAT_level = l ∧ u.f a F.SAFE_STAT_chg = 1 ∧ u.f a F.SAFE_STAT_cause = code ∧ u.f a F.SAFE_STAT_own = 1 ∧
    u.f m F.SAFE_FMAP_cnt = min (2 ^ F.SAFE_FMAP_cnt.w - 1) (t.f m F.SAFE_FMAP_cnt + 1)
  t.f m F.SAFE_FMAP_fixed = 1 ∨ t.f m F.SAFE_FMAP_thr = 0 →
    (act = 0 → Leads i s (fun u => Sets t u (recorded t h code island))) ∧
    (act = 1 → Leads i s (fun u => Sets t u (recorded t h code island ++ [(a, F.SAFE_STAT_irqf, 1)]))) ∧
    (act = 2 → t.f a F.SAFE_STAT_level < 2 → t.f a F.SAFE_STAT_cutfence = 0 → Leads i s (fun u => changes u 2 ∧ u.mem = t.mem)) ∧
    (act = 3 → t.f a F.SAFE_STAT_level ≠ 3 → Leads i s (fun u => changes u 3))

/-- Whether two counts of one window differ by more than 2 % of the second (R470). -/
def farFrom (x y : Nat) : Prop := y < 50 * (max x y - min x y)

/-- Faults from units, clocks, supplies, temperature, and the anchors' own checkers (R470 to R474, R563). -/
def AnchorFaults : Prop :=
  ∀ (s : State) (h : Nat), h < 2 →
    let own := 200 + h
    TakesFault (.anchorLockstepMismatch h) s s h 1 own ∧
    (∀ temp, s.f (R.SAFE_CFG h) F.SAFE_CFG_tmax < temp → TakesFault (.junctionOverTemperature h temp) s s h 7 own) ∧
    (∀ mv, mv < 710 ∨ 790 < mv → TakesFault (.supplyViolation h 1 mv) s s h 5 own) ∧
    (∀ mv, mv < 760 ∨ 840 < mv → TakesFault (.supplyViolation h 2 mv) s s h 6 own) ∧
    (∀ o p m, farFrom o (400 * p) → farFrom o (16 * m) → ¬(farFrom (16 * m) o ∧ farFrom (16 * m) (400 * p)) → TakesFault (.clockRateWindow h o p m) s s h 3 own) ∧
    (∀ o p m, ¬(farFrom o (400 * p) ∧ farFrom o (16 * m)) → ¬(farFrom (16 * m) o ∧ farFrom (16 * m) (400 * p)) → exec (.clockRateWindow h o p m) s = .next s) ∧
    (∀ n code island, code < 64 → code ≠ 8 → s.reports = [⟨h, code, island⟩] → 1 ≤ n → island < 256 →
      TakesFault (.faultReport h n) s { s with reports := [] } h code island) ∧
    ((s.anchor h).peerAt + 80000 ≤ s.f (R.SAFE_TIME h) F.SAFE_TIME_ticks →
      TakesFault (.peerSilence h) s ((s.setAnchor h { s.anchor h with peerAt := s.f (R.SAFE_TIME h) F.SAFE_TIME_ticks }).setF (R.SAFE_STAT h) F.SAFE_STAT_peer 0) h 0x14 own) ∧
    (s.f (R.SAFE_WDT h) F.SAFE_WDT_arm = 1 → (s.anchor h).kickAt + s.f (R.SAFE_WDT h) F.SAFE_WDT_period * 256 ≤ s.f (R.SAFE_TIME h) F.SAFE_TIME_ticks →
      TakesFault (.safeWdtExpiry h) s (s.setAnchor h { s.anchor h with kickAt := s.f (R.SAFE_TIME h) F.SAFE_TIME_ticks }) h 4 own) ∧
    (∀ ag code, code < 64 → Written s .safe (R.SAFE_CTL h) ag → s.f R.PMU_MODE F.PMU_MODE_mode = 3 → TakesFault (.inject ag h code) s (acked s ag (R.SAFE_CTL h)) h code own)

/-- Heartbeats, the split, the rejoin, the watchdog, the outputs and the settings of an anchor (R469, R473, R476, R480 to R487, R492). -/
def AnchorRules : Prop :=
  ∀ (s : State) (h : Nat), h < 2 →
    let a := R.SAFE_STAT h
    let now := s.f (R.SAFE_TIME h) F.SAFE_TIME_ticks
    let x := s.anchor h
    let rej := R.SAFE_REJOIN h
    (x.beatAt + 400 ≤ now → Leads (.anchorHeartbeat h) s (fun u => u = { s with
      anchors := mset s.anchors h { x with beatAt := now, decl := [] },
      beats := s.beats ++ [⟨1 - h, s.f a F.SAFE_STAT_level, decide (s.f a F.SAFE_STAT_split = 1), decide (s.f a F.SAFE_STAT_own = 1), x.decl⟩] })) ∧
    (∀ b, s.beats = [b] → b.dest = h →
      (b.decl = [] → Leads (.peerHeartbeat h) s (fun u => Sets { s with beats := [], anchors := mset s.anchors h { x with peerAt := now } } u
        [(a, F.SAFE_STAT_peer, 1), (a, F.SAFE_STAT_peer_level, b.level)])) ∧
      (b.decl = [3] → s.f a F.SAFE_STAT_level = 0 → Leads (.peerHeartbeat h) s (fun u => u.f a F.SAFE_STAT_level = 1 ∧ u.f a F.SAFE_STAT_peer_lost = 1 ∧
        u.f a F.SAFE_STAT_peer = 1 ∧ u.f a F.SAFE_STAT_chg = 1 ∧ u.mem = s.mem))) ∧
    (s.f a F.SAFE_STAT_split = 1 → s.f a F.SAFE_STAT_cutfence = 0 → Leads (.split h) s (fun u =>
      Sets { s with routers := u.routers, anchors := mset s.anchors h { x with drain := some (now + min 400000 (s.f (R.SAFE_CFG h) F.SAFE_CFG_drain)) } } u
        [(a, F.SAFE_STAT_cutfence, 1), (R.ICU_STAT 0, F.ICU_STAT_xfence, 1), (R.ICU_STAT 1, F.ICU_STAT_xfence, 1)] ∧
      ∀ y, y < 5 → fenced u (6 * y + if h = 0 then 2 else 3) (if h = 0 then 1 else 3) = true)) ∧
    (∀ e, x.drain = some e → e ≤ now →
      (s.f a F.SAFE_STAT_level = 3 → Leads (.splitDrainEnd h) s (fun u => u = s.setAnchor h { x with drain := none })) ∧
      (s.f a F.SAFE_STAT_level ≠ 3 → Leads (.splitDrainEnd h) s (fun u => u.f a F.SAFE_STAT_chg = 1 ∧ (u.anchor h).drain = none ∧ u.mem = s.mem))) ∧
    (∀ ag, Written s .safe rej ag →
      (rejoinReason s h ≠ 0 → Leads (.safeRejoin ag h) s (fun u => Sets (acked s ag rej) u [(rej, F.SAFE_REJOIN_rstat, 3), (rej, F.SAFE_REJOIN_reason, rejoinReason s h)])) ∧
      (rejoinReason s h = 0 → Leads (.safeRejoin ag h) s (fun u => u.f rej F.SAFE_REJOIN_rstat = 0 ∧ (u.anchor h).rejoin ≠ none))) ∧
    (∀ e, x.rejoin = some (2, e) →
      (cutUp s = true → Leads (.rejoinLinksUp h) s (fun u => (∀ j, j < 2 → let b := R.SAFE_STAT j
          u.f b F.SAFE_STAT_level = 0 ∧ u.f b F.SAFE_STAT_split = 0 ∧ u.f b F.SAFE_STAT_peer_lost = 0 ∧ u.f b F.SAFE_STAT_own = 0 ∧ u.f b F.SAFE_STAT_chg = 1 ∧
          u.f b F.SAFE_STAT_cause = 0xFF ∧ (u.anchor j).rejoin = none) ∧ u.f rej F.SAFE_REJOIN_rstat = 1 ∧ u.mem = s.mem ∧
        (rejoining s h = 1 → s.f R.SEC_STAT F.SEC_STAT_cw_state = 1 → u.f R.SEC_STAT F.SEC_STAT_cw_state = 2))) ∧
      (cutUp s = false → e + 4096 ≤ now → Leads (.rejoinLinkTimeout h) s (fun u => Sets (s.setAnchor h { x with rejoin := none }) u
        [(rej, F.SAFE_REJOIN_rstat, 3), (rej, F.SAFE_REJOIN_reason, 6)]))) ∧
    (∀ (ag : Agent) (v : Word), Written s .safe (R.SAFE_WDT h) ag →
      let w := R.SAFE_WDT h
      let t := acked s ag w
      (s.f w F.SAFE_WDT_arm = 0 → fld v 0 16 ≠ 0 → Leads (.safeWdtArm ag h v) s (fun u => Sets (t.setAnchor h { x with kicks := 0, kickAt := now }) u
        [(w, F.SAFE_WDT_period, fld v 0 16), (w, F.SAFE_WDT_win, fld v 16 7), (w, F.SAFE_WDT_arm, 1)])) ∧
      (s.f w F.SAFE_WDT_arm = 1 → fld v 24 8 = (if x.kicks % 2 = 0 then 0xA5 else 0x5A) → x.kicks = 0 ∨ x.kickAt + s.f w F.SAFE_WDT_win * 256 ≤ now →
        Leads (.safeWdtKick ag h v) s (fun u => u = t.setAnchor h { x with kicks := x.kicks + 1, kickAt := now })) ∧
      (s.f w F.SAFE_WDT_arm = 1 → fld v 24 8 ≠ 0 → fld v 24 8 ≠ (if x.kicks % 2 = 0 then 0xA5 else 0x5A) → TakesFault (.safeWdtKick ag h v) s t h 4 (200 + h))) ∧
    (∀ ag, Written s .safe (R.SAFE_CTL h) ag → s.f (R.SAFE_CTL h) F.SAFE_CTL_lock = 0 → Leads (.safeCtlLock ag h) s (fun u => Sets (acked s ag (R.SAFE_CTL h)) u
      [if lockReason s h = 0 then (R.SAFE_CTL h, F.SAFE_CTL_lock, 1) else (R.SAFE_CTL h, F.SAFE_CTL_lerr, lockReason s h)])) ∧
    (∀ ag code, code < 64 → Written s .safe (R.SAFE_FMAP h code) ag →
      Leads (.fmapCountClear ag h code) s (fun u => Sets (acked s ag (R.SAFE_FMAP h code)) u [(R.SAFE_FMAP h code, F.SAFE_FMAP_cnt, 0)])) ∧
    (∀ ag v, v < 16 → Written s .safe (R.SAFE_SOUT h) ag → Leads (.safeOutputWrite ag h v) s (fun u => Sets (acked s ag (R.SAFE_SOUT h)) u
      ((R.SAFE_SOUT h, F.SAFE_SOUT_val, v) :: if s.f a F.SAFE_STAT_level = 3 then [] else [(R.SAFE_SOUT h, F.SAFE_SOUT_pins, v)])))

/-- Lockstep pairs (R488 to R491). -/
def LockstepPairs : Prop :=
  ∀ (s : State) (ag : Agent) (q k : Nat), q < 16 → k < 4 →
    let h := clusterHalf q
    let a := pairReg (8 * q)
    let c := 8 * q + 2 * k
    let i := 4 * q + k
    let drained := (s.core c).wb = [] ∧ (s.core (c + 1)).wb = []
    (Written s .safe a ag →
      let refused := fun (why : Nat) (u : State) => Sets (acked s ag a) u [(a, F.SAFE_PAIR_rstat, 3), (a, F.SAFE_PAIR_reason, why)]
      (formReason s q k ≠ 0 → Leads (.pairForm ag h q k) s (refused (formReason s q k))) ∧
      (formReason s q k = 0 → drained → Leads (.pairForm ag h q k) s (fun u => u.f a F.SAFE_PAIR_rstat = 0 ∧ (∃ e, mget (0, 0) u.hub.pairs i = (3, e)) ∧
        u.f R.RST_REC F.RST_REC_cause = 8 ∧ ∀ bi, bi < 8 → (u.bank c bi).st = .empty ∧ (u.bank (c + 1) bi).st = .empty)) ∧
      (dissolveReason s q k ≠ 0 → Leads (.pairDissolve ag h q k) s (refused (dissolveReason s q k))) ∧
      (dissolveReason s q k = 0 → drained → Leads (.pairDissolve ag h q k) s (fun u => u.f a F.SAFE_PAIR_rstat = 1 ∧
        (u.f a F.SAFE_PAIR_formed).testBit k = false ∧ u.f R.RST_REC F.RST_REC_cause = 8))) ∧
    (∀ e, s.hub.pairs.find? (fun p => decide (p.1 = i)) = some (i, 3, e) → e + 64 ≤ (s.core c).cyc → Leads (.pairFormed q k) s (fun u =>
      Sets { s with hub := { s.hub with pairs := mdel s.hub.pairs i } } u [(a, F.SAFE_PAIR_formed, s.f a F.SAFE_PAIR_formed ||| 2 ^ k), (a, F.SAFE_PAIR_rstat, 1)])) ∧
    ((s.f a F.SAFE_PAIR_formed).testBit k = true → (s.f a F.SAFE_PAIR_faulted).testBit k = false → Leads (.lockstepMismatch q k) s (fun u =>
      u.f a F.SAFE_PAIR_faulted = s.f a F.SAFE_PAIR_faulted ||| 2 ^ k ∧ u.reports = s.reports ++ [⟨h, 0x12, c + 1⟩] ∧ u.mem = s.mem ∧
      (∀ bi, bi < 8 → (u.bank c bi).st = .empty ∧ (u.bank (c + 1) bi).st = .empty) ∧
      ∀ bi n, bi < 8 → (s.bank c bi).thread = some n → n < 256 → (∀ b, b ≠ bi → (s.bank c b).thread ≠ some n) → u.f (R.SCHED_THR_B q n) F.SCHED_THR_B_state = 6 ∧
        u.f (R.SCHED_THR_B q n) F.SCHED_THR_B_ferr = 1))
end Sys2Proof.Claims

/-- The safety anchors and the lockstep pairs: FAULT_REPORT, CLOCK_RATE_WINDOW, SUPPLY_VIOLATION, JUNCTION_OVER_TEMPERATURE, ANCHOR_LOCKSTEP_MISMATCH,
PEER_SILENCE, SAFE_WDT_EXPIRY, INJECT; ANCHOR_HEARTBEAT, PEER_HEARTBEAT, SPLIT, SPLIT_DRAIN_END, SAFE_REJOIN, REJOIN_LINKS_UP, REJOIN_LINK_TIMEOUT,
SAFE_WDT_ARM, SAFE_WDT_KICK, SAFE_CTL_LOCK, FMAP_COUNT_CLEAR, SAFE_OUTPUT_WRITE; PAIR_FORM, PAIR_DISSOLVE, PAIR_FORMED and LOCKSTEP_MISMATCH (R469 to
R492, R563). That 0 is no kick, and the restart of the silence and watchdog counts, are the model's (logs 55 and 56). -/
def Obligations.SafetyAnchors : Prop := AnchorFaults ∧ AnchorRules ∧ LockstepPairs

namespace Sys2Proof.Claims
/-- What a write of `v` leaves in one field of a register that holds `old`, by the field's type (R10, R12). -/
def leftBy (t : State) (r : RegAt) (fd : FieldD) (old v : Nat) (out : Nat) : Prop :=
  if fd.own = true then out = old
  else match fd.ty with
    | .rw => out = v
    | .ro => out = old
    | .wo => out = old
    | .w1c => ∀ i, out.testBit i = (old.testBit i && !v.testBit i)
    | .w1s => ∀ i, out.testBit i = (old.testBit i || v.testBit i)
    | .rws => out = if ownerStopped t r then v else old
    | .rwl off b => out = if (t.reg (r.base + off)).getLsbD b then old else v

/-- A write of its own width changes a register whose write has no effect but on its fields: each field by its type, the bits outside them 0 (R10, R12,
R13). -/
def PlainWrite (s : State) (ag : Agent) (a : Nat) (r : RegAt) (v : Word) : Prop :=
  Leads (.registerWrite ag a r.d.bytes v) s (fun u => ∃ w, u = (acked s ag a).setReg a w ∧
    (∀ fd ∈ r.d.fields, leftBy s r fd (fld (s.reg a) fd.lo fd.w) (fld v fd.lo fd.w) (fld w fd.lo fd.w)) ∧
    ∀ i, (∀ fd ∈ r.d.fields, i < fd.lo ∨ fd.lo + fd.w ≤ i) → w.getLsbD i = false)

/-- Writes of configuration registers by address (R10 to R14, R46, R505). -/
def RegisterWrites : Prop :=
  ∀ (s : State) (ag : Agent) (a n : Nat) (v : Word),
    (∀ r, findReg a = some r → a % r.d.bytes = 0 → regRuns s a = true → (r.d.bytes = 4 → v.toNat < 2 ^ 32) →
      let t := acked s ag a
      (writeIgnored t ag r = false → writeTaken r v = false → (∀ w, writeValue t ag r (t.reg a) w = w) →
        (∀ w, writeEffect ag r (t.reg a) v (t.setReg a w) = t.setReg a w) → writeAllowed r.kind r.off ag = true → PlainWrite s ag a r v) ∧
      (writeAllowed r.kind r.off ag = false ∨ writeIgnored t ag r = true → Leads (.registerWrite ag a r.d.bytes v) s (fun u => u = t))) ∧
    (∀ r, findReg a = some r → r.d.bytes = 4 → a % 8 = 0 → regRuns s a = true → Leads (.registerWrite ag a 8 v) s (fun u =>
      u = ((acked s ag a).writeAt ag a 4 v.toNat).writeAt ag (a + 4) 4 (v.toNat / 2 ^ 32))) ∧
    (n ≠ 0 → a % n ≠ 0 → exec (.registerWrite ag a n v) s = .next s) ∧
    (regRuns s a = false → exec (.registerWrite ag a n v) s = .next s) ∧
    (findBlock a = none → exec (.registerWrite ag a n v) s = .next s)

/-- Whether an invalidation of value `v` names a combined translation (R212). -/
def removes (v : Word) (e : TlbEnt) : Prop :=
  let tenant := e.regime = 2 ∧ e.tenant = fld v 4 9
  let asid := fld v 13 10
  match fld v 0 3 with
  | 0 => True
  | 1 => tenant
  | 2 => tenant ∧ e.asid = asid ∧ e.glob = false
  | 3 => tenant ∧ (e.glob = true ∨ e.asid = asid) ∧
      (if e.grp = true then e.vpage / 16 = fld v 23 36 / 16 else e.vpage = fld v 23 36 * 4096 / 2 ^ e.lg)
  | 4 => tenant
  | 5 => e.regime = 1
  | 6 => e.regime = 0
  | _ => False

/-- The packet by which a core's broadcast of an invalidation reaches a unit (R273, R277, R282). -/
def invHead (c unit : Nat) (closed : Bool) (v : Word) : Pkt :=
  { net := 2, typ := 4, src := clusterUnit (clusterOf c), dst := unit, closed := closed, more := true, data := BitVec.ofNat 512 v.toNat }

/-- The invalidation of translations (R211, R212, R213, R239). -/
def Invalidations : Prop :=
  ∀ (s : State),
    (∀ (ag : Agent) (c : Nat) (v : Word), c < 128 → coreClocked s c = true → Written s .mmu (R.MMU_INV c) ag →
      let a := R.MMU_INVS c
      let t := acked s ag (R.MMU_INV c)
      let refused := fld v 0 3 = 7 ∨ (fld v 0 3 = 6 ∧ ag.closed = false)
      (s.f a F.MMU_INVS_busy = 1 → Leads (.mmuInv ag c v) s (fun u => Sets t u [(a, F.MMU_INVS_lost, 1)])) ∧
      (s.f a F.MMU_INVS_busy = 0 → refused → Leads (.mmuInv ag c v) s (fun u => Sets t u [(a, F.MMU_INVS_err, 1)])) ∧
      (s.f a F.MMU_INVS_busy = 0 → ¬refused → Leads (.mmuInv ag c v) s (fun u => ∃ l us : List Nat,
        Sets { t with invals := s.invals ++ [{ by_ := c, v := v, todo := l, units := us, await := us }], routers := u.routers } u [(a, F.MMU_INVS_busy, 1)] ∧
        (v.getLsbD 3 = false → l = [c] ∧ us = [] ∧ u.routers = t.routers) ∧
        (v.getLsbD 3 = true →
          (∀ x, x ∈ l ↔ (x < 128 ∧ domOn s x = true) ∨
            ((fld v 0 3 = 0 ∨ fld v 0 3 = 1 ∨ fld v 0 3 = 4) ∧ ∃ j, j < 2 ∧ x = 128 + j ∧ domOn s (pcieDom j) = true)) ∧
          (∀ y, y ∈ us ↔ ∃ x ∈ l, targetOf x = y) ∧
          u.routers = (us.foldl (fun w y => State.inject w (invHead c y ag.closed v)) t).routers)))) ∧
    (∀ i target, s.invals = [i] → i.by_ < 128 → target < 130 → target ∈ i.todo → i.v.getLsbD 3 = true → invPkt s i (targetOf target) = none →
      exec (.tlbInvalidationReceive i.by_ target) s = .next s) ∧
    (∀ i target, s.invals = [i] → i.by_ < 128 → target ∈ i.todo → i.v.getLsbD 3 = false ∨ invPkt s i (targetOf target) ≠ none →
      (target < 128 → s.f (R.PWR_CORE target) F.PWR_CORE_asleep = 0 → Leads (.tlbInvalidationReceive i.by_ target) s (fun u =>
        (∀ e, e ∈ (u.core target).dtlb ↔ e ∈ (s.core target).dtlb ∧ ¬removes i.v e) ∧
        (∀ e, e ∈ (u.core target).itlb ↔ e ∈ (s.core target).itlb ∧ ¬removes i.v e) ∧
        (∀ e, e ∈ (u.core target).l2tlb ↔ e ∈ (s.core target).l2tlb ∧ ¬removes i.v e) ∧
        (∀ c, c ≠ target → u.core c = s.core c) ∧ (∀ b, u.bank target b = s.bank target b) ∧
        u.regs = s.regs ∧ u.mem = s.mem ∧ ∃ m, u.invals = [{ i with todo := i.todo.filter (· ≠ target), marks := m }])) ∧
      (target < 128 → s.f (R.PWR_CORE target) F.PWR_CORE_asleep = 1 → Leads (.tlbInvalidationReceive i.by_ target) s (fun u =>
        target ∈ u.hub.tlbRec ∧ u.cores = s.cores ∧ u.regs = s.regs)) ∧
      (∀ j, j < 2 → target = 128 + j → Leads (.tlbInvalidationReceive i.by_ target) s (fun u =>
        (∀ e, e ∈ (u.pcie j).cache ↔ e ∈ (s.pcie j).cache ∧
          ¬(fld i.v 0 3 = 0 ∨ (fld i.v 0 3 = 1 ∧ e.tenant = fld i.v 4 9) ∨ (fld i.v 0 3 = 4 ∧ e.tenant = fld i.v 4 9 ∧ e.page = fld i.v 23 36 % 2 ^ 32))) ∧
        u.cores = s.cores ∧ u.regs = s.regs))) ∧
    (∀ i, s.invals = [i] → i.by_ < 128 → coreClocked s i.by_ = true → i.todo = [] → i.marks = [] → i.units = [] → i.await = [] →
      Leads (.tlbInvalidationAcknowledged i.by_) s (fun u => Sets { s with invals := [] } u [(R.MMU_INVS i.by_, F.MMU_INVS_busy, 0)]))

/-- The debug port (R25, R537, R538, R589). -/
def DebugPortAccess : Prop :=
  ∀ (s : State),
    (∀ v ans, debugRuns s = false → exec (.dbgxferUpdate v) s = .next s ∧ exec (.debugAccessAnswer ans) s = .next s) ∧
    (∀ v, s.dbg.busy = true ∨ v % 4 = 0 ∨ v % 4 = 3 → exec (.dbgxferUpdate v) s = .next s) ∧
    (∀ (v : Nat), debugRuns s = true → s.dbg.busy = false → v % 4 = 1 ∨ v % 4 = 2 →
      let lg := v / 4 % 4
      let closed := decide (v / 16 % 2 = 1)
      let pa := v / 32 % 2 ^ 44
      let m := (s.router 29).map
      let fails := fun (status : Nat) => Leads (.dbgxferUpdate v) s (fun u => u = { s with dbg := u.dbg } ∧ u.dbg.busy = false ∧ u.dbg.status = status ∧
        u.dbg.lastPa = pa ∧ u.dbg.lastLg = lg ∧ u.dbg.lastData = 0)
      (closed = true → authorised s 3 = false → fails 3) ∧
      (closed = false → addrClass pa = .dram → authorised s 1 = false → fails 3) ∧
      ((closed = true ∧ authorised s 3 = true) ∨ (closed = false ∧ authorised s 1 = true) →
        (pa % 2 ^ lg ≠ 0 ∨ decodeFails m closed (v % 4 = 2) pa = true → fails 2) ∧
        (pa % 2 ^ lg = 0 → decodeFails m closed (v % 4 = 2) pa = false → addrClass pa = .dram ∨ addrClass pa = .config →
          Leads (.dbgxferUpdate v) s (fun u => u.dbg.busy = true ∧ u.dbg.pa = pa ∧ u.dbg.lg = lg ∧ u.dbg.cw = closed ∧ (u.dbg.write = true ↔ v % 4 = 2) ∧
            u.dbg.tag = s.nextTag debugUnit ∧ u.dbg.late = s.ref + max 128 (s.f (R.NOC_CTL 29) F.NOC_CTL_rto) ∧ ∃ p, u = State.request { s with dbg := u.dbg } p ∧
            p.typ = (if addrClass pa = .dram then (if v % 4 = 1 then 7 else 8) else if v % 4 = 1 then 0xA else 0xB) ∧
            p.pa = pa ∧ p.size = lg ∧ p.closed = closed ∧ p.src = debugUnit ∧ p.dst = targetUnit m pa ∧
            ∀ k, k < 2 ^ lg → v % 4 = 2 → lineField p.data (pa % 64 + k) 1 = v / 2 ^ 49 / 2 ^ (8 * k) % 256)))) ∧
    (∀ ans, s.dbg.busy = false → exec (.debugAccessAnswer ans) s = .next s) ∧
    (∀ p ans, debugRuns s = true → s.dbg.busy = true → s.inbox = [p] → p.net = 0 → p.src = debugUnit → p.dst ≠ debugUnit → p.tag = s.dbg.tag →
      addrClass p.pa = .config → regRuns s (p.pa - 0xF0000000000) = true → ans ≠ .timeout →
      (p.typ = 0xA → s.dbg.write = false → Leads (.debugAccessAnswer ans) s (fun u =>
        u = (s.take p).answer p (.data (configRead s p.closed p.pa (2 ^ p.size))))) ∧
      (p.typ = 0xB → s.dbg.write = true → Leads (.debugAccessAnswer ans) s (fun u =>
        u = ((s.take p).regWrite (dbgAgent p.closed) (p.pa - 0xF0000000000) (2 ^ p.size) (lineField p.data (p.pa % 64) (2 ^ p.size))).answer p (.data 0)))) ∧
    (∀ p, debugRuns s = true → s.dbg.busy = true → s.inbox = [p] → p.dst = debugUnit → p.tag = s.dbg.tag → p.net = 1 →
      let ends := fun (status : Nat) (v : Word) (u : State) => u = { s.take p with dbg := u.dbg } ∧ u.dbg.busy = false ∧ u.dbg.status = status ∧ u.dbg.lastData = v
      (p.typ = 3 → s.dbg.write = false → Leads (.debugAccessAnswer (.data 0)) s (ends 0 (BitVec.ofNat 64 (p.data.toNat % 2 ^ (8 * 2 ^ s.dbg.lg))))) ∧
      (p.typ = 0 → s.dbg.write = true → Leads (.debugAccessAnswer (.data 0)) s (ends 0 0)) ∧
      (p.typ = 4 ∨ p.typ = 7 ∨ p.typ = 0xA → Leads (.debugAccessAnswer (.data 0)) s (ends 2 0))) ∧
    (debugRuns s = true → s.dbg.busy = true → (∀ q ∈ s.inbox, q.dst ≠ debugUnit) → s.dbg.late ≤ s.ref →
      Leads (.debugAccessAnswer .timeout) s (fun u => u = { s.loseTag debugUnit s.dbg.tag with dbg := u.dbg } ∧ u.dbg.busy = false ∧ u.dbg.status = 2))

/-- The measurement register `i` has taken in `v` (R449). -/
def measured (s u : State) (i : Nat) (v : List Byte) : Prop := ∀ k, k < 4 → u.reg (R.SEC_MEAS i k) = eight (sm3 (measBytes s i ++ v)) k

/-- The boot ROM stops: the code of the first failure in SEC_STAT, and no further issue (R442). -/
def BootStops (i : Instr) (s : State) (code : Nat) : Prop :=
  Leads i s (fun u => u.boot.stage = 12 ∧ u.f R.SEC_STAT F.SEC_STAT_boot = code ∧ (u.bank 112 0).st = .frozen ∧ u.mem = s.mem)

/-- A step of a catalogue fails: the other is tried from step 3, or, where the other has failed, the ROM stops with the first failure's code (R442). -/
def BootFails (i : Instr) (s : State) (code : Nat) : Prop :=
  (s.boot.failed = [] → s.boot.first = 0 → Leads i s (fun u => u.boot.stage = 3 ∧ u.boot.cat = 1 - s.boot.cat ∧ u.boot.failed = [s.boot.cat] ∧
    u.boot.first = code)) ∧
  (s.boot.failed ≠ [] → s.boot.first ≠ 0 → s.boot.first < 256 → BootStops i s s.boot.first)

/-- The boot (R320, R442 to R448). -/
def BootSteps : Prop :=
  ∀ (s : State) (a b : List Byte) (ok : Bool),
    let x := s.boot
    let i := Instr.boot a b ok
    let f := if x.cat = 0 then a else b
    let goes := fun (n : Nat) (y : Boot) (u : State) => u = { s with boot := { y with stage := n } }
    let cur := catEntry x.hdr x.entry
    let r := sub x.script (16 * x.rec_) 16
    (cutFenced s 1 = false →
    (x.stage = 1 → (s.sec.life ≠ 3 → Leads i s (goes 2 x)) ∧ (s.sec.life = 3 → x.first = 0 → BootStops i s 1)) ∧
    (x.stage = 2 → (ok = true → Leads i s (goes 3 x)) ∧ (ok = false → x.first = 0 → BootStops i s 2)) ∧
    (x.stage = 3 → x.failed = [] →
      (magicOk a = true → magicOk b = false → Leads i s (goes 4 { x with cat := 0 })) ∧
      (magicOk a = false → magicOk b = true → Leads i s (goes 4 { x with cat := 1 })) ∧
      (magicOk a = true → magicOk b = true → Leads i s (goes 4 { x with cat := if hdrVersion (flashBytes a 0 0x60) < hdrVersion (flashBytes b 0 0x60) then 1 else 0 })) ∧
      (magicOk a = false → magicOk b = false → x.first = 0 → BootStops i s 3)) ∧
    (x.stage = 4 → ∀ h, h = flashBytes f 0 (0x60 + 64 * min 32 (hdrN (flashBytes f 0 0x60))) →
      (∀ code, catalogueCheck s h (flashBytes f (hdrLen h) 64) = some code → BootFails i s code) ∧
      (hdrFormat h ≠ 1 ∨ hdrN h = 0 → BootFails i s 0x10) ∧
      (catalogueCheck s h (flashBytes f (hdrLen h) 64) = none →
        Leads i s (goes 5 { x with hdr := h, entry := 0, rec_ := 0, script := [], since := none, monitor := none }))) ∧
    (x.stage = 5 → Leads i s (fun u => u.boot = { x with stage := 6 } ∧ measured s u 0 (beBytes 32 Config.bootRomHash.toNat) ∧ measured s u 1 (sm3 x.hdr) ∧
      u.mem = s.mem)) ∧
    (x.stage = 6 → (hdrMode x.hdr = 0 → Leads i s (goes 7 { x with xmode := 0 })) ∧ (hdrMode x.hdr = 3 → BootFails i s 4) ∧
      (hdrMode x.hdr = 1 ∨ hdrMode x.hdr = 2 → (ok = true → flashBytes f 0 0x60 = sub x.hdr 0 0x60 → Leads i s (goes 7 { x with xmode := hdrMode x.hdr })) ∧
        (ok = false → BootFails i s 4))) ∧
    (x.stage = 7 →
      (x.script = [] → hdrN x.hdr ≤ x.entry → Leads i s (goes 8 x)) ∧
      (x.script = [] → x.entry < hdrN x.hdr → entType cur ≠ 4 →
        (∀ code, imageCheck s cur = some code → BootFails i s code) ∧
        (s.map.populated < entDest cur + entLen cur → BootFails i s 0x21) ∧
        (imageCheck s cur = none →
          let t := s.physPut (entDest cur) (flashBytes f (entSrc cur) (entLen cur))
          sm3 (physBytes t (entDest cur) (entLen cur)) = entHash cur → Leads i s (fun u => u.boot.stage = 7 ∧ u.boot.entry = x.entry + 1 ∧
            (entType cur = 1 → u.boot.monitor = some (entDest cur, entLen cur, entHash cur)) ∧ measured t u (entMeas cur) (entHash cur) ∧ u.mem = t.mem ∧
            u.cores = t.cores))) ∧
      (x.script = [] → x.entry < hdrN x.hdr → entType cur = 4 →
        let d := flashBytes f (entSrc cur) (entLen cur)
        (sm3 d = entHash cur → d ≠ [] → Leads i s (fun u => u.boot = { x with script := d, rec_ := 0, since := none } ∧ measured s u (entMeas cur) (entHash cur) ∧
          u.mem = s.mem)) ∧
        (sm3 d ≠ entHash cur → BootFails i s 0x25)) ∧
      (16 * x.rec_ + 16 ≤ x.script.length →
        (recOp r = 1 ∨ recOp r = 2 → scriptAddr (recAddr r) = false → BootFails i s 0x26) ∧
        (recOp r = 1 → scriptAddr (recAddr r) = true → regRuns s (recAddr r - 0xF0000000000) = true →
          Leads i s (fun u => u = (s.regWrite bootAgent (recAddr r - 0xF0000000000) 4 (recValue r)).setBoot (fun y => { y with rec_ := y.rec_ + 1, since := none }))) ∧
        (recOp r = 2 → scriptAddr (recAddr r) = true → regRuns s (recAddr r - 0xF0000000000) = true → s.hub.unread = [] →
          (configRead s true (recAddr r) 4 &&& recMask r = recValue r → Leads i s (goes 7 { x with rec_ := x.rec_ + 1, since := none })) ∧
          (configRead s true (recAddr r) 4 &&& recMask r ≠ recValue r → Leads i s (goes 7 { x with since := some (x.since.getD s.ref) }))) ∧
        (∀ e, recOp r = 3 → x.since = some e → (e + recValue r ≤ s.ref → Leads i s (goes 7 { x with rec_ := x.rec_ + 1, since := none })) ∧
          (s.ref < e + recValue r → exec i s = .next s)) ∧
        (∀ e, recOp r = 2 → configRead s true (recAddr r) 4 &&& recMask r ≠ recValue r → x.since = some e → e + 2500000 ≤ s.ref →
          BootFails .scriptPollTimeout s 0x27))) ∧
    (x.stage = 8 → (x.monitor ≠ none → Leads i s (goes 9 x)) ∧ (x.monitor = none → BootFails i s 0x28)) ∧
    (∀ d n h, x.stage = 9 → x.monitor = some (d, n, h) →
      (s.f (R.SEC_CW_CO 0) F.SEC_CW_CO_v = 0 ∨ s.f (R.SEC_CW_CO 0) F.SEC_CW_CO_size * 2 ^ 21 < n → BootFails i s 0x29) ∧
      (s.f (R.SEC_CW_CO 0) F.SEC_CW_CO_v = 1 → n ≤ s.f (R.SEC_CW_CO 0) F.SEC_CW_CO_size * 2 ^ 21 →
        let t := s.physPut (s.f (R.SEC_CW_CO 0) F.SEC_CW_CO_base * 2 ^ 24) (physBytes s d n)
        Leads i s (fun u => u.boot.stage = 10 ∧ u.f R.SEC_STAT F.SEC_STAT_cw_state = 1 ∧ u.f R.SEC_CW_CTL F.SEC_CW_CTL_bootlock = 1 ∧
          u.mem = t.mem ∧ ∀ k, k < 4 → u.reg (R.SEC_CW_GOLD k) = eight h k))) ∧
    (∀ d n h, x.stage = 10 → x.monitor = some (d, n, h) → Leads i s (fun u => u.boot.stage = 11 ∧ (u.bank 112 0).pc = BitVec.ofNat 64 d ∧
      (u.bank 112 0).depth = 0 ∧ (u.bank 112 0).psw.world = true ∧ (u.bank 112 0).psw.pl = 3 ∧ u.sec.version = hdrVersion x.hdr ∧ u.regs = s.regs ∧ u.mem = s.mem)) ∧
    (11 ≤ x.stage → exec i s = .next s)) ∧
    (cutFenced s 1 = true → (x.stage = 2 → x.first = 0 → BootStops i s 2) ∧ (x.stage = 3 → x.first = 0 → BootStops i s 3)) ∧
    (∀ p, p ∈ s.inbox → p.net = 0 → p.typ = 7 ∨ p.typ = 0xA → p.dst = xspiUnit → Leads (.xspiReadTimeout p) s (fun u => u.boot = { x with xbad := true } ∧
      u.inbox = dropFirst (fun q => q = p) s.inbox ∧ u.regs = s.regs ∧ u.mem = s.mem ∧
      ∃ q, q.net = 1 ∧ q.typ = 4 ∧ q.tag = p.tag ∧ q.src = xspiUnit ∧ q.dst = p.src ∧ u.routers = (s.inject q).routers))
end Sys2Proof.Claims

/-- REGISTER_WRITE writes a register by address, and MMU_INV, TLB_INVALIDATION_RECEIVE and TLB_INVALIDATION_ACKNOWLEDGED remove translations (R8 to R15, R203, R211, R212). -/
def Obligations.RegistersAndTranslations : Prop := Claims.RegisterWrites ∧ Claims.Invalidations

/-- The debug port and the boot: DBGXFER_UPDATE, DEBUG_ACCESS_ANSWER, BOOT, SCRIPT_POLL_TIMEOUT and XSPI_READ_TIMEOUT have their effect (R442 to R448, R537, R538, R589). -/
def Obligations.DebugPortAndBoot : Prop := Claims.DebugPortAccess ∧ Claims.BootSteps

namespace Sys2Proof.Claims
/-- A status of the hub's registers is noted: one other than IN_PROGRESS and DONE is unread (R518). -/
def noted (t : State) (a v : Nat) : State := { t with hub := { t.hub with unread := (if v = 0 ∨ v = 1 then [] else [a]) ++ t.hub.unread.filter (· ≠ a) } }

/-- Requests for the state of a power domain, and their end (R461, R494 to R499, R518). -/
def PowerDomains : Prop :=
  ∀ (s : State) (d : Nat), d < 218 →
    let a := R.PWR_DOM d
    let st := s.f a F.PWR_DOM_state
    (∀ ag, Written s .pwr a ag →
      let t := acked s ag a
      let stat_ := fun (v : Nat) (u : State) => Sets (noted t a v) u [(a, F.PWR_DOM_status, v)]
      let begins := fun (cmd state : Nat) (u : State) =>
        Sets { noted t a 0 with hub := { (noted t a 0).hub with seqs := mset s.hub.seqs d { cmd := cmd } } } u [(a, F.PWR_DOM_state, state), (a, F.PWR_DOM_status, 0)]
      let free := (∀ q ∈ s.hub.seqs, q.1 ≠ d) ∧ (d < 128 → inPair s d = false)
      let unheld := ag.closed = true ∨ heldTarget s d = none
      ((∃ q ∈ s.hub.seqs, q.1 = d) → Leads (.powerUp ag d) s (stat_ 5) ∧ Leads (.powerDown ag d) s (stat_ 5) ∧ Leads (.powerDownRetention ag d) s (stat_ 5)) ∧
      (free → d < 128 → s.f (R.PWR_DOM (128 + d / 8)) F.PWR_DOM_state ≠ 2 → Leads (.powerUp ag d) s (stat_ 3)) ∧
      (free → depBreaks s d 1 = false → st ≠ 2 → Leads (.powerUp ag d) s (begins 1 1)) ∧
      (free → depBreaks s d 1 = false → st = 2 → Leads (.powerUp ag d) s (stat_ 1)) ∧
      (free → unheld → depBreaks s d 2 = false → st ≠ 0 → Leads (.powerDown ag d) s (begins 2 3)) ∧
      (free → unheld → depBreaks s d 2 = false → st = 0 → Leads (.powerDown ag d) s (stat_ 1)) ∧
      (free → unheld → 128 ≤ d → d < 144 → (∃ c, c / 8 = d - 128 ∧ s.f (R.PWR_DOM c) F.PWR_DOM_state ≠ 0) → Leads (.powerDown ag d) s (stat_ 3)) ∧
      (free → ag.closed = false → ag.tenant < 512 → ag.router < 64 → cwHeld s false d = true → s.f R.SEC_CW_DENY F.SEC_CW_DENY_valid = 0 →
        Leads (.powerDown ag d) s (fun u =>
          Sets (noted t a 2) u [(R.SEC_CW_DENY, F.SEC_CW_DENY_target, d), (R.SEC_CW_DENY, F.SEC_CW_DENY_requester, ag.router),
            (R.SEC_CW_DENY, F.SEC_CW_DENY_tenant, ag.tenant), (R.SEC_CW_DENY, F.SEC_CW_DENY_reg, a), (R.SEC_CW_DENY, F.SEC_CW_DENY_kind, 0),
            (R.SEC_CW_DENY, F.SEC_CW_DENY_valid, 1), (a, F.PWR_DOM_status, 2)])) ∧
      (free → unheld → depBreaks s d 3 = false → ¬(160 ≤ d ∧ d < 168) → Leads (.powerDownRetention ag d) s (stat_ 6)) ∧
      (free → unheld → depBreaks s d 3 = false → 160 ≤ d → d < 168 → st ≠ 0 → st ≠ 4 → Leads (.powerDownRetention ag d) s (begins 3 3))) ∧
    ((∀ q ∈ s.hub.seqs, q.1 ≠ d) → exec (.powerSequenceDone d) s = .next s) ∧
    (∀ q : PSeq, s.hub.seqs = [(d, q)] →
      let ended := fun (state : Nat) (u : State) => u.f a F.PWR_DOM_state = state ∧ u.f a F.PWR_DOM_status = 1 ∧ u.hub.seqs = [] ∧
        (∀ i, domIsland d = some i → u.f (R.CLK_ISL i) F.CLK_ISL_locked = if state = 2 then 1 else 0)
      let m := s.f (R.CLK_CORE d) F.CLK_CORE_mult
      (q.cmd = 1 → Leads (.powerSequenceDone d) s (fun u => ended 2 u ∧ u.mem = s.mem ∧
        (d < 128 → (u.core d).map = s.map ∧ (∀ b, u.bank d b = s.bank d b) ∧
          (vSteps m + 5 ≤ s.f R.PWR_RAIL F.PWR_RAIL_cur → u.f (R.CLK_CORE d) F.CLK_CORE_cur = m ∧ u.f (R.PWR_CORE d) F.PWR_CORE_vreq = vSteps m) ∧
          (s.f R.PWR_RAIL F.PWR_RAIL_cur < vSteps m + 5 → u.f (R.CLK_CORE d) F.CLK_CORE_cur = 16 ∧ u.f (R.CLK_CORE d) F.CLK_CORE_status = 3)))) ∧
      (q.cmd = 2 → d < 128 → (s.core d).move = none → (∀ b, b < 8 → (s.bank d b).st = .empty) → (s.core d).wb = [] → Leads (.powerSequenceDone d) s (fun u => ended 0 u ∧
        (u.core d).l1d = [] ∧ (u.core d).l1i = [] ∧ (u.core d).dtlb = [] ∧ (u.core d).itlb = [] ∧ u.mem = s.mem)) ∧
      (q.cmd = 2 → 144 ≤ d → ¬(160 ≤ d ∧ d < 168) → Leads (.powerSequenceDone d) s (fun u => ended 0 u ∧ u.mem = s.mem ∧ u.cores = s.cores)) ∧
      (q.cmd = 2 → 160 ≤ d → d < 168 → Leads (.powerSequenceDone d) s (fun u => ended 0 u ∧ u.chan (d - 160) = {} ∧ u.cores = s.cores ∧
        u.mem = s.mem.filter (fun c => !(decide (64 * (c.1 / 64) < s.map.populated) && decide (channelOf s.map (c.1 / 64) = d - 160))))) ∧
      (q.cmd = 2 → 128 ≤ d → d < 144 → Leads (.powerSequenceDone d) s (fun u => ended 0 u ∧ (u.cluster (d - 128)).l2 = [])) ∧
      (q.cmd = 3 → 160 ≤ d → d < 168 → Leads (.powerSequenceDone d) s (fun u => ended 4 u ∧ u.chan (d - 160) = { s.chan (d - 160) with wq := [] } ∧ u.mem = s.mem))) ∧
    (∀ m, m < 8 → d = 160 + m → st = 4 → (∃ p ∈ s.inbox, p.dst = dramUnit m) → (∀ q ∈ s.hub.seqs, q.1 ≠ d) → Leads (.retentionWake m) s (fun u =>
      Sets { s with hub := { s.hub with seqs := mset s.hub.seqs d { cmd := 1 } } } u [(a, F.PWR_DOM_state, 1)]))

/-- Core frequency, the rail, clock gates, locks, idle sleep and wake, and status reads (R501 to R507, R518, R573). -/
def ClocksAndRail : Prop :=
  ∀ (s : State) (ag : Agent),
    (∀ c v, c < 128 → v < 128 → Written s .clk (R.CLK_CORE c) ag →
      let a := R.CLK_CORE c
      let t := acked s ag a
      let stat_ := fun (n : Nat) (u : State) => Sets (noted t a n) u [(a, F.CLK_CORE_status, n)]
      let busy := s.f a F.CLK_CORE_busy = 1
      let lit := s.f (R.PWR_DOM c) F.PWR_DOM_state = 2
      (v < 16 ∨ 80 < v → Leads (.coreFrequencyChange ag c v) s (fun u => u = t)) ∧
      (16 ≤ v → v ≤ 80 → busy → Leads (.coreFrequencyChange ag c v) s (stat_ 5)) ∧
      (16 ≤ v → v ≤ 80 → ¬busy → s.f (R.PWR_DOM c) F.PWR_DOM_state = 0 → Leads (.coreFrequencyChange ag c v) s (fun u => Sets t u [(a, F.CLK_CORE_mult, v)])) ∧
      (16 ≤ v → v ≤ 80 → ¬busy → lit → isChecker s c = true → Leads (.coreFrequencyChange ag c v) s (stat_ 4)) ∧
      (16 ≤ v → v ≤ 80 → ¬busy → lit → isChecker s c = false → s.f R.PWR_RAIL F.PWR_RAIL_cur < vSteps v + 5 → Leads (.coreFrequencyChange ag c v) s (stat_ 3)) ∧
      (16 ≤ v → v ≤ 80 → ¬busy → lit → isChecker s c = false → vSteps v + 5 ≤ s.f R.PWR_RAIL F.PWR_RAIL_cur →
        Leads (.coreFrequencyChange ag c v) s (fun u => Sets (noted t a 0) u [(a, F.CLK_CORE_mult, v), (a, F.CLK_CORE_busy, 1), (a, F.CLK_CORE_status, 0)]))) ∧
    (∀ c, c < 128 → s.f (R.CLK_CORE c) F.CLK_CORE_busy = 1 → (s.f (pairReg c) F.SAFE_PAIR_formed).testBit (c % 8 / 2) = false →
      let a := R.CLK_CORE c
      let w := R.PWR_CORE c
      let v := s.f w F.PWR_CORE_vreq
      let m := s.f a F.CLK_CORE_cur
      let goal := s.f a F.CLK_CORE_mult
      let moves := fun (v' m' : Nat) => Leads (.coreFrequencyStep c) s (fun u => Sets s u [(w, F.PWR_CORE_vreq, v'), (a, F.CLK_CORE_cur, m')])
      (v < vSteps goal → moves (v + 1) m) ∧ (vSteps goal ≤ v → m < goal → moves v (m + 1)) ∧ (vSteps goal ≤ v → goal < m → moves v (m - 1)) ∧
      (vSteps goal < v → m = goal → moves (v - 1) m) ∧
      (v = vSteps goal → m = goal → Leads (.coreFrequencyStep c) s (fun u => Sets (noted s a 1) u [(a, F.CLK_CORE_busy, 0), (a, F.CLK_CORE_status, 1)]))) ∧
    (∀ v, v < 32 → Written s .pwr R.PWR_RAIL ag → s.f R.PWR_RAIL F.PWR_RAIL_busy = 0 →
      let t := acked s ag R.PWR_RAIL
      let low := 25 < v ∨ ∃ c, c < 128 ∧ s.f (R.PWR_DOM c) F.PWR_DOM_state = 2 ∧ v < vSteps (s.f (R.CLK_CORE c) F.CLK_CORE_mult) + 5
      (low → Leads (.railChange ag v) s (fun u => Sets t u [(R.PWR_RAIL, F.PWR_RAIL_err, 1)])) ∧
      (¬low → Leads (.railChange ag v) s (fun u => Sets { t with hub := { s.hub with rail := some (v, 0), ackAt := none } } u
        [(R.PWR_RAIL, F.PWR_RAIL_vcore, v), (R.PWR_RAIL, F.PWR_RAIL_busy, 1)]))) ∧
    (∀ v n, s.hub.rail = some (v, n) →
      (s.hub.ackAt = none → Leads (.pmicAnswer true) s (fun u => u = { s with hub := { s.hub with ackAt := some s.ref } })) ∧
      (s.hub.ackAt = none → n < 2 → Leads (.pmicAnswer false) s (fun u => u = { s with hub := { s.hub with rail := some (v, n + 1) } })) ∧
      (s.hub.ackAt = none → n = 2 → Leads (.pmicAnswer false) s (fun u => Sets { s with hub := { s.hub with rail := none } } u
        [(R.PWR_RAIL, F.PWR_RAIL_busy, 0), (R.PWR_RAIL, F.PWR_RAIL_err, 1)])) ∧
      (∀ e, s.hub.ackAt = some e → v < 32 → e + s.f R.PWR_RAIL F.PWR_RAIL_settle ≤ s.ref → Leads .railSettled s (fun u =>
        Sets { s with hub := { s.hub with rail := none, ackAt := none } } u [(R.PWR_RAIL, F.PWR_RAIL_cur, v), (R.PWR_RAIL, F.PWR_RAIL_busy, 0)])) ∧
      (∀ e, s.hub.ackAt = some e → s.ref < e + s.f R.PWR_RAIL F.PWR_RAIL_settle → exec .railSettled s = .next s)) ∧
    (∀ i, i < 205 →
      let a := R.CLK_ISL i
      (∀ g, Written s .clk a ag →
        let t := acked s ag a
        (gateable i = true → g = false ∨ ag.closed = true ∨ cwHeld s true i = false → Leads (.clockGate ag i g) s (fun u =>
          Sets (noted t a 1) u [(a, F.CLK_ISL_gate, if g then 1 else 0), (a, F.CLK_ISL_status, 1)])) ∧
        (gateable i = true → g = true → ag.closed = false → cwHeld s true i = true → Leads (.clockGate ag i g) s (fun u => u.f a F.CLK_ISL_status = 2 ∧
          u.f a F.CLK_ISL_gate = s.f a F.CLK_ISL_gate ∧ u.mem = s.mem)) ∧
        ((160 ≤ i ∧ i < 190) ∨ i = 200 ∨ i = 201 ∨ i = 204 → Leads (.clockGate ag i g) s (fun u => u = t))) ∧
      (s.f a F.CLK_ISL_locked = 1 → Leads (.lossOfLock i) s (fun u =>
        Sets { s with hub := { s.hub with lolAt := mset s.hub.lolAt i s.ref } } u [(a, F.CLK_ISL_locked, 0), (a, F.CLK_ISL_lol, 1)]))) ∧
    (∀ c, c < 128 →
      let a := R.PWR_CORE c
      (coreClocked s c = true → s.f a F.PWR_CORE_ig_en = 1 → coreIdle s c = true → (s.core c).idle + max 1 (s.f a F.PWR_CORE_idle_dly) ≤ (s.core c).cyc → c ∉ s.icu.wake →
        Leads (.idleSleep c) s (fun u => u.f a F.PWR_CORE_asleep = 1 ∧ (u.core c).l1d = [] ∧ (u.core c).l1i = [] ∧ (u.core c).dtlb = (s.core c).dtlb ∧
          (∀ b, u.bank c b = s.bank c b) ∧ u.mem = s.mem)) ∧
      (coreClocked s c = true → s.f a F.PWR_CORE_ig_en = 0 → exec (.idleSleep c) s = .next s) ∧
      (unitRuns s c c = true → s.f a F.PWR_CORE_asleep = 1 → c ∈ s.icu.wake → Leads (.coreWake c) s (fun u => u.f a F.PWR_CORE_asleep = 0 ∧ c ∉ u.icu.wake ∧
        (c ∈ s.hub.tlbRec → (u.core c).dtlb = [] ∧ (u.core c).itlb = [] ∧ (u.core c).l2tlb = []) ∧
        (c ∉ s.hub.tlbRec → (u.core c).dtlb = (s.core c).dtlb ∧ (u.core c).itlb = (s.core c).itlb) ∧ u.mem = s.mem))) ∧
    (∀ addr, Leads (.powerClockStatusRead addr) s (fun u => u = { s with hub := { s.hub with unread := s.hub.unread.filter (· ≠ addr) } }))

/-- Resets, and the drains before them (R226, R477, R484, R511 to R515, R518). -/
def ResetEffects : Prop :=
  ∀ (s : State) (ag : Agent),
    let noStores := ∀ c, c < 128 → (s.core c).wb = []
    let rec_ := fun (u : State) (cause target src : Nat) => u.f R.RST_REC F.RST_REC_cause = cause ∧ u.f R.RST_REC F.RST_REC_target = target % 128 ∧
      u.f R.RST_REC F.RST_REC_src = src % 64 ∧ u.f R.RST_RECT F.RST_RECT_ticks = s.ref % 2 ^ 48
    let kept := fun (u : State) => u.sec.life = s.sec.life ∧ u.sec.dus = s.sec.dus ∧ u.sec.roots = s.sec.roots ∧ u.sec.rollback = s.sec.rollback ∧
      u.icu.pins = s.icu.pins ∧ u.pending = s.pending
    let boots := fun (u : State) => u.mem = [] ∧ u.cores = [] ∧ (u.bank 112 0).st = .run ∧ (u.bank 112 0).pc = 0xFFFFFF00000#64 ∧ kept u
    (∀ aon, aon = none ∨ (∃ v, aon = some v ∧ v < 700) → Leads (.coldReset aon) s (fun u => boots u ∧ u.regs = State.reset.regs ∧ u.ref = 0)) ∧
    (∀ v, 700 ≤ v → exec (.coldReset (some v)) s = .next s) ∧
    (∀ v, noStores → Leads (.warmChipReset true ag v) s (fun u => boots u ∧ rec_ u 2 0 0x3F ∧ u.ref = s.ref ∧
      ∀ h, h < 2 → u.f (R.SAFE_STAT h) F.SAFE_STAT_level = 0 ∧ u.f (R.SAFE_TIME h) F.SAFE_TIME_ticks = s.f (R.SAFE_TIME h) F.SAFE_TIME_ticks)) ∧
    (∀ v, Written s .rst R.RST_CTL ag →
      (noStores → v.getLsbD 0 = true → fld v 8 8 = 0xA5 → Leads (.warmChipReset false ag v) s (fun u => boots u ∧ rec_ u 1 0 ag.router ∧
        u.f R.RST_REC F.RST_REC_pl = ag.pl.toNat ∧ u.f R.RST_REC F.RST_REC_world = if ag.closed then 1 else 0)) ∧
      (fld v 8 8 ≠ 0xA5 → Leads (.warmChipReset false ag v) s (fun u => u = acked s ag R.RST_CTL))) ∧
    (Written s .rst R.RST_CMD ag → s.f R.RST_CMDSTAT F.RST_CMDSTAT_rstat = 0 →
      ∀ n, Leads (.clusterReset ag n) s (fun u => u = acked s ag R.RST_CMD) ∧ Leads (.coreReset ag n) s (fun u => u = acked s ag R.RST_CMD) ∧
        Leads (.tenantReset ag n) s (fun u => u = acked s ag R.RST_CMD)) ∧
    (Written s .rst R.RST_CMD ag → s.f R.RST_CMDSTAT F.RST_CMDSTAT_rstat ≠ 0 →
      let a := R.RST_CMDSTAT
      let refused := fun (why : Nat) (u : State) => Sets (acked s ag R.RST_CMD) u [(a, whole, 3 + 4 * why)]
      let fresh := fun (u : State) (c : Nat) => (u.core c).l1d = [] ∧ (u.core c).l1i = [] ∧ (u.core c).dtlb = [] ∧ (u.core c).cyc = (s.core c).cyc ∧
        ∀ b, b < 8 → (u.bank c b).st = .empty ∧ (u.bank c b).thread = none ∧ (u.bank c b).depth = 0
      (∀ q, q < 16 → formedIn s q = true → Leads (.clusterReset ag q) s (refused 2)) ∧
      (∀ q, q < 16 → formedIn s q = false → noStores → Leads (.clusterReset ag q) s (fun u => u.reg a = 1 ∧ rec_ u 5 q ag.router ∧ (u.cluster q).l2 = [] ∧
        (∀ c, clusterOf c = q → fresh u c) ∧ ∀ n, n < 256 → u.f (R.SCHED_THR_A q n) F.SCHED_THR_A_valid = 0)) ∧
      (∀ q, q < 16 → formedIn s q = false → (∃ c, clusterOf c = q ∧ (s.core c).wb ≠ []) → Leads (.clusterReset ag q) s (fun u => u.reg a = 0 ∧
        (∃ r, u.hub.resets = s.hub.resets ++ [r] ∧ r.cause = 5 ∧ r.target = q ∧ r.wait = (clusterCores q).filter (fun c => (s.core c).wb ≠ [])) ∧
        ∀ c, clusterOf c = q → powered s c = true → (u.core c).drain ≠ none ∧ (u.core c).wb = (s.core c).wb)) ∧
      (∀ c, c < 128 → (s.f (pairReg c) F.SAFE_PAIR_formed).testBit (c % 8 / 2) = true → Leads (.coreReset ag c) s (refused 2)) ∧
      (∀ c, c < 128 → (s.f (pairReg c) F.SAFE_PAIR_formed).testBit (c % 8 / 2) = false → noStores → Leads (.coreReset ag c) s (fun u =>
        u.reg a = 1 ∧ rec_ u 6 c ag.router ∧ fresh u c ∧
        ∀ b n, b < 8 → (s.bank c b).thread = some n → n < 256 → u.f (R.SCHED_THR_B (clusterOf c) n) F.SCHED_THR_B_state = 6 ∧
          u.f (R.SCHED_THR_B (clusterOf c) n) F.SCHED_THR_B_ferr = 1)) ∧
      Leads (.tenantReset ag 0) s (refused 1) ∧
      (∀ n, n ≠ 0 → n < 512 → Leads (.tenantReset ag n) s (fun u => u.reg a = 1 ∧
        (∀ k i, k < 16 → i < 256 → thrState s k i ≠ 0 → thrTenant s k i = n → u.f (R.SCHED_THR_B k i) F.SCHED_THR_B_state = 0 ∧
          u.f (R.SCHED_THR_A k i) F.SCHED_THR_A_valid = 0) ∧
        ∀ q, q < 8 → u.f (R.MEQ_QP_STAT n q) F.MEQ_QP_STAT_state = 0))) ∧
    (∀ c x, c < 128 → (s.core c).drain = some x → s.hub.resets = [] → (∀ e ∈ (s.core c).wb, e.kind = .normal) →
      ((s.core c).wb = [] ∨ x ≤ s.ref → Leads (.writeBufferDrainEnd c) s (fun u => (u.core c).wb = [] ∧ u.mem = s.mem ∧
        u.f R.RST_LOSTN F.RST_LOSTN_count = min 0xFFFF (s.f R.RST_LOSTN F.RST_LOSTN_count + (s.core c).wb.length) ∧
        (∀ e, (s.core c).wb = [e] → e.pa < 2 ^ 44 → e.tenant < 512 → s.f (R.RST_LOST 0) F.RST_LOST_valid = 0 → u.f (R.RST_LOST 0) F.RST_LOST_valid = 1 ∧
          u.f (R.RST_LOST 0) F.RST_LOST_pa = e.pa ∧ u.f (R.RST_LOST 0) F.RST_LOST_tenant = e.tenant ∧ u.f (R.RST_LOST 0) F.RST_LOST_kind = 2))) ∧
      ((s.core c).wb ≠ [] → s.ref < x → exec (.writeBufferDrainEnd c) s = .next s))
end Sys2Proof.Claims

/-- Power, clocks and resets: POWER_UP, POWER_DOWN, POWER_DOWN_RETENTION, POWER_SEQUENCE_DONE, RETENTION_WAKE, CORE_FREQUENCY_CHANGE,
CORE_FREQUENCY_STEP, RAIL_CHANGE, PMIC_ANSWER, RAIL_SETTLED, CLOCK_GATE, LOSS_OF_LOCK, IDLE_SLEEP, CORE_WAKE, POWER_CLOCK_STATUS_READ; COLD_RESET,
WARM_CHIP_RESET, CLUSTER_RESET, CORE_RESET, TENANT_RESET and WRITE_BUFFER_DRAIN_END (R226, R494 to R518, R573). That a refused core or cluster number
changes nothing, and that contents of DRAM read as zero after a chip reset, are the model's (logs 2 and 51). -/
def Obligations.PowerClocksAndResets : Prop := PowerDomains ∧ ClocksAndRail ∧ ResetEffects

namespace Sys2Proof.Claims
/-- What an event with a kind leaves in PCIE_ERR: the record, or over where one stands (R237). -/
def pcieRecord (s : State) (j kind addr tenant : Nat) : List (Nat × Fld × Nat) :=
  let a := R.PCIE_ERR j
  if s.f a F.PCIE_ERR_valid = 1 then [(a, F.PCIE_ERR_over, 1)]
  else [(a, F.PCIE_ERR_addr, addr), (a, F.PCIE_ERR_kind, kind), (a, F.PCIE_ERR_tenant, tenant), (a, F.PCIE_ERR_valid, 1)]

/-- A counter of a controller gains `n`. -/
def pcieGains (s : State) (j i n : Nat) : Nat × Fld × Nat := (R.PCIE_CNT j i, F.PCIE_CNT_count, s.f (R.PCIE_CNT j i) F.PCIE_CNT_count + n)

/-- A bit of PCIE_IRQ is set. -/
def pcieFlag (j b : Nat) : Nat × Fld × Nat := (R.PCIE_IRQ j, ⟨b, 1⟩, 1)

/-- A controller becomes `y`. -/
def withPcie (s : State) (j : Nat) (y : Pcie) : State := { s with pcies := mset s.pcies j y }

/-- The states of a PCI Express controller, its link and its translation table (R229 to R231, R237). -/
def PcieStates : Prop :=
  (∀ (s : State) (j : Nat) (ag : Agent), j < 2 → routerRuns s (pcieUnit j / 4) = true → Written s .pcie (R.PCIE_CTL j) ag →
    s.f (R.PCIE_STAT j) F.PCIE_STAT_state = 0 → domOn s (pcieDom j) = false →
    Leads (.pcieResume ag j) s (fun u => Sets (acked s ag (R.PCIE_CTL j)) u [(R.PCIE_STAT j, F.PCIE_STAT_reason, 1)])) ∧
  ∀ (s : State) (j : Nat), j < 2 → pcieRuns s j = true →
    let a := R.PCIE_STAT j
    let x := s.pcie j
    let endpoint := s.f (R.PCIE_CFG j) F.PCIE_CFG_role = 1
    let st := s.f a F.PCIE_STAT_state
    let sp := s.f (R.PCIE_CFG j) F.PCIE_CFG_maxspeed
    (∀ ag, Written s .pcie (R.PCIE_CTL j) ag →
      let t := acked s ag (R.PCIE_CTL j)
      (st ≠ 0 → Leads (.pcieResume ag j) s (fun u => u = t)) ∧
      (st = 0 → domOn s (pcieDom j) = true → sp = 0 ∨ 5 < sp → Leads (.pcieResume ag j) s (fun u => Sets t u [(a, F.PCIE_STAT_reason, 2)])) ∧
      (st = 0 → pcieReason s j ≠ 0 → Leads (.pcieResume ag j) s (fun u => Sets t u [(a, F.PCIE_STAT_reason, pcieReason s j)])) ∧
      (st = 0 → pcieReason s j = 0 → Leads (.pcieResume ag j) s (fun u =>
        Sets (withPcie t j (if endpoint then x else { x with perst := false, perstAt := s.ref + 2500000 })) u [(a, F.PCIE_STAT_state, 1)])) ∧
      (st = 1 → Leads (.pcieStop ag j) s (fun u => u.f a F.PCIE_STAT_state = 2 ∧ (u.pcie j).out = [] ∧ u.mem = s.mem ∧
        (∀ q ∈ (u.pcie j).inb, q.cut = true ∧ ∀ l ∈ q.lines, l.tag ≠ none ∧ l.done = false) ∧
        (u.pcie j).rxq = [] ∧ let reads := (x.inb.map (fun q => q.tlp) ++ x.rxq).filter (fun q => !q.write)
        (reads ≠ [] → (u.pcie j).tx = reads.map (fun q => .completion q.tag 4 false [])))) ∧
      (st ≠ 1 → Leads (.pcieStop ag j) s (fun u => u = t))) ∧
    (st = 2 → x.inb = [] → Leads (.pcieStopComplete j) s (fun u =>
      Sets (withPcie s j { x with
        perst := false, command := 0, bars := [], msiEn := false, msiLog := 0, msiAddr := 0, msiData := 0, power := 0, caps := [] }) u
        ((if s.f a F.PCIE_STAT_link = 1 then [pcieFlag j 0] else []) ++
          [(a, F.PCIE_STAT_state, 0), (a, F.PCIE_STAT_link, 0), (a, F.PCIE_STAT_speed, 0), (a, F.PCIE_STAT_width, 0)]))) ∧
    (st = 2 → x.inb ≠ [] → exec (.pcieStopComplete j) s = .next s) ∧
    (st = 1 → ¬endpoint → x.perstAt ≤ s.ref → Leads (.perstRelease j) s (fun u => u = withPcie s j { x with perst := true })) ∧
    (st = 1 → ¬endpoint → s.ref < x.perstAt → exec (.perstRelease j) s = .next s) ∧
    (endpoint → st = 1 → Leads (.perstFall j) s (fun u => u.f a F.PCIE_STAT_state = 2 ∧ (u.pcie j).perstIn = false ∧ (u.pcie j).out = [])) ∧
    (¬endpoint → Leads (.perstFall j) s (fun u => u = withPcie s j { x with perstIn := false })) ∧
    Leads (.perstRise j) s (fun u => u = withPcie s j { x with perstIn := true }) ∧
    (¬endpoint → Leads (.wakeFall j) s (fun u => Sets s u [pcieFlag j 0])) ∧ (endpoint → exec (.wakeFall j) s = .next s) ∧
    (∀ speed width, st = 1 → s.f a F.PCIE_STAT_link = 0 → (if endpoint then x.perstIn else x.perst) = true → 1 ≤ speed → speed ≤ sp →
      width ≤ s.f (R.PCIE_CFG j) F.PCIE_CFG_maxwidth → Leads (.pcieLinkChange j true speed width) s (fun u => Sets s u
        [(a, F.PCIE_STAT_link, 1), (a, F.PCIE_STAT_speed, speed), (a, F.PCIE_STAT_width, width), pcieFlag j 0])) ∧
    (∀ speed width, s.f a F.PCIE_STAT_link = 1 → Leads (.pcieLinkChange j false speed width) s (fun u => u.f a F.PCIE_STAT_link = 0 ∧
      u.f a F.PCIE_STAT_speed = 0 ∧ u.f a F.PCIE_STAT_width = 0 ∧ u.f (R.PCIE_IRQ j) ⟨0, 1⟩ = 1 ∧ (u.pcie j).out = [] ∧ u.mem = s.mem)) ∧
    (∀ ag e (v : Word), e < 512 → Written s .pcie (R.PCIE_ATT0 j e) ag →
      let b := R.PCIE_ATT0 j e
      let t := acked s ag b
      let w := v.toNat % 2 ^ 22
      (st = 0 → Leads (.pcieAttEntryWrite ag j e v) s (fun u => Sets t u [(b, whole, w)])) ∧
      (st ≠ 0 → s.f b F.PCIE_ATT0_v = 1 → Leads (.pcieAttEntryWrite ag j e v) s (fun u => Sets t u [(b, F.PCIE_ATT0_v, fld v 0 1)])) ∧
      (st ≠ 0 → s.f b F.PCIE_ATT0_v = 0 → fld v 0 1 = 0 ∨ attOk (t.setReg b (BitVec.ofNat 64 w)) j e = true →
        Leads (.pcieAttEntryWrite ag j e v) s (fun u => Sets t u [(b, whole, w)])) ∧
      (st ≠ 0 → s.f b F.PCIE_ATT0_v = 0 → fld v 0 1 = 1 → attOk (t.setReg b (BitVec.ofNat 64 w)) j e = false →
        Leads (.pcieAttEntryWrite ag j e v) s (fun u => Sets t u [(b, ⟨1, 63⟩, w / 2), (b, F.PCIE_ATT0_v, 0), (a, F.PCIE_STAT_att_err, 1), (a, F.PCIE_STAT_att_idx, e)])))

/-- Outbound requests and their completions (R232, R237). -/
def PcieOutbound : Prop :=
  ∀ (s : State) (j : Nat), j < 2 → pcieRuns s j = true →
    let x := s.pcie j
    let running := s.f (R.PCIE_STAT j) F.PCIE_STAT_state = 1
    let cto := max 1 (s.f (R.PCIE_CFG j) F.PCIE_CFG_cto) * 64
    (∀ p : Pkt,
      let o := windowOff j p.pa
      let refused := (s.take p).answer p .decodeError
      let mayMaster := s.f (R.PCIE_CFG j) F.PCIE_CFG_role = 0 ∨ (x.command.getLsbD 2 = true ∧ x.power ≠ 3)
      (¬running → Leads (.pcieOutboundRequest j p) s (fun u => u = refused)) ∧
      (running → outEntry s j p.tenant o = none → Leads (.pcieOutboundRequest j p) s (fun u => Sets refused u (pcieFlag j 3 :: pcieRecord s j 4 o p.tenant))) ∧
      (∀ e, running → outEntry s j p.tenant o = some e →
        let b := R.PCIE_ATT0 j e
        let base := s.f (R.PCIE_ATT1 j e) F.PCIE_ATT1_local * 4096
        let off := o - base
        let remote := s.f (R.PCIE_ATT2 j e) F.PCIE_ATT2_remote * 4096
        let ro := decide (s.f b F.PCIE_ATT0_ro = 1)
        let tc := s.f b F.PCIE_ATT0_tc
        let keeps := fun (cfg : Bool) (l : LinkTx) (u : State) =>
          Sets (withPcie (s.take p) j { x with out := x.out ++ [⟨p, o, cfg, s.ref + cto, l⟩], tx := [l] }) u [pcieGains s j 1 1]
        (¬mayMaster → Leads (.pcieOutboundRequest j p) s (fun u => u = refused)) ∧
        (mayMaster → outWaits s j p = true → exec (.pcieOutboundRequest j p) s = .next s) ∧
        (mayMaster → outWaits s j p = false → s.f b F.PCIE_ATT0_kind = 0 →
          (isWrite p = true →
            let tlps := (writtenRuns p).map (fun w =>
              LinkTx.memory { write := true, addr := remote + (windowOff j w.1 - base), len := w.2.length, ro := ro, data := w.2, poisoned := p.poison } ro tc)
            Leads (.pcieOutboundRequest j p) s (fun u =>
              Sets ((withPcie (s.take p) j { x with tx := tlps }).answer p (.data 0)) u [pcieGains s j 1 tlps.length])) ∧
          (isWrite p = false → x.out.length < 32 → Leads (.pcieOutboundRequest j p) s
            (keeps false (.memory { write := false, addr := remote + off, len := readLen p, ro := ro, tag := p.tag } ro tc))) ∧
          (isWrite p = false → 32 ≤ x.out.length → exec (.pcieOutboundRequest j p) s = .next s)) ∧
        (mayMaster → outWaits s j p = false → s.f b F.PCIE_ATT0_kind = 1 →
          (2 < p.size ∨ off % 2 ^ p.size ≠ 0 → Leads (.pcieOutboundRequest j p) s (fun u => u = refused)) ∧
          (p.size ≤ 2 → off % 2 ^ p.size = 0 → x.out.length < 32 → Leads (.pcieOutboundRequest j p) s
            (keeps true (.config (isWrite p) (off / 2 ^ 20 % 256 ≠ s.f (R.PCIE_CFG j) F.PCIE_CFG_secbus) (off % 2 ^ 28) ((2 ^ 2 ^ p.size - 1) * 2 ^ (off % 4))
              (if isWrite p = true then bytesNat (writtenBytes p).2 else 0))))))) ∧
    (∀ k o, x.out[k]? = some o →
      let gone := withPcie s j { x with out := x.out.eraseIdx k }
      let errs := fun (kind : Nat) => pcieFlag j 4 :: pcieRecord s j kind o.off o.req.tenant
      (∀ data, Leads (.pcieCompletionReceive j k 0 false data) s (fun u =>
        Sets (gone.answer o.req (.data (if isWrite o.req then 0 else atPlace o.req data))) u [pcieGains s j 0 1])) ∧
      (∀ data, o.cfg = true → Leads (.pcieCompletionReceive j k 2 false data) s (fun u =>
        Sets (withPcie s j { x with tx := [o.tlp] }) u [pcieGains s j 0 1, pcieGains s j 1 1])) ∧
      (∀ status bad data, status = 1 ∨ status = 4 ∨ bad = true ∨ (status = 2 ∧ o.cfg = false) → Leads (.pcieCompletionReceive j k status bad data) s (fun u =>
        Sets (gone.answer o.req .decodeError) u (pcieGains s j 0 1 :: errs 6))) ∧
      (o.late ≤ s.ref → Leads (.pcieCompletionTimeout j k) s (fun u => Sets (gone.answer o.req .decodeError) u (errs 5))) ∧
      (s.ref < o.late → exec (.pcieCompletionTimeout j k) s = .next s)) ∧
    (∀ k status bad data, x.out[k]? = none → Leads (.pcieCompletionReceive j k status bad data) s (fun u => Sets s u [pcieGains s j 0 1]))

/-- Inbound requests (R229, R233 to R235, R237, R240, R291). -/
def PcieInbound : Prop :=
  ∀ (s : State) (j : Nat), j < 2 → pcieRuns s j = true →
    let x := s.pcie j
    let running := s.f (R.PCIE_STAT j) F.PCIE_STAT_state = 1 ∧ s.f (R.PCIE_STAT j) F.PCIE_STAT_link = 1
    let root := s.f (R.PCIE_CFG j) F.PCIE_CFG_role = 0
    let ecrc := s.f (R.PCIE_CFG j) F.PCIE_CFG_ecrc = 1
    let refuses := fun (t : Tlp) (status kind tenant : Nat) (u : State) =>
      Sets (withPcie s j (if t.write then x else { x with tx := [.completion t.tag status false []] })) u
        ([pcieGains s j 0 1, pcieGains s j 7 1, pcieFlag j 1] ++ (if t.write then [] else [pcieGains s j 1 1]) ++ pcieRecord s j kind t.addr tenant)
    (∀ t : Tlp, running → 32 ≤ x.inb.length → Leads (.pcieInboundTlp j t) s (fun u => u = withPcie s j { x with rxq := x.rxq ++ [t] })) ∧
    (∀ t : Tlp, running → x.inb.length < 32 → x.rxq = [] →
      (t.badEcrc = true → ecrc → Leads (.pcieInboundTlp j t) s (fun u =>
        Sets (withPcie s j x) u [pcieGains s j 0 1, pcieGains s j 6 1, pcieFlag j 6])) ∧
      (t.badEcrc = false ∨ ¬ecrc →
        (t.kind = .message → Leads (.pcieInboundTlp j t) s (fun u => Sets (withPcie s j x) u [pcieGains s j 0 1])) ∧
        (t.kind = .unsupported → Leads (.pcieInboundTlp j t) s (fun u =>
          Sets (withPcie s j { x with tx := [.completion t.tag 1 false []] }) u [pcieGains s j 0 1, pcieGains s j 7 1, pcieGains s j 1 1])) ∧
        (isMsi s j t = true → 1 ≤ bytesNat t.data → bytesNat t.data < 32 → Leads (.pcieInboundTlp j t) s (fun u =>
          Sets (withPcie s j x) u [pcieGains s j 0 1, (R.PCIE_MSI j, F.PCIE_MSI_pend, s.f (R.PCIE_MSI j) F.PCIE_MSI_pend ||| 2 ^ (bytesNat t.data - 1))])) ∧
        (t.kind = .memory → ¬root → inBars s j t = false → Leads (.pcieInboundTlp j t) s (refuses t 1 1 0)) ∧
        (t.kind = .memory → root → isMsi s j t = false → inEntry s j t = none → Leads (.pcieInboundTlp j t) s (refuses t 1 1 0)) ∧
        (∀ e, t.kind = .memory → (root ∧ isMsi s j t = false) ∨ (¬root ∧ inBars s j t = true) → inEntry s j t = some e → 0 < t.len →
          let tenant := s.f (R.PCIE_ATT0 j e) F.PCIE_ATT0_tenant
          let ipa := s.f (R.PCIE_ATT1 j e) F.PCIE_ATT1_local * 4096 + (t.addr - s.f (R.PCIE_ATT2 j e) F.PCIE_ATT2_remote * 4096)
          let page := ipa / 4096 * 4096
          (pcieStage2 s j tenant page t.write = none → Leads (.pcieInboundTlp j t) s (refuses t 4 2 tenant)) ∧
          (∀ q, t.write = false → ipa % 64 + t.len ≤ 64 → x.inb = [] → pcieStage2 s j tenant page false = some q →
            let pa := q.2.pa / 4096 * 4096 + ipa / 64 * 64 % 4096
            decodeFails (s.router (pcieUnit j / 4)).map false false pa = false → Leads (.pcieInboundTlp j t) s (fun u =>
              (∃ y l, (u.pcie j).inb = [y] ∧ y.tlp = t ∧ y.tenant = tenant ∧ y.seq = x.next ∧ y.pages = [ipa / 4096] ∧ y.lines = [l] ∧ l.pa = pa ∧
                l.tag = some (s.nextTag (pcieUnit j)) ∧ l.late = s.ref + max 128 (s.f (R.NOC_CTL (pcieUnit j / 4)) F.NOC_CTL_rto) ∧ l.done = false) ∧
              (∃ p, u.routers = (s.request p).routers ∧ p.typ = 7 ∧ p.pa = pa ∧ p.tenant = tenant ∧ p.src = pcieUnit j ∧ p.dst = targetUnit x.map pa) ∧
              u.f (R.PCIE_CNT j 3) F.PCIE_CNT_count = (s.f (R.PCIE_CNT j 3) F.PCIE_CNT_count + t.len) % 2 ^ F.PCIE_CNT_count.w ∧ u.mem = s.mem))))) ∧
    (∀ (t : InTlp) (l : PLine) (tag : Nat), x.inb = [t] → x.rxq = [] → t.lines = [l] → t.cut = false → l.tag = some tag → l.done = false → l.bad = false →
      let over_ := fun (w : State) (y : Pcie) (u : State) (c : List (Nat × Fld × Nat)) => Sets (withPcie w j { y with inb := [] }) u c
      let errs := pcieFlag j 2 :: pcieRecord s j 3 t.tlp.addr t.tenant
      (∀ p ans, s.inbox = [p] → p.dst = pcieUnit j → p.tag = tag →
        (p.net = 1 → p.typ = 0 → t.tlp.write = true → Leads (.pcieInboundLineAnswer j tag ans) s (fun u => over_ (s.take p) x u [])) ∧
        (p.net = 3 → p.typ = 0 → p.poison = false → t.tlp.write = false → t.tlp.addr % 64 + t.tlp.len ≤ 64 → Leads (.pcieInboundLineAnswer j tag ans) s (fun u =>
          over_ (s.take p) { x with tx := [.completion t.tlp.tag 0 false ((List.range t.tlp.len).map (fun i =>
            BitVec.ofNat 8 (p.data.toNat / 2 ^ (8 * (t.tlp.addr % 64 + i)))))] } u [pcieGains s j 1 1])) ∧
        (p.net = 1 → p.typ = 4 ∨ p.typ = 7 ∨ p.typ = 0xA → t.tlp.write = true → Leads (.pcieInboundLineAnswer j tag ans) s (fun u => over_ (s.take p) x u errs))) ∧
      ((∀ p ∈ s.inbox, p.dst ≠ pcieUnit j) →
        (l.late ≤ s.ref → t.tlp.write = true → Leads (.pcieInboundLineAnswer j tag .timeout) s (fun u => over_ (s.loseTag (pcieUnit j) tag) x u errs)) ∧
        (s.ref < l.late → exec (.pcieInboundLineAnswer j tag .timeout) s = .next s)))

/-- Message-signalled interrupts, the endpoint's header, INTx and link errors (R229, R235 to R237). -/
def PcieMessages : Prop :=
  ∀ (s : State) (j : Nat), j < 2 → pcieRuns s j = true →
    let x := s.pcie j
    let root := s.f (R.PCIE_CFG j) F.PCIE_CFG_role = 0
    let running := s.f (R.PCIE_STAT j) F.PCIE_STAT_state = 1
    let linked := s.f (R.PCIE_STAT j) F.PCIE_STAT_link = 1
    let pend := s.f (R.PCIE_MSI j) F.PCIE_MSI_pend
    (∀ data, running → linked → root →
      let addr := s.f (R.PCIE_MSIADDR j) F.PCIE_MSIADDR_addr * 4
      (1 ≤ data → data < 32 → Leads (.pcieMsiReceive j addr data) s (fun u => Sets s u [pcieGains s j 0 1, (R.PCIE_MSI j, F.PCIE_MSI_pend, pend ||| 2 ^ (data - 1))])) ∧
      (data = 0 ∨ 32 ≤ data → Leads (.pcieMsiReceive j addr data) s (fun u => Sets s u [pcieGains s j 0 1, pcieFlag j 7]))) ∧
    (∀ ag v, v < 32 → Written s .pcie (R.PCIE_MSIGEN j) ag → ¬root →
      let t := acked s ag (R.PCIE_MSIGEN j)
      let may := x.msiEn = true ∧ x.command.getLsbD 2 = true ∧ x.power ≠ 3 ∧ v < 2 ^ x.msiLog
      (may → Leads (.pcieMsigen ag j v) s (fun u => Sets (withPcie t j { x with tx := [.msi x.msiAddr.toNat (x.msiData + v)] }) u [pcieGains s j 1 1])) ∧
      (¬may → Leads (.pcieMsigen ag j v) s (fun u => Sets t u [pcieFlag j 8]))) ∧
    (running → linked →
      let does := fun (y : Pcie) (l : LinkTx) (u : State) => Sets (withPcie s j { y with tx := [l] }) u [pcieGains s j 0 1, pcieGains s j 1 1]
      let reads := fun (r : CfgReg) (v : Nat) => Leads (.pcieConfigRequest j false r 0) s (fun u =>
        Sets (withPcie s j { x with tx := [.configAnswer 0 v] }) u [pcieGains s j 0 1, pcieGains s j 1 1])
      (root → ∀ w r v, Leads (.pcieConfigRequest j w r v) s (does x (.configAnswer 1 0))) ∧
      (¬root → reads .id (s.reg (R.PCIE_EPID j)).toNat ∧ reads .command x.command.toNat ∧ reads .classCode 0x0B4000 ∧
        (∀ i, i < 2 → s.f (R.PCIE_BAR j i) F.PCIE_BAR_log2 = 0 → reads (.barLo i) 0 ∧ reads (.barHi i) 0) ∧
        (∀ v, Leads (.pcieConfigRequest j true .command v) s (does { x with command := BitVec.ofNat 16 v } (.configAnswer 0 0))) ∧
        (∀ v, Leads (.pcieConfigRequest j true .msiData v) s (does { x with msiData := v % 2 ^ 16 } (.configAnswer 0 0))) ∧
        ∀ v, Leads (.pcieConfigRequest j true .id v) s (does x (.configAnswer 0 0)))) ∧
    (running → linked → Leads (.intxMessage j) s (fun u => Sets s u [pcieGains s j 0 1, pcieFlag j 9])) ∧
    (linked → Leads (.pcieLinkError j true false) s (fun u => Sets s u [pcieGains s j 5 1, pcieFlag j 5]) ∧
      Leads (.pcieLinkError j true true) s (fun u => Sets s u [pcieGains s j 5 1, pcieFlag j 5, pcieGains s j 4 1]) ∧
      ∀ r, Leads (.pcieLinkError j false r) s (fun u => u.f (R.PCIE_IRQ j) ⟨6, 1⟩ = 1 ∧ u.mem = s.mem ∧
        u.f (R.PCIE_CNT j 6) F.PCIE_CNT_count = (s.f (R.PCIE_CNT j 6) F.PCIE_CNT_count + 1) % 2 ^ F.PCIE_CNT_count.w ∧
        ∀ o, o ∈ (u.pcie j).out ↔ o ∈ x.out ∧ isWrite o.req = true))
end Sys2Proof.Claims

/-- The PCI Express controllers: PCIE_RESUME, PCIE_STOP, PCIE_STOP_COMPLETE, PERST_RELEASE, PERST_FALL, PERST_RISE, WAKE_FALL, PCIE_LINK_CHANGE,
PCIE_ATT_ENTRY_WRITE; PCIE_OUTBOUND_REQUEST, PCIE_COMPLETION_RECEIVE, PCIE_COMPLETION_TIMEOUT; PCIE_INBOUND_TLP, PCIE_INBOUND_LINE_ANSWER;
PCIE_MSI_RECEIVE, PCIE_MSIGEN, PCIE_CONFIG_REQUEST, INTX_MESSAGE and PCIE_LINK_ERROR (R229 to R240). That the host's settings go with the link, and
what D3hot, poisoned writes, bad ECRC and messages do, are the model's (logs 20 and 84). -/
def Obligations.PcieControllers : Prop := PcieStates ∧ PcieOutbound ∧ PcieInbound ∧ PcieMessages

namespace Sys2Proof.Claims
/-- A counter of a port gains `n`. -/
def ethGain (s : State) (p i n : Nat) : Nat × Fld × Nat := (R.ETH_CNT p i, F.ETH_CNT_count, s.f (R.ETH_CNT p i) F.ETH_CNT_count + n)

/-- The counters of a port count and are far from wrapping. -/
def ethCounts (s : State) (p : Nat) : Prop := s.f R.PMU_SNAP F.PMU_SNAP_frozen = 0 ∧ ∀ i, i < 32 → s.f (R.ETH_CNT p i) F.ETH_CNT_count < 2 ^ 47

/-- A bit of ETH_IRQ is set. -/
def ethFlag (p i : Nat) : Nat × Fld × Nat := (R.ETH_IRQ p, ⟨i, 1⟩, 1)

/-- A port becomes `y`. -/
def withPort (s : State) (p : Nat) (y : EthPort) : State := { s with ports := mset s.ports p y }

/-- States and links of the ports, and cable diagnostics (R382, R384, R385, R394). -/
def PortStates : Prop :=
  ∀ (s : State) (p : Nat), p < 40 → pipeRuns s (p / 20) = true → ethCounts s p →
    let a := R.ETH_STAT p
    let x := s.port p
    let st := s.f a F.ETH_STAT_state
    let linked := s.f a F.ETH_STAT_link = 1
    let drops := [(a, F.ETH_STAT_link, 0), (a, F.ETH_STAT_sqi, 0), ethGain s p 20 1, ethFlag p 0]
    let cfg := R.ETH_CFG p
    (∀ ag, Written s .eth (R.ETH_CTL p) ag →
      let t := acked s ag (R.ETH_CTL p)
      let held := heldInReset s (p / 20) = true
      let known := Config.speedRow (p % 20) (s.f cfg F.ETH_CFG_speed) ≠ none
      let fits := 60 ≤ s.f cfg F.ETH_CFG_maxf ∧ s.f cfg F.ETH_CFG_maxf ≤ 9212
      let fails := fun (n : Nat) => Leads (.ethResume ag p) s (fun u => Sets t u [(a, F.ETH_STAT_reason, n)])
      (st ≠ 0 ∨ held → Leads (.ethResume ag p) s (fun u => u = t)) ∧
      (st = 0 → ¬held → ¬known → fails 1) ∧ (st = 0 → ¬held → known → ¬fits → fails 2) ∧
      (st = 0 → ¬held → known → fits → s.f (R.PWR_DOM (portDom p)) F.PWR_DOM_state ≠ 2 → fails 3) ∧
      (st = 0 → ¬held → known → fits → s.f (R.PWR_DOM (portDom p)) F.PWR_DOM_state = 2 → s.f (R.ETH_MSCFG p) F.ETH_MSCFG_en = 0 →
        ((s.f cfg F.ETH_CFG_role = 0 ∧ s.f cfg F.ETH_CFG_an = 0) ∨ s.f cfg F.ETH_CFG_role = 3 → fails 5) ∧
        (¬((s.f cfg F.ETH_CFG_role = 0 ∧ s.f cfg F.ETH_CFG_an = 0) ∨ s.f cfg F.ETH_CFG_role = 3) →
          Leads (.ethResume ag p) s (fun u => Sets t u [(a, F.ETH_STAT_state, 1)]))) ∧
      (st = 1 → queuedFrames x < 2 ^ 47 → Leads (.ethStop ag p) s (fun u =>
        Sets (withPort t p { x with queues := [] }) u [(a, F.ETH_STAT_state, 2), ethGain s p 16 (queuedFrames x)])) ∧
      (st ≠ 1 → Leads (.ethStop ag p) s (fun u => u = t))) ∧
    (st = 2 → Leads (.ethStopComplete p) s (fun u => Sets (withPort s p { x with tx := none }) u ((a, F.ETH_STAT_state, 0) :: if linked then drops else []))) ∧
    (st ≠ 2 → exec (.ethStopComplete p) s = .next s) ∧
    (∀ speed m q, st = 1 → ¬linked → Config.speedRow (p % 20) speed ≠ none → Leads (.ethLinkChange p true speed m q) s (fun u => Sets s u
      ([(a, F.ETH_STAT_link, 1), (a, F.ETH_STAT_master, if m then 1 else 0), (a, F.ETH_STAT_speed, speed), (a, F.ETH_STAT_sqi, q), ethFlag p 0] ++
        if s.f cfg F.ETH_CFG_tsc_man = 1 then [] else [(R.ETH_TSC p, whole, Config.tscOf p speed)]))) ∧
    (∀ speed m q, st = 1 → linked → Leads (.ethLinkChange p false speed m q) s (fun u => Sets s u drops)) ∧
    (∀ ag, Written s .eth (R.ETH_DIAG p) ag → Leads (.cableDiagStart ag p) s (fun u =>
      Sets (acked s ag (R.ETH_DIAG p)) u [(R.ETH_DIAGR p, whole, if p % 20 < 16 ∧ ¬linked then 0 else 3)])) ∧
    (∀ fault dist, fault < 4 → dist < 65536 → s.f (R.ETH_DIAGR p) F.ETH_DIAGR_rstat = 0 → Leads (.cableDiagComplete p fault dist) s (fun u =>
      Sets s u [(R.ETH_DIAGR p, whole, 1 + 4 * fault + 16 * dist), ethFlag p 4]))

/-- Frames in and out of a port (R383, R387, R389, R393, R396). -/
def PortFrames : Prop :=
  ∀ (s : State) (p : Nat), p < 40 → pipeRuns s (p / 20) = true → ethCounts s p → portUp s p = true → s.f (R.ETH_PHY p) F.ETH_PHY_lpbk = 0 →
    s.f (R.ETH_MSCFG p) F.ETH_MSCFG_en = 0 →
    let x := s.port p
    let h := p / 20
    let maxf := s.f (R.ETH_CFG p) F.ETH_CFG_maxf
    (∀ (bs : List Byte) (wait : Nat),
      let counts := fun (u : State) (l : List (Nat × Fld × Nat)) => Sets { s with pmu := u.pmu } u l
      let f : EFrame := { parseFrame bs with ts := stamp (gptp s h) (-(wait : Int)) 80 (-(s.f (R.ETH_TSC p) F.ETH_TSC_rx_corr : Int)) }
      let c := classifyVlan s h (p % 20) f
      let taken := [ethGain s p 0 1, ethGain s p 1 bs.length, ethGain s p 23 1]
      Leads (.receiveFrame p bs false wait) s (fun u => Sets s u [ethGain s p 2 1]) ∧
      (bs.length < 60 ∨ maxf < bs.length → Leads (.receiveFrame p bs true wait) s (fun u => Sets s u [ethGain s p 3 1])) ∧
      (60 ≤ bs.length → bs.length ≤ maxf →
        (beAt bs 12 2 = 0x8808 → Leads (.receiveFrame p bs true wait) s (fun u => Sets s u [ethGain s p 4 1])) ∧
        (beAt bs 12 2 ≠ 0x8808 → c.2 = false → Leads (.receiveFrame p bs true wait) s (fun u => counts u (ethGain s p 12 1 :: taken))) ∧
        (beAt bs 12 2 ≠ 0x8808 → c.2 = true → streamOf s h (p % 20) c.1 = none → s.f (R.ETH_BR_PORT (brBlock h) (p % 20)) F.ETH_BR_PORT_learn = 0 →
          (forwardSet s h (p % 20) c.1 = none ∨ forwardSet s h (p % 20) c.1 = some [] → Leads (.receiveFrame p bs true wait) s (fun u =>
            counts u (ethGain s p 12 1 :: taken))) ∧
          (∀ d, d < 20 → forwardSet s h (p % 20) c.1 = some [d] → queueHasRoom s (20 * h + d) c.1.tc c.1.size = true →
            let y := s.port (20 * h + d)
            Leads (.receiveFrame p bs true wait) s (fun u => Sets { withPort s (20 * h + d) { y with
              queues := mset y.queues c.1.tc (mget [] y.queues c.1.tc ++ [c.1]) } with pmu := u.pmu } u taken))))) ∧
    (∀ (k : Nat) (f : EFrame) (rest : List EFrame) (wait : Nat), k < 8 → mget [] x.queues k = f :: rest → classEligible s p k = true →
      (∀ j, j < 8 → k < j → classEligible s p j = false) → f.owner = none →
      let bs := egressBytes s p f
      let w := bs ++ List.replicate (60 - bs.length) 0
      let y := { x with queues := mset x.queues k rest, tx := none }
      (maxf < bs.length → Leads (.egressSelect p wait) s (fun u => Sets (withPort s p y) u [ethGain s p 17 1])) ∧
      (bs.length ≤ maxf → Leads (.egressSelect p wait) s (fun u => Sets { withPort s p { y with tx := some f, wire := w } with pmu := u.pmu } u
        [ethGain s p 14 1, ethGain s p 15 w.length, ethGain s p 23 1]))) ∧
    (∀ wait, (∀ j, j < 8 → classEligible s p j = false) → Leads (.egressSelect p wait) s (fun u => u = withPort s p { x with tx := none }))

/-- The forwarding database (R390, R391). -/
def ForwardingDatabase : Prop :=
  ∀ (s : State) (half : Nat) (ag : Agent), half < 2 → pipeRuns s half = true → Written s .eth (R.ETH_BR_FDBCMD (brBlock half)) ag →
    let t := acked s ag (R.ETH_BR_FDBCMD (brBlock half))
    let b := s.bridge half
    let vid := s.f (R.ETH_BR_FDBKEY (brBlock half)) F.ETH_BR_FDBKEY_vid
    let mac := s.f (R.ETH_BR_FDBKEY (brBlock half)) F.ETH_BR_FDBKEY_mac
    let met := fdbFind b vid mac
    let others := b.fdb.filter (fun e => e.vid ≠ vid || e.mac ≠ mac)
    let mates := others.filter (fun e => fdbSet e.vid e.mac = fdbSet vid mac)
    let ends := fun (l : List FdbEnt) (r : Nat) (u : State) => Sets { t with bridges := u.bridges } u [(R.ETH_BR_FDBRES (brBlock half), whole, r)] ∧
      u.bridge half = { b with fdb := l }
    let result := match met with
      | none => 1
      | some e => 5 + (if e.fixed then 8 else 0) + 32 * (e.ports % 2 ^ 22)
    Leads (.fdbRead ag half) s (ends b.fdb result) ∧
    (∀ ports, ports < 2 ^ 22 →
      let put := fun (fixed : Bool) (l : List FdbEnt) => ends (⟨vid, mac, fixed, ports, s.ref⟩ :: l) (1 + (if met = none then 0 else 4) + (if fixed then 8 else 0) + 32 * ports)
      (mates.length < 4 → Leads (.fdbWriteStatic ag half ports) s (put true others) ∧ Leads (.fdbWriteDynamic ag half ports) s (put false others)) ∧
      (4 ≤ mates.length → (∀ e ∈ mates, e.fixed = true) →
        Leads (.fdbWriteStatic ag half ports) s (ends b.fdb 17) ∧ Leads (.fdbWriteDynamic ag half ports) s (ends b.fdb 17)) ∧
      (∀ i, i < 22 → ports.testBit i = true → (∀ j, j < i → ports.testBit j = false) →
        Leads (.fdbFlushDynamicPort ag half ports) s (ends (b.fdb.filter (fun e => e.fixed || !e.ports.testBit i)) 1))) ∧
    Leads (.fdbDelete ag half) s (ends others result) ∧
    Leads (.fdbFlushDynamic ag half) s (ends (b.fdb.filter (fun e => e.fixed)) 1)

/-- Aging of the forwarding database (R390). -/
def DatabaseAging : Prop :=
  ∀ (s : State) (half vid mac : Nat) (e : FdbEnt), half < 2 → pipeRuns s half = true → fdbFind (s.bridge half) vid mac = some e →
    let age := s.f (R.ETH_BR_CTL (brBlock half)) F.ETH_BR_CTL_age
    (e.fixed = false → age ≠ 0 → e.seen + age * 2 ^ 20 ≤ s.ref → Leads (.fdbAging half vid mac) s (fun u =>
      u = { s with bridges := mset s.bridges half { s.bridge half with fdb := (s.bridge half).fdb.filter (fun e => e.vid ≠ vid || e.mac ≠ mac) } })) ∧
    (e.fixed = true ∨ age = 0 ∨ s.ref < e.seen + age * 2 ^ 20 → exec (.fdbAging half vid mac) s = .next s)

/-- Time, gate lists, stream gates and recovery functions (R392, R398 to R400, R403, R406). -/
def TimeAndGates : Prop :=
  ∀ (s : State),
    (∀ half, half < 2 → pipeRuns s half = true →
      let k := brBlock half
      let b := s.bridge half
      (∀ (ag : Agent) (v : Word), Written s .tsn (R.TSN_TSTEP k) ag → b.frac < 2 ^ 32 → Leads (.tsnTstep ag half v) s (fun u => (u.bridge half).frac = b.frac ∧
        Sets { acked s ag (R.TSN_TSTEP k) with bridges := u.bridges } u
          [(R.TSN_TNS k, whole, (((gptpNs s half : Int) + v.toInt) % 2 ^ 64).toNat)])) ∧
      (∀ (ag : Agent) (v : Word), Written s .tsn (R.TSN_TSET k) ag → Leads (.tsnTset ag half v) s (fun u =>
        Sets { acked s ag (R.TSN_TSET k) with bridges := mset s.bridges half { b with frac := 0 } } u [(R.TSN_TNS k, whole, v.toNat)])) ∧
      Leads (.tsnTnsRead half) s (fun u => Sets s u [(R.TSN_TFR k, F.TSN_TFR_frac, b.frac)]) ∧
      (∀ g, g < 32 → s.f (R.TSN_SGCTL k g) F.TSN_SGCTL_len = 0 → (mget {} b.gates g).ents = [] →
        let e := R.TSN_SGCL k g 0
        Leads (.streamGateChange half g) s (fun u => u = { s with bridges := u.bridges } ∧ (mget {} (u.bridge half).gates g).isOpen = decide (s.f e F.TSN_SGCL_open = 1) ∧
          (mget {} (u.bridge half).gates g).ipv = if s.f e F.TSN_SGCL_ipv_en = 1 then some (s.f e F.TSN_SGCL_ipv) else none)) ∧
      (∀ n, n < 256 →
        let r := mget {} b.recov n
        let time := max 1 (s.f (R.TSN_FRREC k n) F.TSN_FRREC_reset) * 1024
        (r.any = false → r.since + time ≤ s.ref → Leads (.recoveryResetTimeout half n) s (fun u =>
          u = { s with bridges := mset s.bridges half { b with recov := mset b.recov n { r with any := true, hist := [] } } })) ∧
        (r.any = true ∨ s.ref < r.since + time → exec (.recoveryResetTimeout half n) s = .next s))) ∧
    (∀ p, p < 40 → pipeRuns s (p / 20) = true →
      let x := s.port p
      let now := gptpNs s (p / 20)
      let st := R.TSN_GSTAT p
      let on_ := s.f (R.TSN_GCTL p) F.TSN_GCTL_en = 1
      (¬on_ → exec (.gateStateChange p) s = .next s) ∧
      (on_ → x.tx = none → x.oper.cycle = 0 → Leads (.gateStateChange p) s (fun u => Sets (withPort s p { x with gates := 0xFF }) u [(st, F.TSN_GSTAT_entry, 0)])) ∧
      (on_ → x.tx = none → 0 < x.oper.cycle → x.oper.len = 0 → x.ct = none → Leads (.gateStateChange p) s (fun u =>
        Sets (withPort s p { x with gates := fld (mget 0xFF x.bank 0) 0 8 }) u [(st, F.TSN_GSTAT_entry, 0)])) ∧
      (∀ f, on_ → ethCounts s p → x.tx = some f → x.gates.testBit f.tc = true → (gateAt x now).2.testBit f.tc = false → Leads (.gateStateChange p) s (fun u =>
        Sets (withPort s p { x with gates := (gateAt x now).2 }) u [(st, F.TSN_GSTAT_entry, (gateAt x now).1), ethGain s p 19 1])) ∧
      (∀ (ag : Agent) (v : Word), Written s .tsn (R.TSN_GCTL p) ag →
        let t := acked s ag (R.TSN_GCTL p)
        let cycle := s.f (R.TSN_GCYC p) F.TSN_GCYC_ns
        let base := s.f (R.TSN_GBASE p) F.TSN_GBASE_base
        let set := [(R.TSN_GCTL p, F.TSN_GCTL_en, fld v 0 1), (R.TSN_GCTL p, F.TSN_GCTL_len, fld v 2 8)]
        let early := gptp s (p / 20) + 1000 * 2 ^ 32
        (cycle = 0 → Leads (.gateListGo ag p v) s (fun u => Sets t u (set ++ [(st, F.TSN_GSTAT_err, 1)]))) ∧
        (cycle ≠ 0 → Leads (.gateListGo ag p v) s (fun u => ∃ ct, Sets (withPort t p { x with
            admin := ⟨base, cycle, s.f (R.TSN_GEXT p) F.TSN_GEXT_ns, fld v 2 8⟩, ct := some ct }) u (set ++ [(st, F.TSN_GSTAT_pend, 1)]) ∧
          early ≤ ct * 2 ^ 32 ∧ (∃ k, ct = base + k * cycle) ∧ (ct = base ∨ (ct - cycle) * 2 ^ 32 < early)))) ∧
      (∀ ct, x.ct = some ct → now < ct → exec (.gateConfigChange p) s = .next s) ∧
      (∀ ct, x.ct = some ct → ct ≤ now → ¬on_ → Leads (.gateConfigChange p) s (fun u => (u.port p).oper = x.admin ∧ (u.port p).ct = none ∧
        u.f st F.TSN_GSTAT_pend = 0 ∧ u.f st F.TSN_GSTAT_bank = 1 - s.f st F.TSN_GSTAT_bank ∧ u.f (R.ETH_IRQ p) F.ETH_IRQ_gate = 1 ∧ u.mem = s.mem ∧
        ∀ i, i < 256 → u.reg (R.TSN_GCL p i) = mget 0xFF x.bank i ∧ mget 0xFF (u.port p).bank i = s.reg (R.TSN_GCL p i))))

/-- Keys of MACsec (R409). -/
def MacsecKeys : Prop :=
  ∀ (s : State) (p : Nat) (ag : Agent) (v : Word), p < 40 → pipeRuns s (p / 20) = true →
    let x := s.port p
    (Written s .eth (R.ETH_SACMD p) ag →
      let t := acked s ag (R.ETH_SACMD p)
      let rx := v.getLsbD 1
      let sc := fld v 2 4
      let an := fld v 6 2
      let enabled := if rx then (s.reg (R.ETH_MSRXEN p)).getLsbD (4 * sc + an) = true else (s.f (R.ETH_MSTX p) F.ETH_MSTX_txen).testBit an = true
      let ends := fun (r : Nat) (u : State) => Sets t u [(R.ETH_SASTAT p, whole, 1 + 4 * r), ethFlag p 5]
      let derives := fun (k : Option Nat) (u : State) => Sets (withPort t p { x with sak := [], saBusy := some (rx, sc, an, k) }) u [(R.ETH_SASTAT p, whole, 0)]
      let slot := mget {} s.sec.slots (fld v 9 4)
      let plain := s.f (R.ETH_MSCFG p) F.ETH_MSCFG_xpn = 0
      (enabled → Leads (.saKeyInstall ag p v) s (ends 1) ∧ Leads (.saKeyClear ag p v) s (ends 1)) ∧
      (¬enabled → v.getLsbD 8 = true → slot.consumer ≠ some p → Leads (.saKeyInstall ag p v) s (ends 2)) ∧
      (¬enabled → plain → v.getLsbD 8 = true → slot.consumer = some p → Leads (.saKeyInstall ag p v) s (derives (some (slot.key % 2 ^ 256)))) ∧
      (¬enabled → plain → v.getLsbD 8 = false → Leads (.saKeyInstall ag p v) s (derives (some
        (((List.range (if s.f (R.ETH_MSCFG p) F.ETH_MSCFG_cipher = 1 then 8 else 4)).map (fun i => mget 0 x.sak i * 2 ^ (32 * i))).sum)))) ∧
      (¬enabled → Leads (.saKeyClear ag p v) s (derives none))) ∧
    (∀ rx sc an k, x.saBusy = some (rx, sc, an, k) → Leads (.saSubkeyReady p) s (fun u =>
      Sets { s with ports := u.ports } u [(R.ETH_SASTAT p, whole, 1), ethFlag p 5] ∧ (u.port p).saBusy = none ∧
      (∀ n, k = some n → if rx then mget 0 (u.port p).rxKey (4 * sc + an) = n else mget 0 (u.port p).txKey an = n) ∧
      (k = none → if rx then mget 0 (u.port p).rxKey (4 * sc + an) = 0 else mget 0 (u.port p).txKey an = 0)))
end Sys2Proof.Claims

/-- The Ethernet ports and bridges: ETH_RESUME, ETH_STOP, ETH_STOP_COMPLETE, ETH_LINK_CHANGE, CABLE_DIAG_START, CABLE_DIAG_COMPLETE; RECEIVE_FRAME,
EGRESS_SELECT; FDB_READ, FDB_WRITE_STATIC, FDB_WRITE_DYNAMIC, FDB_DELETE, FDB_FLUSH_DYNAMIC, FDB_FLUSH_DYNAMIC_PORT, FDB_AGING; TSN_TSTEP, TSN_TSET,
TSN_TNS_READ, GATE_STATE_CHANGE, GATE_LIST_GO, GATE_CONFIG_CHANGE, STREAM_GATE_CHANGE, RECOVERY_RESET_TIMEOUT; SA_KEY_INSTALL, SA_KEY_CLEAR and
SA_SUBKEY_READY (R382 to R413). That a frame for no member of its VLAN counts in counter 12 is the model's (log 43). -/
def Obligations.EthernetPorts : Prop := PortStates ∧ PortFrames ∧ ForwardingDatabase ∧ DatabaseAging ∧ TimeAndGates ∧ MacsecKeys

namespace Sys2Proof.Claims
/-- A queue pair becomes `y`. -/
def withQp (s : State) (t q : Nat) (y : Qp) : State := { s with qps := mset s.qps (8 * t + q) y }

/-- The edge from which an access that a pipeline sends now is late (R291, R297). -/
def pipeLate (s : State) (t : Nat) : Nat := s.ref + max 128 (s.f (R.NOC_CTL (pipeUnit (pipeOf t) / 4)) F.NOC_CTL_rto)

/-- A completion `c` is given to a queue pair that is otherwise `y` in a state otherwise `T`: it joins those that wait, or, when none waits, its slot is
free and may be written and the pipeline has a free tag, its write as number posted + 1 is launched (R341, R343, R355). -/
def Posted (T u : State) (t q : Nat) (y : Qp) (c : Cqe) : Prop :=
  let casn := num32 (y.posted + 1)
  let unit := pipeUnit (pipeOf t)
  (y.posting ≠ none → u = withQp T t q { y with cq := y.cq ++ [c] }) ∧
  (∀ pa, y.posting = none → y.cq = [] → Machine.dist y.acked casn ≤ cqSize T t q → freeTag T unit = true → tenantPa T t (cqSlot T t q casn) true = some pa →
    ∃ p, u = State.request (withQp T t q { y with posting := some (c, casn, T.nextTag unit, pa, pipeLate T t), pendDrops := 0, pendCause := 0 }) p ∧
      p.typ = 9 ∧ p.pa = pa ∧ p.data = cqeLine c casn (T.f (R.MEQ_QP_CFG t q) F.MEQ_QP_CFG_cq_log2) y.pendDrops y.pendCause)

/-- A command of a queue pair of a tenant ends with a completion (R355). -/
def Completes (i : Instr) (s T : State) (t q : Nat) (y : Qp) (c : Cqe) : Prop := Leads i s (fun u => Posted T u t q y c)

/-- A queue pair's channel is FAULTED, as the registers record it (R361, R377). -/
def faulted (s : State) (t q : Nat) : State :=
  let a := R.MEQ_PSTAT (pipeOf t)
  (((s.setF (R.MEQ_QP_STAT t q) F.MEQ_QP_STAT_state 4).setF a F.MEQ_PSTAT_fault 1).setF a F.MEQ_PSTAT_tenant t).setF a F.MEQ_PSTAT_qp q

/-- Nothing is pending in a queue pair: no chain, buffer, message or completion. -/
def Settled (x : Qp) : Prop := x.chains = [] ∧ x.fills = [] ∧ x.part = [] ∧ x.free = [] ∧ x.rx = none ∧ x.cq = [] ∧ x.stopC = none

/-- The fields of a completion in its 64 bytes (R353). -/
def CompletionFields : Prop :=
  ∀ (c : Cqe) (casn n drops cause : Nat), casn < 2 ^ 32 → c.status < 2 ^ 8 → c.reason < 2 ^ 8 → c.ncons < 2 ^ 7 → c.asn < 2 ^ 32 → c.tag < 2 ^ 32 →
    c.length < 2 ^ 17 → c.nbuf < 2 ^ 7 → c.port < 2 ^ 8 → drops < 2 ^ 16 → cause < 2 ^ 16 → c.macc < 2 ^ 32 →
    let l := cqeLine c casn n drops cause
    dfld l 0 0 32 = casn ∧ dfld l 0 32 1 = (if casn.testBit n then 0 else 1) ∧ dfld l 0 40 8 = c.status ∧ dfld l 0 48 8 = c.reason ∧ dfld l 0 56 7 = c.ncons ∧
    dfld l 1 0 32 = c.asn ∧ dfld l 1 32 32 = c.tag ∧ dfld l 2 0 17 = c.length ∧ dfld l 2 17 7 = c.nbuf ∧ dfld l 2 24 8 = c.port ∧ dfld l 2 32 16 = drops ∧
    dfld l 2 48 16 = cause ∧ dfld l 3 0 32 = c.macc ∧ dfld l 4 0 64 = c.ts % 2 ^ 64

/-- Doorbells and descriptor reads (R342, R345 to R349, R352, R371, R374). -/
def DoorbellsAndReads : Prop :=
  ∀ (s : State) (t q : Nat), t < 512 → q < 8 → pipeRuns s (pipeOf t) = true →
    let x := s.qp t q
    let st := s.f (R.MEQ_QP_STAT t q) F.MEQ_QP_STAT_state
    let valid := s.f (R.MEQ_QP_STAT t q) F.MEQ_QP_STAT_valid = 1
    let unit := pipeUnit (pipeOf t)
    let ring := 2 ^ s.f (R.MEQ_QP_CFG t q) F.MEQ_QP_CFG_sq_log2
    let ignored := fun (u : State) => Sets s u [(R.MEQ_TSTAT t, F.MEQ_TSTAT_bad_db, 1), (R.MEQ_TSTAT t, F.MEQ_TSTAT_bad_qp, q),
      (R.MEQ_PSTAT (pipeOf t), F.MEQ_PSTAT_bad_db, 1)]
    let taken := (∀ p ∈ s.inbox, p.net ≠ 0) ∧ s.f (R.MEQ_TCTL t) F.MEQ_TCTL_en = 1 ∧ tenantRuns s (pipeOf t) t = true
    (taken → ∀ (v : Word), v.toNat < 2 ^ 32 →
      let e := Machine.dist x.doorbell v.toNat
      let ok := 1 ≤ e ∧ e ≤ ring ∧ Machine.dist x.consumed v.toNat ≤ ring
      (¬ok → ¬(st = 4 ∧ e = 0) → Leads (.sqDb t (0x40 * q) 8 v) s ignored) ∧
      (∀ pa, ok → x.reads = [] → x.consumed < 2 ^ 32 → v.toNat = num32 (x.consumed + 1) → freeTag s unit = true → tenantPa s t (sqSlot s t q v.toNat) false = some pa →
        Leads (.sqDb t (0x40 * q) 8 v) s (fun u => ∃ p, u = State.request (withQp s t q { x with
            doorbell := v.toNat, stall := false, reads := [(v.toNat, s.nextTag unit, some pa, pipeLate s t)] }) p ∧
          p.typ = 7 ∧ p.pa = pa ∧ p.tenant = t)) ∧
      (Machine.dist x.acked v.toNat ≤ Machine.dist x.acked x.posted → x.cq = [] → Leads (.cqAck t q 8 v) s (fun u => u = withQp s t q { x with acked := v.toNat })) ∧
      (Machine.dist x.acked x.posted < Machine.dist x.acked v.toNat → Leads (.cqAck t q 8 v) s ignored)) ∧
    (taken → ∀ (v : Word) size, size ≠ 8 ∨ 2 ^ 32 ≤ v.toNat → Leads (.sqDb t (0x40 * q) size v) s ignored ∧ Leads (.cqAck t q size v) s ignored) ∧
    ((∀ p ∈ s.inbox, p.net ≠ 0) → s.f (R.MEQ_TCTL t) F.MEQ_TCTL_en = 0 → ∀ v : Word, Leads (.sqDb t (0x40 * q) 8 v) s ignored ∧ Leads (.cqAck t q 8 v) s ignored ∧
      Leads (.abort t q) s ignored ∧ Leads (.rebuild t q) s ignored) ∧
    (taken → x.reads = [] → x.doorbell = x.consumed → x.consumed < 2 ^ 32 → Leads (.abort t q) s (fun u =>
      Sets { withQp (s.dropAccs t x.accs) t q { x with
        cur := none, part := [], chains := [], free := [], cq := [], rx := none, fills := [], scan := none, startAt := none, stopC := none, stall := false,
        completed := x.consumed, aborted := true } with ports := u.ports } u [(R.MEQ_QP_STAT t q, F.MEQ_QP_STAT_state, 0)] ∧
      ∀ p k f, f ∈ mget [] (u.port p).queues k ↔ f ∈ mget [] (s.port p).queues k ∧ ∀ n, f.owner ≠ some (t, q, n))) ∧
    (taken → (st ≠ 0 ∨ valid → Leads (.rebuild t q) s ignored) ∧
      (st = 0 → ¬valid → x.scan = none → freeTag s unit = true →
        let acc : LineAcc := { addr := cqSlot s t q 0 }
        (∀ pa, tenantPa s t (cqSlot s t q 0) false = some pa → Leads (.rebuild t q) s (fun u => ∃ p, u = State.request (withQp s t q { x with
          scan := some { acc := { acc with pa := pa, tag := s.nextTag unit, late := pipeLate s t, sent := true } } }) p ∧ p.typ = 7 ∧ p.pa = pa ∧ p.tenant = t)) ∧
        (tenantPa s t (cqSlot s t q 0) false = none → Leads (.rebuild t q) s (fun u =>
          u = withQp s t q { x with scan := some { acc := { acc with got := some .decodeError } } })))) ∧
    (∀ (y : CqScan) (v : Nat), x.scan = some y → y.acc.got = some (.data v) → y.next + 1 = cqSize s t q → y.next ≠ 0 →
      let e := cqEntry s t q y.next (BitVec.ofNat 512 v)
      let breaks := y.breaks ++ cqBreak y.last e ++ cqBreak e y.first
      (∀ casn asn n, breaks = [(casn, asn, n)] → 1 ≤ n →
        let done := num32 (asn + n + 2 ^ 32 - 1)
        Sets (withQp s t q { x with scan := none, posted := casn, acked := num32 (casn + 2 ^ 32 - cqSize s t q), completed := done, consumed := done,
                                    doorbell := done, reads := [], stall := false }) (s.runScan t q) [(R.MEQ_QP_STAT t q, F.MEQ_QP_STAT_valid, 1)]) ∧
      (breaks.length ≠ 1 → s.runScan t q = withQp s t q { x with scan := none, lastReason := 0x12 })) ∧
    (∀ (y : CqScan) a, x.scan = some y → y.acc.got = some a → a = .decodeError ∨ a = .poison ∨ a = .fenced ∨ a = .timeout →
      s.runScan t q = withQp s t q { x with scan := none, lastReason := 0x11 }) ∧
    (∀ n tag pa e rest (v : Nat), x.reads = (n, tag, some pa, e) :: rest → x.cur = none → Settled x → x.stall = false → x.startAt = none → st ≠ 3 →
      tenantRuns s (pipeOf t) t = true → (∀ p ∈ s.inbox, p.dst ≠ pipeUnit (pipeOf t)) →
      let l : Line := BitVec.ofNat 512 v
      let counted := mset x.cnt 3 ((mget 0 x.cnt 3 + 1) % 2 ^ 48)
      let lost := faulted (s.dropReads t q) t q
      (dfld l 0 0 32 ≠ n → n < 2 ^ 32 → Completes (.descriptorRead t q (.data v)) s lost t q
        { x with reads := [], stall := true, faultAsn := n, faultStatus := 3 } { status := 3, asn := n, tag := dfld l 3 0 32 }) ∧
      (n < 2 ^ 32 → Completes (.descriptorRead t q .decodeError) s lost t q
        { x with reads := [], stall := true, faultAsn := n, faultStatus := 6 } { status := 6, asn := n }) ∧
      (dfld l 0 0 32 = n → badFormat true l = true → Completes (.descriptorRead t q (.data v)) s (faulted s t q) t q
        { x with reads := rest, consumed := n, cnt := counted, faultAsn := n, faultStatus := 2 } { status := 2, ncons := 1, asn := n, tag := dfld l 3 0 32 }) ∧
      (dfld l 0 0 32 = n → badFormat true l = false → Leads (.descriptorRead t q (.data v)) s (fun u => u = withQp s t q { x with
        reads := rest, consumed := n, cnt := counted,
        cur := some { asn := n, op := dfld l 0 32 4, more := decide (dfld l 0 36 1 = 1), a := BitVec.ofNat 64 (dfld l 1 0 64), b := BitVec.ofNat 64 (dfld l 2 0 64),
                      tag := dfld l 3 0 32 } })))

/-- What consumed commands do in each channel state (R357 to R363). -/
def ChannelCommands : Prop :=
  ∀ (s : State) (t q : Nat) (d : SqDesc), t < 512 → q < 8 → pipeRuns s (pipeOf t) = true → (s.qp t q).cur = some d →
    let x := s.qp t q
    let idle := { x with cur := none }
    let st := s.f (R.MEQ_QP_STAT t q) F.MEQ_QP_STAT_state
    let now := fun (n : Nat) => s.setF (R.MEQ_QP_STAT t q) F.MEQ_QP_STAT_state n
    let cqe : Nat → Cqe := fun status => { status := status, ncons := 1, asn := d.asn, tag := d.tag }
    let ends := fun (i : Instr) (status : Nat) => Completes i s s t q idle (cqe status)
    (d.op = 0 → (st = 0 → ends (.nopDescriptor t q) 0) ∧ (st = 4 → ends (.nopDescriptor t q) 1) ∧
      (st ≠ 0 → st ≠ 4 → x.chains = [] → ends (.nopDescriptor t q) 0) ∧ (st ≠ 0 → st ≠ 4 → x.chains ≠ [] → exec (.nopDescriptor t q) s = .next s)) ∧
    (d.op = 8 →
      (st = 1 → x.chains = [] → d.a.getLsbD 63 = false ∨ fld d.a 0 48 ≤ gptpNs s (pipeOf t) → Completes (.start t q) s (now 2) t q idle (cqe 0)) ∧
      (st = 1 → d.a.getLsbD 63 = true → gptpNs s (pipeOf t) < fld d.a 0 48 →
        Leads (.start t q) s (fun u => u = withQp s t q { idle with startAt := some (fld d.a 0 48, d) })) ∧
      (st = 0 ∨ st = 4 ∨ (st = 2 ∧ x.chains = []) → ends (.start t q) 1)) ∧
    (d.op = 9 → (st = 0 → ends (.stop t q) 0) ∧ (st = 4 → Completes (.stop t q) s (now 0) t q idle (cqe 0)) ∧
      (st = 1 ∨ st = 2 → Settled x → Leads (.stop t q) s (fun u =>
        Sets (withQp s t q { idle with stopC := some (cqe 0) }) u [(R.MEQ_QP_STAT t q, F.MEQ_QP_STAT_state, 3)]))) ∧
    (d.op = 0xA → (st = 0 →
        let o := fld d.a 0 12
        (editable o = true → Completes (.edit t q) s (s.editSet t q o (fld d.b 0 32)) t q idle (cqe 0)) ∧
        (editable o = false → Completes (.edit t q) s s t q { idle with lastReason := 0x10 } { cqe 4 with reason := 0x10 })) ∧
      (st = 4 ∨ (st = 1 ∧ x.chains = []) → ends (.edit t q) 1)) ∧
    (d.op = 0xB → (st = 0 →
        let fails := fun (n : Nat) => Completes (.resume t q) s s t q { idle with lastReason := n } { cqe 4 with reason := n }
        (s.f (R.MEQ_TCTL t) F.MEQ_TCTL_en = 0 → fails 1) ∧
        (s.f (R.MEQ_TCTL t) F.MEQ_TCTL_en = 1 → s.f (R.MEQ_QP_STAT t q) F.MEQ_QP_STAT_valid = 0 → fails 2) ∧
        (resumeReason s t q ≠ 0 → fails (resumeReason s t q)) ∧
        (resumeReason s t q = 0 → Completes (.resume t q) s (now 1) t q { idle with aborted := false, ipId := 0, avtpSeq := 0, bucket := 0 } (cqe 0))) ∧
      (st = 4 ∨ (st = 2 ∧ x.chains = []) → ends (.resume t q) 1)) ∧
    (d.op = 2 → (st = 1 ∨ st = 2 ∨ st = 3 → isRx s t q = true → Leads (.post t q) s (fun u =>
        u = withQp s t q { idle with free := x.free ++ [⟨d.asn, fld d.a 0 44, d.tag⟩] })) ∧
      (st = 0 ∨ st = 4 ∨ isRx s t q = false → ends (.post t q) 1)) ∧
    (d.op = 1 →
      let limit := s.f (R.MEQ_QP_MSG t q) F.MEQ_QP_MSG_max_msg
      (st = 0 ∨ st = 4 ∨ isRx s t q = true → ends (.send t q) 1) ∧
      (st = 1 ∨ st = 2 → isRx s t q = false → d.more = true → x.part.length + 1 < s.f (R.MEQ_QP_CFG t q) F.MEQ_QP_CFG_max_chain →
        Leads (.send t q) s (fun u => u = withQp s t q { idle with part := x.part ++ [d] })) ∧
      (st = 1 → isRx s t q = false → isMsg s t q = true → d.more = false → x.part = [] → x.chains = [] →
        (fld d.b 0 14 + 1 ≤ limit → Leads (.send t q) s (fun u => u = withQp s t q { idle with chains := [{ descs := [d] }] })) ∧
        (limit < fld d.b 0 14 + 1 → x.stopC = none → Completes (.send t q) s s t q idle (({ descs := [d] } : TxChain).cqe 7))) ∧
      (∀ pa, st = 2 → isRx s t q = false → d.more = false → x.part = [] → x.chains = [] → fld d.b 0 14 + 1 ≤ limit →
        isMsg s t q = true ∨ (∀ p ∈ qpPorts s t q, fld d.b 0 14 + 1 ≤ s.f (R.ETH_CFG p) F.ETH_CFG_maxf) → fld d.a 0 44 % 64 + (fld d.b 0 14 + 1) ≤ 64 →
        let at_ := fld d.a 0 44 / 64 * 64
        let unit := pipeUnit (pipeOf t)
        freeTag s unit = true → tenantPa s t at_ false = some pa → Leads (.send t q) s (fun u => ∃ p, u = State.request (withQp s t q { idle with
            chains := [{ descs := [d], started := true, loads := [{ addr := at_, pa := pa, tag := s.nextTag unit, late := pipeLate s t, sent := true }] }] }) p ∧
          p.typ = 7 ∧ p.pa = pa ∧ p.tenant = t)))

/-- A started chain of one buffer whose data has come goes to its port as a frame, in mode RAW (R366, R367, R387). -/
def FrameSent : Prop :=
  ∀ (s : State) (t q p v : Nat) (d : SqDesc) (acc : LineAcc), t < 512 → q < 8 → p < 20 →
    let x := s.qp t q
    let bs := sub (wordBytes 64 v) (fld d.a 0 44 % 64) (fld d.b 0 14 + 1)
    let port := 20 * pipeOf t + p
    let tc := s.f (R.MEQ_QP_CFG t q) F.MEQ_QP_CFG_tc
    let f : EFrame := { (classifyVlan s (pipeOf t) 20 { parseFrame bs with owner := some (t, q, d.asn) }).1 with tc := tc }
    let y := s.port port
    x.chains = [{ descs := [d], started := true, loads := [acc] }] → acc.got = some (.data v) → fld d.a 0 44 % 64 + (fld d.b 0 14 + 1) ≤ 64 →
    isMsg s t q = false → s.f (R.MEQ_QP_PORT t q) F.MEQ_QP_PORT_ports = 2 ^ p → s.f (R.MEQ_QP_RATE t q) F.MEQ_QP_RATE_rate = 0 →
    (parseFrame bs).ntscf = false → streamOf s (pipeOf t) 20 f = none → portUp s port = true → queueHasRoom s port tc bs.length = true →
    s.transmit t q = { withQp s t q { x with chains := [{ descs := [d], started := true }] } with
      ports := mset s.ports port { y with queues := mset y.queues tc (mget [] y.queues tc ++ [f]) } }

/-- The ends of what channels do, messages received, numbers set and counters read (R355, R359, R360, R364 to R366, R370, R374, R375). -/
def ChannelEvents : Prop :=
  ∀ (s : State) (t q : Nat), t < 512 → q < 8 → pipeRuns s (pipeOf t) = true →
    let x := s.qp t q
    let st := s.f (R.MEQ_QP_STAT t q) F.MEQ_QP_STAT_state
    let now := fun (n : Nat) => s.setF (R.MEQ_QP_STAT t q) F.MEQ_QP_STAT_state n
    let gains := fun (m : SMap Nat) (i n : Nat) => mset m i ((mget 0 m i + n) % 2 ^ 48)
    let dropped := fun (y : Qp) (cause : Nat) => { y with pendDrops := min 0xFFFF (y.pendDrops + 1), pendCause := y.pendCause ||| 2 ^ (cause - 48),
                                                          drops := (y.drops + 1) % 2 ^ 48, cnt := gains y.cnt 2 1 }
    (∀ c casn tag pa e, x.posting = some (c, casn, tag, pa, e) → x.cq = [] → (∀ p ∈ s.inbox, p.dst ≠ pipeUnit (pipeOf t)) →
      (Leads (.completionPosted t q (.data 0)) s (fun u =>
        let w := withQp s t q { x with posting := none, posted := casn, completed := if c.ncons = 0 then x.completed else num32 (c.asn + c.ncons + 2 ^ 32 - 1) }
        u = if s.f (R.MEQ_QP_CFG t q) F.MEQ_QP_CFG_nen = 1 then
            w.inject { net := 0, typ := 0xB, src := pipeUnit (pipeOf t), dst := clusterUnit (s.f (R.MEQ_QP_CFG t q) F.MEQ_QP_CFG_ncl), tag := q, tenant := t,
                       size := 0, clsA := false }
          else w)) ∧
      (Settled x → c.asn < 2 ^ 32 → Leads (.completionPosted t q .poison) s (fun u =>
        u = withQp (faulted s t q) t q { x with posting := none, faultAsn := c.asn, faultStatus := 6, startAt := none }))) ∧
    (∀ ns d, x.startAt = some (ns, d) →
      (st = 1 → ns ≤ gptpNs s (pipeOf t) → x.chains = [] → Completes (.timedStart t q) s (now 2) t q { x with startAt := none, cur := none }
        { status := 0, ncons := 1, asn := d.asn, tag := d.tag }) ∧
      (gptpNs s (pipeOf t) < ns → exec (.timedStart t q) s = .next s)) ∧
    (∀ c, x.stopC = some c → (st = 3 → x.chains = [] → x.fills = [] → Completes (.channelDrainEnd t q) s (now 0) t q { x with stopC := none } c) ∧
      (x.chains ≠ [] ∨ x.fills ≠ [] → exec (.channelDrainEnd t q) s = .next s)) ∧
    (∀ c, x.chains = [c] → c.started = true → c.loads = [] → c.frames = [] → x.stopC = none → c.descs ≠ [] →
      (∀ p k f, f ∈ mget [] (s.port p).queues k → ∀ n, f.owner ≠ some (t, q, n)) →
      (s.ports.map (·.1)).Nodup → (∀ p ∈ s.ports, (p.2.queues.map (·.1)).Nodup) →
      Completes (.sendChainComplete t q) s s t q { x with chains := [], cnt := gains (gains x.cnt 0 1) 1 (c.cqe 0).length } (c.cqe 0)) ∧
    (∀ a rest, x.arr = a :: rest → isMsg s t q = false →
      let y := { x with arr := rest }
      let n := a.bytes.length
      let runs := st = 2 ∧ tenantRuns s (pipeOf t) t = true
      let limit := s.f (R.MEQ_QP_MSG t q) F.MEQ_QP_MSG_max_msg
      let room := Machine.dist x.acked (num32 (x.posted + x.cq.length + x.fills.length + (if x.posting = none then 0 else 1) +
        (if x.rx = none then 0 else 1) + 1)) ≤ cqSize s t q
      let drops := fun (cause : Nat) => Leads (.receiveMessage t q) s (fun u => u = withQp s t q (dropped y cause))
      (¬runs → drops 54) ∧ (runs → x.free = [] → drops 48) ∧
      (n ≤ 2 ^ s.f (R.MEQ_QP_CFG t q) F.MEQ_QP_CFG_buf_log2 → runs → x.free ≠ [] →
        (limit < n → drops 52) ∧ (n ≤ limit → ¬room → drops 49) ∧
        (∀ b free pa, x.free = b :: free → x.fills = [] → n ≤ limit → room → 1 ≤ n → n ≤ 64 →
          freeTag s (pipeUnit (pipeOf t)) = true → tenantPa s t b.addr true = some pa →
          let line : Line := BitVec.ofNat 512 (bytesNat a.bytes)
          Leads (.receiveMessage t q) s (fun u => ∃ p, u = State.request (withQp s t q { y with
              free := free,
              fills := [{ accs := [{ addr := b.addr, write := some line, pa := pa, tag := s.nextTag (pipeUnit (pipeOf t)), late := pipeLate s t, sent := true }],
                          done := { status := 0, asn := b.asn, tag := b.tag, length := n, nbuf := 1, port := a.port, macc := 0, ts := a.ts } }] }) p ∧
            p.typ = 9 ∧ p.pa = pa ∧ p.data = line ∧ p.tenant = t)))) ∧
    (∀ f n, x.fills = [f] → x.chains = [] → x.stopC = none → f.done.port ≠ 63 → (∀ a ∈ f.accs, ∃ v, a.got = some (.data v)) →
      Posted s (s.runFills t q (n + 1)) t q { x with fills := [], cnt := gains (gains x.cnt 0 1) 1 f.done.length } f.done) ∧
    (∀ r, x.rx = some r →
      let time := max 1 (s.f (R.MEQ_QP_ACC t q) F.MEQ_QP_ACC_reasm) * 64
      (r.since + time ≤ s.ref → Leads (.reassemblyTimeout t q) s (fun u => u = withQp s t q (dropped { x with rx := none, free := r.bufs ++ x.free } 51))) ∧
      (s.ref < r.since + time → exec (.reassemblyTimeout t q) s = .next s)) ∧
    (∀ (ag : Agent) (v : Word), Written s .meqt (R.MEQ_QP_SEQ t q) ag →
      let T := acked s ag (R.MEQ_QP_SEQ t q)
      let a := num32 (fld v 0 32 + 2 ^ 32 - 1)
      let c := num32 (fld v 32 32 + 2 ^ 32 - 1)
      (st = 0 → Leads (.meqQpSeq ag t q v) s (fun u =>
        Sets (withQp (T.dropAccs t ((x.scan.map (fun y => [y.acc])).getD [])) t q { x with
          consumed := a, doorbell := a, completed := a, posted := c, acked := c, reads := [], scan := none, stall := false }) u
          [(R.MEQ_QP_STAT t q, F.MEQ_QP_STAT_valid, 1)])) ∧
      (st ≠ 0 → Leads (.meqQpSeq ag t q v) s (fun u => u = T))) ∧
    (∀ (ag : Agent) (v : Word), Written s .meqt (R.MEQ_QP_CNTREQ t q) ag → Leads (.meqQpCntreq ag t q v) s (fun u =>
      Sets (acked s ag (R.MEQ_QP_CNTREQ t q)) u [(R.MEQ_QP_CNT t q, whole, mget 0 x.cnt (fld v 0 2) + 2 ^ 62)]))
end Sys2Proof.Claims

/-- The message engine: SQ_DB, CQ_ACK, ABORT, REBUILD, DESCRIPTOR_READ; NOP_DESCRIPTOR, SEND, POST, START, STOP, EDIT, RESUME; COMPLETION_POSTED,
TIMED_START, CHANNEL_DRAIN_END, SEND_CHAIN_COMPLETE, RECEIVE_MESSAGE, REASSEMBLY_TIMEOUT, MEQ_QP_SEQ and MEQ_QP_CNTREQ (R337 to R378). A SEND on a receive
channel and a POST on a transmit channel answer STATE by the model's choice (log 39). -/
def Obligations.MessageEngine : Prop := CompletionFields ∧ DoorbellsAndReads ∧ ChannelCommands ∧ FrameSent ∧ ChannelEvents

namespace Sys2Proof.Claims
/-- The counters of the controllers and gateways count and are far from wrapping. -/
def busCounts (s : State) : Prop :=
  s.f R.PMU_SNAP F.PMU_SNAP_frozen = 0 ∧ (∀ n i, n < 24 → i < 10 → s.f (R.CAN_CNT n i) F.CAN_CNT_count < 2 ^ 47) ∧
    (∀ m i, m < 16 → i < 5 → s.f (R.LIN_CNT m i) F.LIN_CNT_count < 2 ^ 47) ∧
    ∀ h i, h < 2 → i < 7 → s.f (R.CAN_GW_CNT (12 * h) i) F.CAN_GW_CNT_count < 2 ^ 47

def canGain (s : State) (n i k : Nat) : Nat × Fld × Nat := (R.CAN_CNT n i, F.CAN_CNT_count, s.f (R.CAN_CNT n i) F.CAN_CNT_count + k)
def linGain (s : State) (m i : Nat) : Nat × Fld × Nat := (R.LIN_CNT m i, F.LIN_CNT_count, s.f (R.LIN_CNT m i) F.LIN_CNT_count + 1)
def gwGain (s : State) (h i : Nat) : Nat × Fld × Nat := (R.CAN_GW_CNT (12 * h) i, F.CAN_GW_CNT_count, s.f (R.CAN_GW_CNT (12 * h) i) F.CAN_GW_CNT_count + 1)
def canFlag (n i : Nat) : Nat × Fld × Nat := (R.CAN_IRQ n, ⟨i, 1⟩, 1)
def linFlag (m i : Nat) : Nat × Fld × Nat := (R.LIN_IRQ m, ⟨i, 1⟩, 1)

def withCan (s : State) (n : Nat) (y : CanCtl) : State := { s with cans := mset s.cans n y }
def withLin (s : State) (m : Nat) (y : LinCtl) : State := { s with lins := mset s.lins m y }
def withGw (s : State) (h : Nat) (y : Gateway) : State := { s with gws := mset s.gws h y }

/-- What new error counts below bus-off leave: the counts, the error state, and the warnings (R420). -/
def canLevels (s : State) (n tec rec_ : Nat) : List (Nat × Fld × Nat) :=
  let a := R.CAN_STAT n
  let est := s.f a F.CAN_STAT_est
  let passive := 128 ≤ tec ∨ 128 ≤ rec_
  [(a, F.CAN_STAT_tec, min 255 tec), (a, F.CAN_STAT_rec, min 255 rec_), (a, F.CAN_STAT_est, if passive then (if est = 0 then 1 else est) else 0)] ++
    (if (s.f a F.CAN_STAT_tec < 96 ∧ 96 ≤ tec) ∨ (s.f a F.CAN_STAT_rec < 96 ∧ 96 ≤ rec_) then [canFlag n 2] else []) ++
    (if passive ∧ est = 0 then [canFlag n 1] else [])

/-- The frame `t` that arbitration would send from a queue: the lowest arbitration field, the oldest among equals (R421). -/
def wins (l r : List CanTx) (t : CanTx) (x : CanCtl) : Prop :=
  x.queue = l ++ t :: r ∧ (∀ y ∈ l, canKey t.f < canKey y.f) ∧ ∀ y ∈ r, canKey t.f ≤ canKey y.f

/-- The CAN controllers (R418 to R422). -/
def CanControllers : Prop :=
  ∀ (s : State) (n : Nat), n < 24 → pipeRuns s (n / 12) = true → busCounts s →
    let a := R.CAN_STAT n
    let x := s.can n
    let st := s.f a F.CAN_STAT_state
    let est := s.f a F.CAN_STAT_est
    let tec := s.f a F.CAN_STAT_tec
    let rec_ := s.f a F.CAN_STAT_rec
    let held := heldInReset s (n / 12) = true
    (∀ ag, Written s .can (R.CAN_CTL n) ag →
      let t := acked s ag (R.CAN_CTL n)
      (st ≠ 0 ∨ held → Leads (.canResume ag n) s (fun u => u = t)) ∧
      (st = 0 → ¬held → s.f (R.CAN_NTIM n) F.CAN_NTIM_brp = 0 → Leads (.canResume ag n) s (fun u => Sets t u [(a, F.CAN_STAT_reason, 1)])) ∧
      (st = 0 → ¬held → canReason s n ≠ 0 → Leads (.canResume ag n) s (fun u => Sets t u [(a, F.CAN_STAT_reason, canReason s n)])) ∧
      (st = 0 → ¬held → canReason s n = 0 → Leads (.canResume ag n) s (fun u => Sets t u
        [(a, F.CAN_STAT_state, 1), (a, F.CAN_STAT_est, 0), (a, F.CAN_STAT_tec, 0), (a, F.CAN_STAT_rec, 0)])) ∧
      (st ≠ 1 → Leads (.canStop ag n) s (fun u => u = t)) ∧
      (st = 1 → x.queue.length < 2 ^ 47 → x.offer = none → Leads (.canStop ag n) s (fun u =>
        Sets (withCan t n { queue := [], offer := none }) u [canGain s n 9 x.queue.length, (a, F.CAN_STAT_state, 0)])) ∧
      (∀ o l r, st = 1 → x.queue.length < 2 ^ 47 → x.offer = some o → x.queue = l ++ o :: r → o ∉ l → o ∉ r → Leads (.canStop ag n) s (fun u =>
        Sets (withCan t n { queue := [o], offer := some o }) u [canGain s n 9 (x.queue.length - 1), (a, F.CAN_STAT_state, 2)]))) ∧
    (st = 1 → est < 2 →
      (∀ kind, kind = 3 → s.f (R.CAN_CFG n) F.CAN_CFG_pex = 1 → Leads (.canBusError n kind) s (fun u => Sets s u [canGain s n 8 1])) ∧
      (Leads (.canBusError n 0) s (fun u => Sets (withCan s n x) u (canGain s n 2 1 :: canLevels s n tec (rec_ + 1)))) ∧
      (Leads (.canBusError n 1) s (fun u => Sets (withCan s n x) u (canGain s n 2 1 :: canLevels s n tec (rec_ + 8)))) ∧
      (tec + 8 < 256 → Leads (.canBusError n 2) s (fun u => Sets (withCan s n { x with offer := none }) u (canGain s n 2 1 :: canLevels s n (tec + 8) rec_))) ∧
      (256 ≤ tec + 8 → x.queue.length < 2 ^ 47 → Leads (.canBusError n 2) s (fun u => Sets (withCan s n { queue := [], offer := none }) u
        [(a, F.CAN_STAT_tec, 255), (a, F.CAN_STAT_est, 2), canGain s n 2 1, canGain s n 9 x.queue.length, canGain s n 4 1, canFlag n 0]))) ∧
    (st = 1 → est = 2 → s.f (R.CAN_CFG n) F.CAN_CFG_aboff = 1 → Leads (.busOffRecovery n) s (fun u =>
      Sets s u [(a, F.CAN_STAT_est, 0), (a, F.CAN_STAT_tec, 0), (a, F.CAN_STAT_rec, 0)])) ∧
    (s.f (R.CAN_CFG n) F.CAN_CFG_aboff = 0 → exec (.busOffRecovery n) s = .next s) ∧
    (∀ f : CanFrame, st = 1 → est < 2 → (f.fmt = 0 ∧ f.data.length ≤ 8) ∨ (f.fmt = 1 ∧ f.data.length ≤ 64 ∧ s.f (R.CAN_CFG n) F.CAN_CFG_fd_en = 1) ∨
        (f.fmt = 2 ∧ 1 ≤ f.data.length ∧ f.data.length ≤ 2048 ∧ s.f (R.CAN_CFG n) F.CAN_CFG_xl_en = 1) →
      let g := s.gw (n / 12)
      Leads (.canFrameReceived n f) s (fun u => Sets (withGw s (n / 12) { g with inq := g.inq ++ [(n % 12, f, gptpNs s (n / 12))] }) u
        (canGain s n 0 1 :: canLevels s n tec (if 127 < rec_ then 127 else rec_ - 1)))) ∧
    (∀ l r t, wins l r t x →
      let ttl := s.f (R.CAN_CFG n) F.CAN_CFG_ttl
      let old := ttl ≠ 0 ∧ t.since + ttl * 1024 < s.ref
      (old → Leads (.ttlExpiry n) s (fun u => Sets (withCan s n { x with queue := l ++ r }) u [canGain s n 6 1, canFlag n 3])) ∧
      (¬old → exec (.ttlExpiry n) s = .next s) ∧
      (¬old → st = 1 → est < 2 → s.f (R.CAN_CFG n) F.CAN_CFG_lom = 0 → Leads (.canFrameOffer n) s (fun u =>
        Sets (withCan s n { x with offer := some t }) u (if x.offer = none then [] else [canGain s n 3 1]))) ∧
      (x.offer = some t → st = 1 → est < 2 → Leads (.canFrameSent n) s (fun u => Sets (withCan s n { queue := l ++ r, offer := none }) u
        (canGain s n 1 1 :: canLevels s n (tec - 1) rec_))))

/-- The LIN controllers (R423 to R425). -/
def LinControllers : Prop :=
  ∀ (s : State) (m : Nat), m < 16 → pipeRuns s (m / 8) = true → busCounts s →
    let a := R.LIN_STAT m
    let x := s.lin m
    let st := s.f a F.LIN_STAT_state
    let commander := s.f (R.LIN_CFG m) F.LIN_CFG_role = 1
    let held := heldInReset s (m / 8) = true
    let ends := if st = 2 then [(a, F.LIN_STAT_state, 0)] else []
    (∀ ag, Written s .lin (R.LIN_CTL m) ag →
      let t := acked s ag (R.LIN_CTL m)
      let lbt := s.f (R.LIN_CFG m) F.LIN_CFG_lbt
      (st = 0 → ¬held → lbt < 8000 ∨ 160000 < lbt → Leads (.linResume ag m) s (fun u => Sets t u [(a, F.LIN_STAT_reason, 1)])) ∧
      (st = 0 → ¬held → linReason s m ≠ 0 → Leads (.linResume ag m) s (fun u => Sets t u [(a, F.LIN_STAT_reason, linReason s m)])) ∧
      (st = 0 → ¬held → linReason s m = 0 → Leads (.linResume ag m) s (fun u => Sets (withLin t m {}) u [(a, F.LIN_STAT_state, 1), (a, F.LIN_STAT_sleep, 0)])) ∧
      (st = 1 → Leads (.linStop ag m) s (fun u => Sets t u [(a, F.LIN_STAT_state, if x.await = none then 0 else 2)])) ∧
      (st ≠ 1 → Leads (.linStop ag m) s (fun u => u = t)) ∧
      (st = 1 → Leads (.linWake ag m) s (fun u => Sets (withLin t m { x with wakeEnd := some (s.ref + 25000) }) u [(a, F.LIN_STAT_sleep, 0)]))) ∧
    (st = 1 → commander → x.halted = false → (∀ e, x.last = some e → x.breakAt + s.f (R.LIN_SCHED m e) F.LIN_SCHED_slot * 250 ≤ s.ref) →
      let id := s.f (R.LIN_SCHED m x.entry) F.LIN_SCHED_id
      let nxt := if x.entry < s.f (R.LIN_CFG m) F.LIN_CFG_nsched then x.entry + 1 else 0
      Leads (.linScheduleEntry m) s (fun u => u = withLin s m { x with entry := nxt, last := some x.entry, breakAt := s.ref, wire := [BitVec.ofNat 8 (linPid id)] })) ∧
    (¬commander → exec (.linScheduleEntry m) s = .next s) ∧
    (∀ id, st = 1 → id < 64 →
      let r := R.LIN_RESP m id
      let n := s.f r F.LIN_RESP_len
      let enh := decide (s.f r F.LIN_RESP_enh = 1)
      Leads (.linHeader m id false) s (fun u => Sets s u [linGain s m 4, linFlag m 0]) ∧
      (∀ b, 1 ≤ n → n ≤ 8 → s.f r F.LIN_RESP_pub = 1 → x.bufs.find? (fun q => q.1 = id) = some (id, b) → Leads (.linHeader m id true) s (fun u =>
        Sets (withLin s m { x with wire := b ++ [BitVec.ofNat 8 (linSum id enh b)] }) u [linGain s m 1])) ∧
      (1 ≤ n → n ≤ 8 → s.f r F.LIN_RESP_pub = 0 → s.f r F.LIN_RESP_sub = 1 → Leads (.linHeader m id true) s (fun u => u = withLin s m { x with await := some id })) ∧
      (s.f r F.LIN_RESP_pub = 0 → s.f r F.LIN_RESP_sub = 0 → exec (.linHeader m id true) s = .next s)) ∧
    (∀ id, x.await = some id →
      (∀ data, data.length = s.f (R.LIN_RESP m id) F.LIN_RESP_len →
        let g := s.gw (m / 8)
        Leads (.linResponseReceived m data true) s (fun u => Sets (withGw (withLin s m { x with await := none }) (m / 8)
          { g with inq := g.inq ++ [(12 + m % 8, { fmt := 3, id := id, data := data }, gptpNs s (m / 8))] }) u (linGain s m 0 :: ends)) ∧
        Leads (.linResponseReceived m data false) s (fun u => Sets (withLin s m { x with await := none }) u ([linGain s m 2, linFlag m 0] ++ ends))) ∧
      Leads (.linNoResponse m) s (fun u => Sets (withLin s m { x with await := none }) u ([linGain s m 3, linFlag m 0] ++ ends))) ∧
    (st = 1 → Leads (.goToSleep m) s (fun u => Sets (withLin s m { x with halted := true, wakeEnd := none }) u [(a, F.LIN_STAT_sleep, 1), linFlag m 2])) ∧
    (st = 1 → Leads (.wakeUpSignal m) s (fun u => Sets (withLin s m { x with wakeEnd := some s.ref }) u [(a, F.LIN_STAT_sleep, 0), linFlag m 1])) ∧
    (∀ e, x.wakeEnd = some e →
      (st = 1 → commander → x.halted = true → e + 2500000 ≤ s.ref → Leads (.scheduleResume m) s (fun u =>
        u = withLin s m { x with halted := false, wakeEnd := none, entry := 0, last := none })) ∧
      (s.ref < e + 2500000 → exec (.scheduleResume m) s = .next s))

/-- The gateways (R427 to R431). -/
def Gateways : Prop :=
  ∀ (s : State) (h : Nat), h < 2 → pipeRuns s h = true → busCounts s →
    let g := s.gw h
    let ready := fun (n : Nat) (f : CanFrame) => s.f (R.CAN_STAT n) F.CAN_STAT_state = 1 ∧ s.f (R.CAN_STAT n) F.CAN_STAT_est < 2 ∧
      s.f (R.CAN_CFG n) F.CAN_CFG_lom = 0 ∧ formatOn s n f.fmt = true ∧ canLenOk f = true ∧ (s.can n).queue.length < 32
    (∀ src f ts, g.inq = [(src, f, ts)] →
      let taken := withGw s h { g with inq := [] }
      ((∀ r, r < 256 → ruleMatches s h r src f = false) → Leads (.gatewayFrame h) s (fun u => Sets taken u [gwGain s h 0])) ∧
      (∀ r d, r < 256 → ruleMatches s h r src f = true → (∀ j, j < r → ruleMatches s h j src f = false) → d < 12 → d ≠ src →
        s.f (R.CAN_GW_RULE (12 * h) r + 8) F.CAN_GW_RULE_dstmask = 2 ^ d → s.f (R.CAN_GW_ACT (12 * h) r) F.CAN_GW_ACT_q_en = 0 →
        s.f (R.CAN_GW_ACT (12 * h) r) F.CAN_GW_ACT_acf_en = 0 →
        let n := 12 * h + d
        let nid := s.f (R.CAN_GW_RULE (12 * h) r + 8) F.CAN_GW_RULE_nid
        let puts := fun (f' : CanFrame) => Leads (.gatewayFrame h) s (fun u => u = withCan taken n { s.can n with queue := (s.can n).queue ++ [⟨f', s.ref⟩] })
        (s.f (R.CAN_GW_RULE (12 * h) r + 8) F.CAN_GW_RULE_nid_en = 0 → f.fmt ≠ 3 → ready n f → puts f) ∧
        (s.f (R.CAN_GW_RULE (12 * h) r + 8) F.CAN_GW_RULE_nid_en = 1 →
          ready n { fmt := 0, id := nid, rtr := f.rtr, data := f.data } → puts { fmt := 0, id := nid, rtr := f.rtr, data := f.data }) ∧
        (s.f (R.CAN_GW_RULE (12 * h) r + 8) F.CAN_GW_RULE_nid_en = 0 → f.fmt ≠ 3 → s.f (R.CAN_STAT n) F.CAN_STAT_state ≠ 1 →
          Leads (.gatewayFrame h) s (fun u => Sets taken u [canGain s n 7 1, canFlag n 3])))) ∧
    (∀ a b f f' ts, g.inq = [(a, f, ts), (b, f', ts)] → b < a → (∀ r, r < 256 → ruleMatches s h r b f' = false) →
      Leads (.gatewayFrame h) s (fun u => Sets (withGw s h { g with inq := [(a, f, ts)] }) u [gwGain s h 0])) ∧
    (∀ b rest, g.streams = b :: rest → (∀ u, u < 32 → s.f (R.CAN_GW_UNPK (12 * h) u + 8) F.CAN_GW_UNPK_v = 0) →
      Leads (.streamFrameUnpack h) s (fun u => Sets (withGw s h { g with streams := rest }) u [gwGain s h 3])) ∧
    (∀ (rest : List (List Byte)) (q sid k src : Nat) (f : CanFrame) (ts : Nat),
      let acf := acfMessage src f ts
      g.streams = (beBytes 2 0x22F0 ++ beBytes 1 0x82 ++ beBytes 2 (0x8000 + acf.length % 2048) ++ beBytes 1 q ++ beBytes 8 sid ++ acf) :: rest →
      sid < 2 ^ 64 → k < 32 → s.f (R.CAN_GW_UNPK (12 * h) k + 8) F.CAN_GW_UNPK_v = 1 → s.f (R.CAN_GW_UNPK (12 * h) k) F.CAN_GW_UNPK_stream_id = sid →
      (∀ j, j < k → s.f (R.CAN_GW_UNPK (12 * h) j + 8) F.CAN_GW_UNPK_v = 0) → src < 12 →
      (s.f (R.CAN_GW_UNPK (12 * h) k + 8) F.CAN_GW_UNPK_canmask).testBit src = true → f.fmt < 2 → f.id < 2 ^ 29 → f.data.length ≤ 64 →
      f.sdt = 0 → f.vcid = 0 → f.sec = false → f.af = 0 → ready (12 * h + src) f →
      let n := 12 * h + src
      Leads (.streamFrameUnpack h) s (fun u =>
        Sets (withCan (withGw s h { g with streams := rest }) n { s.can n with queue := (s.can n).queue ++ [⟨f, s.ref⟩] }) u [gwGain s h 6]))
end Sys2Proof.Claims

/-- CAN, LIN and the gateways: CAN_RESUME, CAN_STOP, CAN_BUS_ERROR, BUS_OFF_RECOVERY, CAN_FRAME_RECEIVED, TTL_EXPIRY, CAN_FRAME_OFFER, CAN_FRAME_SENT;
LIN_RESUME, LIN_STOP, LIN_SCHEDULE_ENTRY, LIN_HEADER, LIN_RESPONSE_RECEIVED, LIN_NO_RESPONSE, GO_TO_SLEEP, WAKE_UP_SIGNAL, LIN_WAKE, SCHEDULE_RESUME;
GATEWAY_FRAME and STREAM_FRAME_UNPACK (R418 to R431). The steps of the error counts, the arbitration field and the layout of messages in streams are the
model's, from the standards that the spec names (logs 32, 41 and 42). -/
def Obligations.CanLinAndGateways : Prop := CanControllers ∧ LinControllers ∧ Gateways

/-- A step takes the command at the front of the queue and does what it does on the state with the queue's rest; with none waiting, the
block's clock takes one [ref] edge (log 1: the model's choice). -/
def Obligations.StepTakesFront : Prop :=
  (∀ (s : State) (i : Instr) (l : List Instr), s.pending = i :: l → step s = exec i { s with pending := l }) ∧
  ∀ s : State, s.pending = [] → step s = .next s.tick

/-- No command puts a command into the queue or takes one out: the block takes them first in, first out. -/
def Obligations.QueueInOrder : Prop :=
  (∀ (i : Instr) (s t : State), exec i s = .next t → t.pending = s.pending) ∧
  ∀ s t : State, step s = .next t → t.pending = s.pending.tail

/-- A step keeps memory in its canonical form (log 2): addresses strictly rising, and no byte listed that an unlisted one reads as. -/
def Obligations.StepKeepsMemory : Prop :=
  ∀ s t : State, memWf s.mem = true → step s = .next t → memWf t.mem = true

/-- Memory after a write of `n` bytes holds them, the lowest address the least significant (R17), and every other byte as before; a line
written reads back; and memories in canonical form that read the same are the same. -/
def Obligations.MemoryReadsBack : Prop :=
  (∀ (m : List Host.Cell) (a v n : Nat), memWf m = true →
    memRead (memWrite m a v n) a n = v % 256 ^ n ∧
    ∀ i, memGet (memWrite m a v n) i = if a ≤ i ∧ i < a + n then BitVec.ofNat 8 (v / 256 ^ (i - a)) else memGet m i) ∧
  (∀ (s : State) (k : Nat) (d : Line) (p : Bool), memWf s.mem = true →
    (s.putLine k d p).memLine k = d ∧ ∀ j, j ≠ k → (s.putLine k d p).memLine j = s.memLine j) ∧
  ∀ m l : List Host.Cell, memWf m = true → memWf l = true → (∀ a, memGet m a = memGet l a) → m = l

/-- The words of a syllable, decoded, are that syllable, for every instruction and all operands its encoding admits; and a bundle of it,
wherever in its fetch block it fits, is that one syllable (R48 to R60). -/
def Obligations.SyllablesDecode : Prop :=
  ∀ (o : Op) (x : Syl) (stop : Bool), encodable o x = true →
    (match encodeSyl o x stop with
     | [w] => x.ext = false ∧ w.getLsbD 31 = stop ∧ decodeSyl x.core x.bank w none = some (o, x)
     | [w, e] => x.ext = true ∧ w.getLsbD 31 = false ∧ e.getLsbD 31 = stop ∧ isExt e = true ∧ decodeSyl x.core x.bank w (some e) = some (o, x)
     | _ => False) ∧
    ∀ (n : Nat) (l : List (BitVec 32)), n + words x ≤ 8 →
      decodeBundle x.core x.bank n (encodeSyl o x true ++ l) = .ok [(o, x)] (words x)

/-- The state after reset (R71, R513, R585): core 112 runs thread 0 of cluster 14 in its bank 0, at the reset vector, in world 1 and at
level M, all its registers zero; every other bank is EMPTY; of the switched domains core 112, cluster 14 and the crypto engines are
ON; no command waits. Every register of the list holds its table's reset value but for that thread's and the locked generators'. That DRAM reads as zero
is the model's (log 2), as is that reset is the state after the start-up (log 50). -/
def Obligations.ResetState : Prop :=
  let s := State.reset
  let b := s.bank 112 0
  (b.pc = 0xFFFFFF00000 ∧ b.st = .run ∧ b.thread = some 0 ∧ b.depth = 0 ∧ b.resv = none ∧ b.tenant = 0 ∧ b.asid = 0 ∧ (∀ n, b.g n = 0) ∧
    b.psw = { pl := 3, world := true, ie := false, fie := false, wcur := 0, wres := 1, tw := false, rsm := false, rsl := false, rsd := 0,
              cf0 := false, cf1 := false, vf0 := false, vf1 := false, bank := 0, fast := false } ∧
    b.folio = 0 ∧ b.tvbs = 0 ∧ b.tvbp = 0 ∧ b.tvbm = 0 ∧ b.psec = 0 ∧ (∀ i, mget 0 b.mreg i = 0) ∧ b.rst = 0) ∧
  (∀ c bi, c < 128 → bi < 8 → ¬(c = 112 ∧ bi = 0) → (s.bank c bi).st = .empty ∧ (s.bank c bi).thread = none ∧ (s.bank c bi).psw.bank = bi) ∧
  (s.f (R.SCHED_THR_A 14 0) F.SCHED_THR_A_valid = 1 ∧ s.f (R.SCHED_THR_A 14 0) F.SCHED_THR_A_tenant = 0 ∧
    s.f (R.SCHED_THR_A 14 0) F.SCHED_THR_A_folio = 0 ∧ s.f (R.SCHED_THR_B 14 0) F.SCHED_THR_B_prio = 7) ∧
  (∀ d, d < 218 → (domOn s d = true ↔ d = 112 ∨ d = 142 ∨ d = 216)) ∧
  (∀ a, a ≠ R.SCHED_THR_A 14 0 → a ≠ R.SCHED_THR_B 14 0 → (∀ i, i ∈ bootIslands → a ≠ R.CLK_ISL i) → s.reg a = regReset a) ∧
  s.pending = [] ∧ memWf s.mem = true ∧ (∀ a, memGet s.mem a = 0) ∧ s.poison = []
end

