-- ==== Sys2Proof/Laws/Maps.lean ====
section
/-! SUPPORT. Reading a sparse table, and a field of a word, after a write of it. -/

namespace Sys2Proof.Machine

/-! ## Sparse tables -/

@[simp] theorem mget_nil {α : Type} (d : α) (k : Nat) : mget d [] k = d := rfl

@[simp] theorem mget_mset_self {α : Type} (d : α) (m : SMap α) (k : Nat) (x : α) : mget d (mset m k x) k = x := by
  induction m with
  | nil => simp [mset, mget]
  | cons e m ih =>
    obtain ⟨j, y⟩ := e
    unfold mset
    split
    · simp [mget]
    · split
      · simp [mget]
      · rename_i h1 h2
        simp [mget, ih, Ne.symm h2]

theorem mget_mset_ne {α : Type} (d : α) (m : SMap α) {k j : Nat} (x : α) (h : j ≠ k) : mget d (mset m k x) j = mget d m j := by
  induction m with
  | nil => simp [mset, mget, Ne.symm h]
  | cons e m ih =>
    obtain ⟨i, y⟩ := e
    unfold mset
    split
    · simp [mget, Ne.symm h]
    · split
      · rename_i h2
        subst h2
        simp [mget, Ne.symm h]
      · simp [mget, ih]

theorem mget_mset {α : Type} (d : α) (m : SMap α) (k j : Nat) (x : α) : mget d (mset m k x) j = if j = k then x else mget d m j := by
  by_cases h : j = k
  · subst h; simp
  · simp [h, mget_mset_ne d m x h]

@[simp] theorem mget_mdel_self {α : Type} (d : α) (m : SMap α) (k : Nat) : mget d (mdel m k) k = d := by
  induction m with
  | nil => rfl
  | cons e m ih =>
    obtain ⟨j, y⟩ := e
    by_cases h : j = k
    · subst h; simpa [mdel] using ih
    · have : mdel ((j, y) :: m) k = (j, y) :: mdel m k := by simp [mdel, h]
      simp [this, mget, h, ih]

theorem mget_mdel_ne {α : Type} (d : α) (m : SMap α) {k j : Nat} (h : j ≠ k) : mget d (mdel m k) j = mget d m j := by
  induction m with
  | nil => rfl
  | cons e m ih =>
    obtain ⟨i, y⟩ := e
    by_cases hi : i = k
    · subst hi
      have : mdel ((i, y) :: m) i = mdel m i := by simp [mdel]
      rw [this, ih]; simp [mget, Ne.symm h]
    · have : mdel ((i, y) :: m) k = (i, y) :: mdel m k := by simp [mdel, hi]
      simp [this, mget, ih]

/-- A table whose entries are changed alike holds the changed entry, where the default is changed into itself. -/
theorem mget_map {α : Type} (d : α) (m : SMap α) (f : α → α) (k : Nat) (h : f d = d) :
    mget d (m.map (fun p => (p.1, f p.2))) k = f (mget d m k) := by
  induction m with
  | nil => simp [h]
  | cons e m ih =>
    obtain ⟨j, y⟩ := e
    simp only [List.map_cons, mget, ih]
    split <;> rfl

/-! ## Fields -/

/-- A field of a word by its bits. -/
theorem fld_testBit (x : Word) (lo w i : Nat) : (fld x lo w).testBit i = (decide (i < w) && x.getLsbD (lo + i)) := by
  simp [fld, Nat.testBit_mod_two_pow, Nat.testBit_shiftRight, BitVec.getLsbD]

theorem setFld_getLsbD (x : Word) (lo w v i : Nat) (h : lo + w ≤ 64) :
    (setFld x lo w v).getLsbD i = if lo ≤ i ∧ i < lo + w then v.testBit (i - lo) else x.getLsbD i := by
  have hm : (fmask lo w).getLsbD i = (decide (i < 64) && decide (lo ≤ i) && decide (i - lo < w)) := by
    simp [fmask, BitVec.getLsbD_ofNat, Nat.testBit_shiftLeft, Nat.testBit_two_pow_sub_one, Bool.and_assoc]
  have hv : (BitVec.ofNat 64 ((v % 2 ^ w) <<< lo)).getLsbD i
      = (decide (i < 64) && decide (lo ≤ i) && (decide (i - lo < w) && v.testBit (i - lo))) := by
    simp [BitVec.getLsbD_ofNat, Nat.testBit_shiftLeft, Nat.testBit_mod_two_pow, Bool.and_assoc]
  unfold setFld
  rw [BitVec.getLsbD_or, BitVec.getLsbD_and, BitVec.getLsbD_not, hm, hv]
  by_cases h1 : lo ≤ i ∧ i < lo + w
  · have h2 : i < 64 := by omega
    have h3 : i - lo < w := by omega
    simp [h1, h2, h3]
  · by_cases h2 : i < 64
    · by_cases h3 : lo ≤ i
      · have h4 : ¬ i - lo < w := by omega
        simp [h2, h3, h4]
        intro h5; omega
      · simp [h2, h3]
    · have h5 : x.getLsbD i = false := BitVec.getLsbD_of_ge x i (by omega)
      simp [h2, h5]
      intro h6 h7; omega

theorem fld_setFld_self (x : Word) (lo w v : Nat) (h : lo + w ≤ 64) : fld (setFld x lo w v) lo w = v % 2 ^ w := by
  apply Nat.eq_of_testBit_eq
  intro i
  rw [fld_testBit, setFld_getLsbD _ _ _ _ _ h, Nat.testBit_mod_two_pow]
  by_cases hi : i < w
  · simp [hi]
  · simp [hi]

theorem fld_setFld_disjoint (x : Word) (lo w v l2 w2 : Nat) (h : lo + w ≤ 64) (hd : l2 + w2 ≤ lo ∨ lo + w ≤ l2) :
    fld (setFld x lo w v) l2 w2 = fld x l2 w2 := by
  apply Nat.eq_of_testBit_eq
  intro i
  rw [fld_testBit, fld_testBit, setFld_getLsbD _ _ _ _ _ h]
  by_cases hi : i < w2
  · have : ¬ (lo ≤ l2 + i ∧ l2 + i < lo + w) := by omega
    simp [this]
  · simp [hi]

theorem fld_lt (x : Word) (lo w : Nat) : fld x lo w < 2 ^ w := Nat.mod_lt _ (Nat.two_pow_pos w)

theorem bit_eq_fld (x : Word) (i : Nat) : bit x i = decide (fld x i 1 ≠ 0) := by
  have h := fld_testBit x i 1 0
  have h2 := fld_lt x i 1
  simp at h h2
  unfold bit
  rw [← h]
  rcases (show fld x i 1 = 0 ∨ fld x i 1 = 1 by omega) with h3 | h3 <;> simp [h3]

theorem bit_setBit_self (x : Word) (i : Nat) (b : Bool) (h : i < 64) : bit (setBit x i b) i = b := by
  unfold bit setBit
  rw [setFld_getLsbD _ _ _ _ _ (by omega)]
  cases b <;> simp

theorem bit_setBit_ne (x : Word) {i j : Nat} (b : Bool) (hi : i < 64) (h : j ≠ i) : bit (setBit x i b) j = bit x j := by
  unfold bit setBit
  rw [setFld_getLsbD _ _ _ _ _ (by omega)]
  have : ¬ (i ≤ j ∧ j < i + 1) := by omega
  rw [if_neg this]

end Sys2Proof.Machine
end

