-- ==== Sys2Proof/Laws/State.lean ====
section
/-! SUPPORT. What each update of the state leaves as it was, field by field; reads after the updates. -/

namespace Sys2Proof.Machine

variable (s : State)

/-! ## setReg -/

@[simp] theorem State.setReg_mem (a : Nat) (v : Word) : (s.setReg a v).mem = s.mem := rfl
@[simp] theorem State.setReg_poison (a : Nat) (v : Word) : (s.setReg a v).poison = s.poison := rfl
@[simp] theorem State.setReg_ref (a : Nat) (v : Word) : (s.setReg a v).ref = s.ref := rfl
@[simp] theorem State.setReg_cores (a : Nat) (v : Word) : (s.setReg a v).cores = s.cores := rfl
@[simp] theorem State.setReg_clusters (a : Nat) (v : Word) : (s.setReg a v).clusters = s.clusters := rfl
@[simp] theorem State.setReg_slices (a : Nat) (v : Word) : (s.setReg a v).slices = s.slices := rfl
@[simp] theorem State.setReg_routers (a : Nat) (v : Word) : (s.setReg a v).routers = s.routers := rfl
@[simp] theorem State.setReg_reports (a : Nat) (v : Word) : (s.setReg a v).reports = s.reports := rfl
@[simp] theorem State.setReg_notices (a : Nat) (v : Word) : (s.setReg a v).notices = s.notices := rfl
@[simp] theorem State.setReg_invals (a : Nat) (v : Word) : (s.setReg a v).invals = s.invals := rfl
@[simp] theorem State.setReg_faulted (a : Nat) (v : Word) : (s.setReg a v).faulted = s.faulted := rfl
@[simp] theorem State.setReg_pcies (a : Nat) (v : Word) : (s.setReg a v).pcies = s.pcies := rfl
@[simp] theorem State.setReg_chunks (a : Nat) (v : Word) : (s.setReg a v).chunks = s.chunks := rfl
@[simp] theorem State.setReg_sec (a : Nat) (v : Word) : (s.setReg a v).sec = s.sec := rfl
@[simp] theorem State.setReg_chans (a : Nat) (v : Word) : (s.setReg a v).chans = s.chans := rfl
@[simp] theorem State.setReg_qps (a : Nat) (v : Word) : (s.setReg a v).qps = s.qps := rfl
@[simp] theorem State.setReg_ports (a : Nat) (v : Word) : (s.setReg a v).ports = s.ports := rfl
@[simp] theorem State.setReg_bridges (a : Nat) (v : Word) : (s.setReg a v).bridges = s.bridges := rfl
@[simp] theorem State.setReg_cans (a : Nat) (v : Word) : (s.setReg a v).cans = s.cans := rfl
@[simp] theorem State.setReg_lins (a : Nat) (v : Word) : (s.setReg a v).lins = s.lins := rfl
@[simp] theorem State.setReg_gws (a : Nat) (v : Word) : (s.setReg a v).gws = s.gws := rfl
@[simp] theorem State.setReg_icu (a : Nat) (v : Word) : (s.setReg a v).icu = s.icu := rfl
@[simp] theorem State.setReg_beats (a : Nat) (v : Word) : (s.setReg a v).beats = s.beats := rfl
@[simp] theorem State.setReg_anchors (a : Nat) (v : Word) : (s.setReg a v).anchors = s.anchors := rfl
@[simp] theorem State.setReg_hub (a : Nat) (v : Word) : (s.setReg a v).hub = s.hub := rfl
@[simp] theorem State.setReg_boot (a : Nat) (v : Word) : (s.setReg a v).boot = s.boot := rfl
@[simp] theorem State.setReg_encs (a : Nat) (v : Word) : (s.setReg a v).encs = s.encs := rfl
@[simp] theorem State.setReg_ledger (a : Nat) (v : Word) : (s.setReg a v).ledger = s.ledger := rfl
@[simp] theorem State.setReg_dbg (a : Nat) (v : Word) : (s.setReg a v).dbg = s.dbg := rfl
@[simp] theorem State.setReg_pmu (a : Nat) (v : Word) : (s.setReg a v).pmu = s.pmu := rfl
@[simp] theorem State.setReg_inbox (a : Nat) (v : Word) : (s.setReg a v).inbox = s.inbox := rfl
@[simp] theorem State.setReg_halves (a : Nat) (v : Word) : (s.setReg a v).halves = s.halves := rfl
@[simp] theorem State.setReg_map (a : Nat) (v : Word) : (s.setReg a v).map = s.map := rfl
@[simp] theorem State.setReg_tags (a : Nat) (v : Word) : (s.setReg a v).tags = s.tags := rfl
@[simp] theorem State.setReg_openTags (a : Nat) (v : Word) : (s.setReg a v).openTags = s.openTags := rfl
@[simp] theorem State.setReg_deadTags (a : Nat) (v : Word) : (s.setReg a v).deadTags = s.deadTags := rfl
@[simp] theorem State.setReg_draws (a : Nat) (v : Word) : (s.setReg a v).draws = s.draws := rfl
@[simp] theorem State.setReg_pending (a : Nat) (v : Word) : (s.setReg a v).pending = s.pending := rfl

/-! ## setF -/

@[simp] theorem State.setF_mem (a : Nat) (x : Fld) (v : Nat) : (s.setF a x v).mem = s.mem := rfl
@[simp] theorem State.setF_poison (a : Nat) (x : Fld) (v : Nat) : (s.setF a x v).poison = s.poison := rfl
@[simp] theorem State.setF_ref (a : Nat) (x : Fld) (v : Nat) : (s.setF a x v).ref = s.ref := rfl
@[simp] theorem State.setF_cores (a : Nat) (x : Fld) (v : Nat) : (s.setF a x v).cores = s.cores := rfl
@[simp] theorem State.setF_clusters (a : Nat) (x : Fld) (v : Nat) : (s.setF a x v).clusters = s.clusters := rfl
@[simp] theorem State.setF_slices (a : Nat) (x : Fld) (v : Nat) : (s.setF a x v).slices = s.slices := rfl
@[simp] theorem State.setF_routers (a : Nat) (x : Fld) (v : Nat) : (s.setF a x v).routers = s.routers := rfl
@[simp] theorem State.setF_reports (a : Nat) (x : Fld) (v : Nat) : (s.setF a x v).reports = s.reports := rfl
@[simp] theorem State.setF_notices (a : Nat) (x : Fld) (v : Nat) : (s.setF a x v).notices = s.notices := rfl
@[simp] theorem State.setF_invals (a : Nat) (x : Fld) (v : Nat) : (s.setF a x v).invals = s.invals := rfl
@[simp] theorem State.setF_faulted (a : Nat) (x : Fld) (v : Nat) : (s.setF a x v).faulted = s.faulted := rfl
@[simp] theorem State.setF_pcies (a : Nat) (x : Fld) (v : Nat) : (s.setF a x v).pcies = s.pcies := rfl
@[simp] theorem State.setF_chunks (a : Nat) (x : Fld) (v : Nat) : (s.setF a x v).chunks = s.chunks := rfl
@[simp] theorem State.setF_sec (a : Nat) (x : Fld) (v : Nat) : (s.setF a x v).sec = s.sec := rfl
@[simp] theorem State.setF_chans (a : Nat) (x : Fld) (v : Nat) : (s.setF a x v).chans = s.chans := rfl
@[simp] theorem State.setF_qps (a : Nat) (x : Fld) (v : Nat) : (s.setF a x v).qps = s.qps := rfl
@[simp] theorem State.setF_ports (a : Nat) (x : Fld) (v : Nat) : (s.setF a x v).ports = s.ports := rfl
@[simp] theorem State.setF_bridges (a : Nat) (x : Fld) (v : Nat) : (s.setF a x v).bridges = s.bridges := rfl
@[simp] theorem State.setF_cans (a : Nat) (x : Fld) (v : Nat) : (s.setF a x v).cans = s.cans := rfl
@[simp] theorem State.setF_lins (a : Nat) (x : Fld) (v : Nat) : (s.setF a x v).lins = s.lins := rfl
@[simp] theorem State.setF_gws (a : Nat) (x : Fld) (v : Nat) : (s.setF a x v).gws = s.gws := rfl
@[simp] theorem State.setF_icu (a : Nat) (x : Fld) (v : Nat) : (s.setF a x v).icu = s.icu := rfl
@[simp] theorem State.setF_beats (a : Nat) (x : Fld) (v : Nat) : (s.setF a x v).beats = s.beats := rfl
@[simp] theorem State.setF_anchors (a : Nat) (x : Fld) (v : Nat) : (s.setF a x v).anchors = s.anchors := rfl
@[simp] theorem State.setF_hub (a : Nat) (x : Fld) (v : Nat) : (s.setF a x v).hub = s.hub := rfl
@[simp] theorem State.setF_boot (a : Nat) (x : Fld) (v : Nat) : (s.setF a x v).boot = s.boot := rfl
@[simp] theorem State.setF_encs (a : Nat) (x : Fld) (v : Nat) : (s.setF a x v).encs = s.encs := rfl
@[simp] theorem State.setF_ledger (a : Nat) (x : Fld) (v : Nat) : (s.setF a x v).ledger = s.ledger := rfl
@[simp] theorem State.setF_dbg (a : Nat) (x : Fld) (v : Nat) : (s.setF a x v).dbg = s.dbg := rfl
@[simp] theorem State.setF_pmu (a : Nat) (x : Fld) (v : Nat) : (s.setF a x v).pmu = s.pmu := rfl
@[simp] theorem State.setF_inbox (a : Nat) (x : Fld) (v : Nat) : (s.setF a x v).inbox = s.inbox := rfl
@[simp] theorem State.setF_halves (a : Nat) (x : Fld) (v : Nat) : (s.setF a x v).halves = s.halves := rfl
@[simp] theorem State.setF_map (a : Nat) (x : Fld) (v : Nat) : (s.setF a x v).map = s.map := rfl
@[simp] theorem State.setF_tags (a : Nat) (x : Fld) (v : Nat) : (s.setF a x v).tags = s.tags := rfl
@[simp] theorem State.setF_openTags (a : Nat) (x : Fld) (v : Nat) : (s.setF a x v).openTags = s.openTags := rfl
@[simp] theorem State.setF_deadTags (a : Nat) (x : Fld) (v : Nat) : (s.setF a x v).deadTags = s.deadTags := rfl
@[simp] theorem State.setF_draws (a : Nat) (x : Fld) (v : Nat) : (s.setF a x v).draws = s.draws := rfl
@[simp] theorem State.setF_pending (a : Nat) (x : Fld) (v : Nat) : (s.setF a x v).pending = s.pending := rfl

/-! ## resetReg -/

@[simp] theorem State.resetReg_mem (a : Nat) : (s.resetReg a).mem = s.mem := rfl
@[simp] theorem State.resetReg_poison (a : Nat) : (s.resetReg a).poison = s.poison := rfl
@[simp] theorem State.resetReg_ref (a : Nat) : (s.resetReg a).ref = s.ref := rfl
@[simp] theorem State.resetReg_cores (a : Nat) : (s.resetReg a).cores = s.cores := rfl
@[simp] theorem State.resetReg_clusters (a : Nat) : (s.resetReg a).clusters = s.clusters := rfl
@[simp] theorem State.resetReg_slices (a : Nat) : (s.resetReg a).slices = s.slices := rfl
@[simp] theorem State.resetReg_routers (a : Nat) : (s.resetReg a).routers = s.routers := rfl
@[simp] theorem State.resetReg_reports (a : Nat) : (s.resetReg a).reports = s.reports := rfl
@[simp] theorem State.resetReg_notices (a : Nat) : (s.resetReg a).notices = s.notices := rfl
@[simp] theorem State.resetReg_invals (a : Nat) : (s.resetReg a).invals = s.invals := rfl
@[simp] theorem State.resetReg_faulted (a : Nat) : (s.resetReg a).faulted = s.faulted := rfl
@[simp] theorem State.resetReg_pcies (a : Nat) : (s.resetReg a).pcies = s.pcies := rfl
@[simp] theorem State.resetReg_chunks (a : Nat) : (s.resetReg a).chunks = s.chunks := rfl
@[simp] theorem State.resetReg_sec (a : Nat) : (s.resetReg a).sec = s.sec := rfl
@[simp] theorem State.resetReg_chans (a : Nat) : (s.resetReg a).chans = s.chans := rfl
@[simp] theorem State.resetReg_qps (a : Nat) : (s.resetReg a).qps = s.qps := rfl
@[simp] theorem State.resetReg_ports (a : Nat) : (s.resetReg a).ports = s.ports := rfl
@[simp] theorem State.resetReg_bridges (a : Nat) : (s.resetReg a).bridges = s.bridges := rfl
@[simp] theorem State.resetReg_cans (a : Nat) : (s.resetReg a).cans = s.cans := rfl
@[simp] theorem State.resetReg_lins (a : Nat) : (s.resetReg a).lins = s.lins := rfl
@[simp] theorem State.resetReg_gws (a : Nat) : (s.resetReg a).gws = s.gws := rfl
@[simp] theorem State.resetReg_icu (a : Nat) : (s.resetReg a).icu = s.icu := rfl
@[simp] theorem State.resetReg_beats (a : Nat) : (s.resetReg a).beats = s.beats := rfl
@[simp] theorem State.resetReg_anchors (a : Nat) : (s.resetReg a).anchors = s.anchors := rfl
@[simp] theorem State.resetReg_hub (a : Nat) : (s.resetReg a).hub = s.hub := rfl
@[simp] theorem State.resetReg_boot (a : Nat) : (s.resetReg a).boot = s.boot := rfl
@[simp] theorem State.resetReg_encs (a : Nat) : (s.resetReg a).encs = s.encs := rfl
@[simp] theorem State.resetReg_ledger (a : Nat) : (s.resetReg a).ledger = s.ledger := rfl
@[simp] theorem State.resetReg_dbg (a : Nat) : (s.resetReg a).dbg = s.dbg := rfl
@[simp] theorem State.resetReg_pmu (a : Nat) : (s.resetReg a).pmu = s.pmu := rfl
@[simp] theorem State.resetReg_inbox (a : Nat) : (s.resetReg a).inbox = s.inbox := rfl
@[simp] theorem State.resetReg_halves (a : Nat) : (s.resetReg a).halves = s.halves := rfl
@[simp] theorem State.resetReg_map (a : Nat) : (s.resetReg a).map = s.map := rfl
@[simp] theorem State.resetReg_tags (a : Nat) : (s.resetReg a).tags = s.tags := rfl
@[simp] theorem State.resetReg_openTags (a : Nat) : (s.resetReg a).openTags = s.openTags := rfl
@[simp] theorem State.resetReg_deadTags (a : Nat) : (s.resetReg a).deadTags = s.deadTags := rfl
@[simp] theorem State.resetReg_draws (a : Nat) : (s.resetReg a).draws = s.draws := rfl
@[simp] theorem State.resetReg_pending (a : Nat) : (s.resetReg a).pending = s.pending := rfl

/-! ## setCore -/

@[simp] theorem State.setCore_regs (c : Nat) (x : Core) : (s.setCore c x).regs = s.regs := rfl
@[simp] theorem State.setCore_mem (c : Nat) (x : Core) : (s.setCore c x).mem = s.mem := rfl
@[simp] theorem State.setCore_poison (c : Nat) (x : Core) : (s.setCore c x).poison = s.poison := rfl
@[simp] theorem State.setCore_ref (c : Nat) (x : Core) : (s.setCore c x).ref = s.ref := rfl
@[simp] theorem State.setCore_clusters (c : Nat) (x : Core) : (s.setCore c x).clusters = s.clusters := rfl
@[simp] theorem State.setCore_slices (c : Nat) (x : Core) : (s.setCore c x).slices = s.slices := rfl
@[simp] theorem State.setCore_routers (c : Nat) (x : Core) : (s.setCore c x).routers = s.routers := rfl
@[simp] theorem State.setCore_reports (c : Nat) (x : Core) : (s.setCore c x).reports = s.reports := rfl
@[simp] theorem State.setCore_notices (c : Nat) (x : Core) : (s.setCore c x).notices = s.notices := rfl
@[simp] theorem State.setCore_invals (c : Nat) (x : Core) : (s.setCore c x).invals = s.invals := rfl
@[simp] theorem State.setCore_faulted (c : Nat) (x : Core) : (s.setCore c x).faulted = s.faulted := rfl
@[simp] theorem State.setCore_pcies (c : Nat) (x : Core) : (s.setCore c x).pcies = s.pcies := rfl
@[simp] theorem State.setCore_chunks (c : Nat) (x : Core) : (s.setCore c x).chunks = s.chunks := rfl
@[simp] theorem State.setCore_sec (c : Nat) (x : Core) : (s.setCore c x).sec = s.sec := rfl
@[simp] theorem State.setCore_chans (c : Nat) (x : Core) : (s.setCore c x).chans = s.chans := rfl
@[simp] theorem State.setCore_qps (c : Nat) (x : Core) : (s.setCore c x).qps = s.qps := rfl
@[simp] theorem State.setCore_ports (c : Nat) (x : Core) : (s.setCore c x).ports = s.ports := rfl
@[simp] theorem State.setCore_bridges (c : Nat) (x : Core) : (s.setCore c x).bridges = s.bridges := rfl
@[simp] theorem State.setCore_cans (c : Nat) (x : Core) : (s.setCore c x).cans = s.cans := rfl
@[simp] theorem State.setCore_lins (c : Nat) (x : Core) : (s.setCore c x).lins = s.lins := rfl
@[simp] theorem State.setCore_gws (c : Nat) (x : Core) : (s.setCore c x).gws = s.gws := rfl
@[simp] theorem State.setCore_icu (c : Nat) (x : Core) : (s.setCore c x).icu = s.icu := rfl
@[simp] theorem State.setCore_beats (c : Nat) (x : Core) : (s.setCore c x).beats = s.beats := rfl
@[simp] theorem State.setCore_anchors (c : Nat) (x : Core) : (s.setCore c x).anchors = s.anchors := rfl
@[simp] theorem State.setCore_hub (c : Nat) (x : Core) : (s.setCore c x).hub = s.hub := rfl
@[simp] theorem State.setCore_boot (c : Nat) (x : Core) : (s.setCore c x).boot = s.boot := rfl
@[simp] theorem State.setCore_encs (c : Nat) (x : Core) : (s.setCore c x).encs = s.encs := rfl
@[simp] theorem State.setCore_ledger (c : Nat) (x : Core) : (s.setCore c x).ledger = s.ledger := rfl
@[simp] theorem State.setCore_dbg (c : Nat) (x : Core) : (s.setCore c x).dbg = s.dbg := rfl
@[simp] theorem State.setCore_pmu (c : Nat) (x : Core) : (s.setCore c x).pmu = s.pmu := rfl
@[simp] theorem State.setCore_inbox (c : Nat) (x : Core) : (s.setCore c x).inbox = s.inbox := rfl
@[simp] theorem State.setCore_halves (c : Nat) (x : Core) : (s.setCore c x).halves = s.halves := rfl
@[simp] theorem State.setCore_map (c : Nat) (x : Core) : (s.setCore c x).map = s.map := rfl
@[simp] theorem State.setCore_tags (c : Nat) (x : Core) : (s.setCore c x).tags = s.tags := rfl
@[simp] theorem State.setCore_openTags (c : Nat) (x : Core) : (s.setCore c x).openTags = s.openTags := rfl
@[simp] theorem State.setCore_deadTags (c : Nat) (x : Core) : (s.setCore c x).deadTags = s.deadTags := rfl
@[simp] theorem State.setCore_draws (c : Nat) (x : Core) : (s.setCore c x).draws = s.draws := rfl
@[simp] theorem State.setCore_pending (c : Nat) (x : Core) : (s.setCore c x).pending = s.pending := rfl

/-! ## setBank -/

@[simp] theorem State.setBank_regs (c b : Nat) (x : Bank) : (s.setBank c b x).regs = s.regs := rfl
@[simp] theorem State.setBank_mem (c b : Nat) (x : Bank) : (s.setBank c b x).mem = s.mem := rfl
@[simp] theorem State.setBank_poison (c b : Nat) (x : Bank) : (s.setBank c b x).poison = s.poison := rfl
@[simp] theorem State.setBank_ref (c b : Nat) (x : Bank) : (s.setBank c b x).ref = s.ref := rfl
@[simp] theorem State.setBank_clusters (c b : Nat) (x : Bank) : (s.setBank c b x).clusters = s.clusters := rfl
@[simp] theorem State.setBank_slices (c b : Nat) (x : Bank) : (s.setBank c b x).slices = s.slices := rfl
@[simp] theorem State.setBank_routers (c b : Nat) (x : Bank) : (s.setBank c b x).routers = s.routers := rfl
@[simp] theorem State.setBank_reports (c b : Nat) (x : Bank) : (s.setBank c b x).reports = s.reports := rfl
@[simp] theorem State.setBank_notices (c b : Nat) (x : Bank) : (s.setBank c b x).notices = s.notices := rfl
@[simp] theorem State.setBank_invals (c b : Nat) (x : Bank) : (s.setBank c b x).invals = s.invals := rfl
@[simp] theorem State.setBank_faulted (c b : Nat) (x : Bank) : (s.setBank c b x).faulted = s.faulted := rfl
@[simp] theorem State.setBank_pcies (c b : Nat) (x : Bank) : (s.setBank c b x).pcies = s.pcies := rfl
@[simp] theorem State.setBank_chunks (c b : Nat) (x : Bank) : (s.setBank c b x).chunks = s.chunks := rfl
@[simp] theorem State.setBank_sec (c b : Nat) (x : Bank) : (s.setBank c b x).sec = s.sec := rfl
@[simp] theorem State.setBank_chans (c b : Nat) (x : Bank) : (s.setBank c b x).chans = s.chans := rfl
@[simp] theorem State.setBank_qps (c b : Nat) (x : Bank) : (s.setBank c b x).qps = s.qps := rfl
@[simp] theorem State.setBank_ports (c b : Nat) (x : Bank) : (s.setBank c b x).ports = s.ports := rfl
@[simp] theorem State.setBank_bridges (c b : Nat) (x : Bank) : (s.setBank c b x).bridges = s.bridges := rfl
@[simp] theorem State.setBank_cans (c b : Nat) (x : Bank) : (s.setBank c b x).cans = s.cans := rfl
@[simp] theorem State.setBank_lins (c b : Nat) (x : Bank) : (s.setBank c b x).lins = s.lins := rfl
@[simp] theorem State.setBank_gws (c b : Nat) (x : Bank) : (s.setBank c b x).gws = s.gws := rfl
@[simp] theorem State.setBank_icu (c b : Nat) (x : Bank) : (s.setBank c b x).icu = s.icu := rfl
@[simp] theorem State.setBank_beats (c b : Nat) (x : Bank) : (s.setBank c b x).beats = s.beats := rfl
@[simp] theorem State.setBank_anchors (c b : Nat) (x : Bank) : (s.setBank c b x).anchors = s.anchors := rfl
@[simp] theorem State.setBank_hub (c b : Nat) (x : Bank) : (s.setBank c b x).hub = s.hub := rfl
@[simp] theorem State.setBank_boot (c b : Nat) (x : Bank) : (s.setBank c b x).boot = s.boot := rfl
@[simp] theorem State.setBank_encs (c b : Nat) (x : Bank) : (s.setBank c b x).encs = s.encs := rfl
@[simp] theorem State.setBank_ledger (c b : Nat) (x : Bank) : (s.setBank c b x).ledger = s.ledger := rfl
@[simp] theorem State.setBank_dbg (c b : Nat) (x : Bank) : (s.setBank c b x).dbg = s.dbg := rfl
@[simp] theorem State.setBank_pmu (c b : Nat) (x : Bank) : (s.setBank c b x).pmu = s.pmu := rfl
@[simp] theorem State.setBank_inbox (c b : Nat) (x : Bank) : (s.setBank c b x).inbox = s.inbox := rfl
@[simp] theorem State.setBank_halves (c b : Nat) (x : Bank) : (s.setBank c b x).halves = s.halves := rfl
@[simp] theorem State.setBank_map (c b : Nat) (x : Bank) : (s.setBank c b x).map = s.map := rfl
@[simp] theorem State.setBank_tags (c b : Nat) (x : Bank) : (s.setBank c b x).tags = s.tags := rfl
@[simp] theorem State.setBank_openTags (c b : Nat) (x : Bank) : (s.setBank c b x).openTags = s.openTags := rfl
@[simp] theorem State.setBank_deadTags (c b : Nat) (x : Bank) : (s.setBank c b x).deadTags = s.deadTags := rfl
@[simp] theorem State.setBank_draws (c b : Nat) (x : Bank) : (s.setBank c b x).draws = s.draws := rfl
@[simp] theorem State.setBank_pending (c b : Nat) (x : Bank) : (s.setBank c b x).pending = s.pending := rfl

/-! ## setCluster -/

@[simp] theorem State.setCluster_regs (k : Nat) (x : Cluster) : (s.setCluster k x).regs = s.regs := rfl
@[simp] theorem State.setCluster_mem (k : Nat) (x : Cluster) : (s.setCluster k x).mem = s.mem := rfl
@[simp] theorem State.setCluster_poison (k : Nat) (x : Cluster) : (s.setCluster k x).poison = s.poison := rfl
@[simp] theorem State.setCluster_ref (k : Nat) (x : Cluster) : (s.setCluster k x).ref = s.ref := rfl
@[simp] theorem State.setCluster_cores (k : Nat) (x : Cluster) : (s.setCluster k x).cores = s.cores := rfl
@[simp] theorem State.setCluster_slices (k : Nat) (x : Cluster) : (s.setCluster k x).slices = s.slices := rfl
@[simp] theorem State.setCluster_routers (k : Nat) (x : Cluster) : (s.setCluster k x).routers = s.routers := rfl
@[simp] theorem State.setCluster_reports (k : Nat) (x : Cluster) : (s.setCluster k x).reports = s.reports := rfl
@[simp] theorem State.setCluster_notices (k : Nat) (x : Cluster) : (s.setCluster k x).notices = s.notices := rfl
@[simp] theorem State.setCluster_invals (k : Nat) (x : Cluster) : (s.setCluster k x).invals = s.invals := rfl
@[simp] theorem State.setCluster_faulted (k : Nat) (x : Cluster) : (s.setCluster k x).faulted = s.faulted := rfl
@[simp] theorem State.setCluster_pcies (k : Nat) (x : Cluster) : (s.setCluster k x).pcies = s.pcies := rfl
@[simp] theorem State.setCluster_chunks (k : Nat) (x : Cluster) : (s.setCluster k x).chunks = s.chunks := rfl
@[simp] theorem State.setCluster_sec (k : Nat) (x : Cluster) : (s.setCluster k x).sec = s.sec := rfl
@[simp] theorem State.setCluster_chans (k : Nat) (x : Cluster) : (s.setCluster k x).chans = s.chans := rfl
@[simp] theorem State.setCluster_qps (k : Nat) (x : Cluster) : (s.setCluster k x).qps = s.qps := rfl
@[simp] theorem State.setCluster_ports (k : Nat) (x : Cluster) : (s.setCluster k x).ports = s.ports := rfl
@[simp] theorem State.setCluster_bridges (k : Nat) (x : Cluster) : (s.setCluster k x).bridges = s.bridges := rfl
@[simp] theorem State.setCluster_cans (k : Nat) (x : Cluster) : (s.setCluster k x).cans = s.cans := rfl
@[simp] theorem State.setCluster_lins (k : Nat) (x : Cluster) : (s.setCluster k x).lins = s.lins := rfl
@[simp] theorem State.setCluster_gws (k : Nat) (x : Cluster) : (s.setCluster k x).gws = s.gws := rfl
@[simp] theorem State.setCluster_icu (k : Nat) (x : Cluster) : (s.setCluster k x).icu = s.icu := rfl
@[simp] theorem State.setCluster_beats (k : Nat) (x : Cluster) : (s.setCluster k x).beats = s.beats := rfl
@[simp] theorem State.setCluster_anchors (k : Nat) (x : Cluster) : (s.setCluster k x).anchors = s.anchors := rfl
@[simp] theorem State.setCluster_hub (k : Nat) (x : Cluster) : (s.setCluster k x).hub = s.hub := rfl
@[simp] theorem State.setCluster_boot (k : Nat) (x : Cluster) : (s.setCluster k x).boot = s.boot := rfl
@[simp] theorem State.setCluster_encs (k : Nat) (x : Cluster) : (s.setCluster k x).encs = s.encs := rfl
@[simp] theorem State.setCluster_ledger (k : Nat) (x : Cluster) : (s.setCluster k x).ledger = s.ledger := rfl
@[simp] theorem State.setCluster_dbg (k : Nat) (x : Cluster) : (s.setCluster k x).dbg = s.dbg := rfl
@[simp] theorem State.setCluster_pmu (k : Nat) (x : Cluster) : (s.setCluster k x).pmu = s.pmu := rfl
@[simp] theorem State.setCluster_inbox (k : Nat) (x : Cluster) : (s.setCluster k x).inbox = s.inbox := rfl
@[simp] theorem State.setCluster_halves (k : Nat) (x : Cluster) : (s.setCluster k x).halves = s.halves := rfl
@[simp] theorem State.setCluster_map (k : Nat) (x : Cluster) : (s.setCluster k x).map = s.map := rfl
@[simp] theorem State.setCluster_tags (k : Nat) (x : Cluster) : (s.setCluster k x).tags = s.tags := rfl
@[simp] theorem State.setCluster_openTags (k : Nat) (x : Cluster) : (s.setCluster k x).openTags = s.openTags := rfl
@[simp] theorem State.setCluster_deadTags (k : Nat) (x : Cluster) : (s.setCluster k x).deadTags = s.deadTags := rfl
@[simp] theorem State.setCluster_draws (k : Nat) (x : Cluster) : (s.setCluster k x).draws = s.draws := rfl
@[simp] theorem State.setCluster_pending (k : Nat) (x : Cluster) : (s.setCluster k x).pending = s.pending := rfl

/-! ## setSlice -/

@[simp] theorem State.setSlice_regs (k : Nat) (x : Slice) : (s.setSlice k x).regs = s.regs := rfl
@[simp] theorem State.setSlice_mem (k : Nat) (x : Slice) : (s.setSlice k x).mem = s.mem := rfl
@[simp] theorem State.setSlice_poison (k : Nat) (x : Slice) : (s.setSlice k x).poison = s.poison := rfl
@[simp] theorem State.setSlice_ref (k : Nat) (x : Slice) : (s.setSlice k x).ref = s.ref := rfl
@[simp] theorem State.setSlice_cores (k : Nat) (x : Slice) : (s.setSlice k x).cores = s.cores := rfl
@[simp] theorem State.setSlice_clusters (k : Nat) (x : Slice) : (s.setSlice k x).clusters = s.clusters := rfl
@[simp] theorem State.setSlice_routers (k : Nat) (x : Slice) : (s.setSlice k x).routers = s.routers := rfl
@[simp] theorem State.setSlice_reports (k : Nat) (x : Slice) : (s.setSlice k x).reports = s.reports := rfl
@[simp] theorem State.setSlice_notices (k : Nat) (x : Slice) : (s.setSlice k x).notices = s.notices := rfl
@[simp] theorem State.setSlice_invals (k : Nat) (x : Slice) : (s.setSlice k x).invals = s.invals := rfl
@[simp] theorem State.setSlice_faulted (k : Nat) (x : Slice) : (s.setSlice k x).faulted = s.faulted := rfl
@[simp] theorem State.setSlice_pcies (k : Nat) (x : Slice) : (s.setSlice k x).pcies = s.pcies := rfl
@[simp] theorem State.setSlice_chunks (k : Nat) (x : Slice) : (s.setSlice k x).chunks = s.chunks := rfl
@[simp] theorem State.setSlice_sec (k : Nat) (x : Slice) : (s.setSlice k x).sec = s.sec := rfl
@[simp] theorem State.setSlice_chans (k : Nat) (x : Slice) : (s.setSlice k x).chans = s.chans := rfl
@[simp] theorem State.setSlice_qps (k : Nat) (x : Slice) : (s.setSlice k x).qps = s.qps := rfl
@[simp] theorem State.setSlice_ports (k : Nat) (x : Slice) : (s.setSlice k x).ports = s.ports := rfl
@[simp] theorem State.setSlice_bridges (k : Nat) (x : Slice) : (s.setSlice k x).bridges = s.bridges := rfl
@[simp] theorem State.setSlice_cans (k : Nat) (x : Slice) : (s.setSlice k x).cans = s.cans := rfl
@[simp] theorem State.setSlice_lins (k : Nat) (x : Slice) : (s.setSlice k x).lins = s.lins := rfl
@[simp] theorem State.setSlice_gws (k : Nat) (x : Slice) : (s.setSlice k x).gws = s.gws := rfl
@[simp] theorem State.setSlice_icu (k : Nat) (x : Slice) : (s.setSlice k x).icu = s.icu := rfl
@[simp] theorem State.setSlice_beats (k : Nat) (x : Slice) : (s.setSlice k x).beats = s.beats := rfl
@[simp] theorem State.setSlice_anchors (k : Nat) (x : Slice) : (s.setSlice k x).anchors = s.anchors := rfl
@[simp] theorem State.setSlice_hub (k : Nat) (x : Slice) : (s.setSlice k x).hub = s.hub := rfl
@[simp] theorem State.setSlice_boot (k : Nat) (x : Slice) : (s.setSlice k x).boot = s.boot := rfl
@[simp] theorem State.setSlice_encs (k : Nat) (x : Slice) : (s.setSlice k x).encs = s.encs := rfl
@[simp] theorem State.setSlice_ledger (k : Nat) (x : Slice) : (s.setSlice k x).ledger = s.ledger := rfl
@[simp] theorem State.setSlice_dbg (k : Nat) (x : Slice) : (s.setSlice k x).dbg = s.dbg := rfl
@[simp] theorem State.setSlice_pmu (k : Nat) (x : Slice) : (s.setSlice k x).pmu = s.pmu := rfl
@[simp] theorem State.setSlice_inbox (k : Nat) (x : Slice) : (s.setSlice k x).inbox = s.inbox := rfl
@[simp] theorem State.setSlice_halves (k : Nat) (x : Slice) : (s.setSlice k x).halves = s.halves := rfl
@[simp] theorem State.setSlice_map (k : Nat) (x : Slice) : (s.setSlice k x).map = s.map := rfl
@[simp] theorem State.setSlice_tags (k : Nat) (x : Slice) : (s.setSlice k x).tags = s.tags := rfl
@[simp] theorem State.setSlice_openTags (k : Nat) (x : Slice) : (s.setSlice k x).openTags = s.openTags := rfl
@[simp] theorem State.setSlice_deadTags (k : Nat) (x : Slice) : (s.setSlice k x).deadTags = s.deadTags := rfl
@[simp] theorem State.setSlice_draws (k : Nat) (x : Slice) : (s.setSlice k x).draws = s.draws := rfl
@[simp] theorem State.setSlice_pending (k : Nat) (x : Slice) : (s.setSlice k x).pending = s.pending := rfl

/-! ## setRouter -/

@[simp] theorem State.setRouter_regs (r : Nat) (x : Router) : (s.setRouter r x).regs = s.regs := rfl
@[simp] theorem State.setRouter_mem (r : Nat) (x : Router) : (s.setRouter r x).mem = s.mem := rfl
@[simp] theorem State.setRouter_poison (r : Nat) (x : Router) : (s.setRouter r x).poison = s.poison := rfl
@[simp] theorem State.setRouter_ref (r : Nat) (x : Router) : (s.setRouter r x).ref = s.ref := rfl
@[simp] theorem State.setRouter_cores (r : Nat) (x : Router) : (s.setRouter r x).cores = s.cores := rfl
@[simp] theorem State.setRouter_clusters (r : Nat) (x : Router) : (s.setRouter r x).clusters = s.clusters := rfl
@[simp] theorem State.setRouter_slices (r : Nat) (x : Router) : (s.setRouter r x).slices = s.slices := rfl
@[simp] theorem State.setRouter_reports (r : Nat) (x : Router) : (s.setRouter r x).reports = s.reports := rfl
@[simp] theorem State.setRouter_notices (r : Nat) (x : Router) : (s.setRouter r x).notices = s.notices := rfl
@[simp] theorem State.setRouter_invals (r : Nat) (x : Router) : (s.setRouter r x).invals = s.invals := rfl
@[simp] theorem State.setRouter_faulted (r : Nat) (x : Router) : (s.setRouter r x).faulted = s.faulted := rfl
@[simp] theorem State.setRouter_pcies (r : Nat) (x : Router) : (s.setRouter r x).pcies = s.pcies := rfl
@[simp] theorem State.setRouter_chunks (r : Nat) (x : Router) : (s.setRouter r x).chunks = s.chunks := rfl
@[simp] theorem State.setRouter_sec (r : Nat) (x : Router) : (s.setRouter r x).sec = s.sec := rfl
@[simp] theorem State.setRouter_chans (r : Nat) (x : Router) : (s.setRouter r x).chans = s.chans := rfl
@[simp] theorem State.setRouter_qps (r : Nat) (x : Router) : (s.setRouter r x).qps = s.qps := rfl
@[simp] theorem State.setRouter_ports (r : Nat) (x : Router) : (s.setRouter r x).ports = s.ports := rfl
@[simp] theorem State.setRouter_bridges (r : Nat) (x : Router) : (s.setRouter r x).bridges = s.bridges := rfl
@[simp] theorem State.setRouter_cans (r : Nat) (x : Router) : (s.setRouter r x).cans = s.cans := rfl
@[simp] theorem State.setRouter_lins (r : Nat) (x : Router) : (s.setRouter r x).lins = s.lins := rfl
@[simp] theorem State.setRouter_gws (r : Nat) (x : Router) : (s.setRouter r x).gws = s.gws := rfl
@[simp] theorem State.setRouter_icu (r : Nat) (x : Router) : (s.setRouter r x).icu = s.icu := rfl
@[simp] theorem State.setRouter_beats (r : Nat) (x : Router) : (s.setRouter r x).beats = s.beats := rfl
@[simp] theorem State.setRouter_anchors (r : Nat) (x : Router) : (s.setRouter r x).anchors = s.anchors := rfl
@[simp] theorem State.setRouter_hub (r : Nat) (x : Router) : (s.setRouter r x).hub = s.hub := rfl
@[simp] theorem State.setRouter_boot (r : Nat) (x : Router) : (s.setRouter r x).boot = s.boot := rfl
@[simp] theorem State.setRouter_encs (r : Nat) (x : Router) : (s.setRouter r x).encs = s.encs := rfl
@[simp] theorem State.setRouter_ledger (r : Nat) (x : Router) : (s.setRouter r x).ledger = s.ledger := rfl
@[simp] theorem State.setRouter_dbg (r : Nat) (x : Router) : (s.setRouter r x).dbg = s.dbg := rfl
@[simp] theorem State.setRouter_pmu (r : Nat) (x : Router) : (s.setRouter r x).pmu = s.pmu := rfl
@[simp] theorem State.setRouter_inbox (r : Nat) (x : Router) : (s.setRouter r x).inbox = s.inbox := rfl
@[simp] theorem State.setRouter_halves (r : Nat) (x : Router) : (s.setRouter r x).halves = s.halves := rfl
@[simp] theorem State.setRouter_map (r : Nat) (x : Router) : (s.setRouter r x).map = s.map := rfl
@[simp] theorem State.setRouter_tags (r : Nat) (x : Router) : (s.setRouter r x).tags = s.tags := rfl
@[simp] theorem State.setRouter_openTags (r : Nat) (x : Router) : (s.setRouter r x).openTags = s.openTags := rfl
@[simp] theorem State.setRouter_deadTags (r : Nat) (x : Router) : (s.setRouter r x).deadTags = s.deadTags := rfl
@[simp] theorem State.setRouter_draws (r : Nat) (x : Router) : (s.setRouter r x).draws = s.draws := rfl
@[simp] theorem State.setRouter_pending (r : Nat) (x : Router) : (s.setRouter r x).pending = s.pending := rfl

/-! ## draw -/

@[simp] theorem State.draw_regs : (s.draw ).regs = s.regs := rfl
@[simp] theorem State.draw_mem : (s.draw ).mem = s.mem := rfl
@[simp] theorem State.draw_poison : (s.draw ).poison = s.poison := rfl
@[simp] theorem State.draw_ref : (s.draw ).ref = s.ref := rfl
@[simp] theorem State.draw_cores : (s.draw ).cores = s.cores := rfl
@[simp] theorem State.draw_clusters : (s.draw ).clusters = s.clusters := rfl
@[simp] theorem State.draw_slices : (s.draw ).slices = s.slices := rfl
@[simp] theorem State.draw_routers : (s.draw ).routers = s.routers := rfl
@[simp] theorem State.draw_reports : (s.draw ).reports = s.reports := rfl
@[simp] theorem State.draw_notices : (s.draw ).notices = s.notices := rfl
@[simp] theorem State.draw_invals : (s.draw ).invals = s.invals := rfl
@[simp] theorem State.draw_faulted : (s.draw ).faulted = s.faulted := rfl
@[simp] theorem State.draw_pcies : (s.draw ).pcies = s.pcies := rfl
@[simp] theorem State.draw_chunks : (s.draw ).chunks = s.chunks := rfl
@[simp] theorem State.draw_sec : (s.draw ).sec = s.sec := rfl
@[simp] theorem State.draw_chans : (s.draw ).chans = s.chans := rfl
@[simp] theorem State.draw_qps : (s.draw ).qps = s.qps := rfl
@[simp] theorem State.draw_ports : (s.draw ).ports = s.ports := rfl
@[simp] theorem State.draw_bridges : (s.draw ).bridges = s.bridges := rfl
@[simp] theorem State.draw_cans : (s.draw ).cans = s.cans := rfl
@[simp] theorem State.draw_lins : (s.draw ).lins = s.lins := rfl
@[simp] theorem State.draw_gws : (s.draw ).gws = s.gws := rfl
@[simp] theorem State.draw_icu : (s.draw ).icu = s.icu := rfl
@[simp] theorem State.draw_beats : (s.draw ).beats = s.beats := rfl
@[simp] theorem State.draw_anchors : (s.draw ).anchors = s.anchors := rfl
@[simp] theorem State.draw_hub : (s.draw ).hub = s.hub := rfl
@[simp] theorem State.draw_boot : (s.draw ).boot = s.boot := rfl
@[simp] theorem State.draw_encs : (s.draw ).encs = s.encs := rfl
@[simp] theorem State.draw_ledger : (s.draw ).ledger = s.ledger := rfl
@[simp] theorem State.draw_dbg : (s.draw ).dbg = s.dbg := rfl
@[simp] theorem State.draw_pmu : (s.draw ).pmu = s.pmu := rfl
@[simp] theorem State.draw_inbox : (s.draw ).inbox = s.inbox := rfl
@[simp] theorem State.draw_halves : (s.draw ).halves = s.halves := rfl
@[simp] theorem State.draw_map : (s.draw ).map = s.map := rfl
@[simp] theorem State.draw_tags : (s.draw ).tags = s.tags := rfl
@[simp] theorem State.draw_openTags : (s.draw ).openTags = s.openTags := rfl
@[simp] theorem State.draw_deadTags : (s.draw ).deadTags = s.deadTags := rfl
@[simp] theorem State.draw_pending : (s.draw ).pending = s.pending := rfl

/-! ## Reads after writes -/

@[simp] theorem State.reg_setReg (a : Nat) (v : Word) : (s.setReg a v).reg a = v := by simp [State.reg, State.setReg]

theorem State.reg_setReg_ne {a b : Nat} (v : Word) (h : b ≠ a) : (s.setReg a v).reg b = s.reg b := by
  simp [State.reg, State.setReg, mget_mset_ne _ _ _ h]

/-- Registers read alike in states whose registers are the same. -/
theorem State.reg_congr {s t : State} (h : s.regs = t.regs) (a : Nat) : s.reg a = t.reg a := by simp [State.reg, h]

theorem State.f_congr {s t : State} (h : s.regs = t.regs) (a : Nat) (x : Fld) : s.f a x = t.f a x := by simp [State.f, State.reg, h]

theorem State.f_setF (a : Nat) (x : Fld) (v : Nat) (h : x.lo + x.w ≤ 64) : (s.setF a x v).f a x = v % 2 ^ x.w := by
  simp [State.f, State.setF, fld_setFld_self _ _ _ _ h]

theorem State.f_setF_ne {a b : Nat} (x y : Fld) (v : Nat) (h : b ≠ a) : (s.setF a x v).f b y = s.f b y := by
  simp [State.f, State.setF, State.reg_setReg_ne _ _ h]

theorem State.f_setF_other (a : Nat) (x y : Fld) (v : Nat) (h : x.lo + x.w ≤ 64) (hd : y.lo + y.w ≤ x.lo ∨ x.lo + x.w ≤ y.lo) :
    (s.setF a x v).f a y = s.f a y := by
  simp [State.f, State.setF, fld_setFld_disjoint _ _ _ _ _ _ h hd]

theorem State.reg_setF_ne {a b : Nat} (x : Fld) (v : Nat) (h : b ≠ a) : (s.setF a x v).reg b = s.reg b := by
  simp [State.setF, State.reg_setReg_ne _ _ h]

@[simp] theorem State.reg_resetReg (a : Nat) : (s.resetReg a).reg a = regReset a := by simp [State.reg, State.resetReg]

theorem State.reg_resetReg_ne {a b : Nat} (h : b ≠ a) : (s.resetReg a).reg b = s.reg b := by
  simp [State.reg, State.resetReg, mget_mdel_ne _ _ h]

@[simp] theorem State.core_setCore (c : Nat) (x : Core) : (s.setCore c x).core c = x := by simp [State.core, State.setCore]

theorem State.core_setCore_ne {c d : Nat} (x : Core) (h : d ≠ c) : (s.setCore c x).core d = s.core d := by
  simp [State.core, State.setCore, mget_mset_ne _ _ _ h]

@[simp] theorem Core.bank_setBank (k : Core) (b : Nat) (x : Bank) : (k.setBank b x).bank b = x := by simp [Core.bank, Core.setBank]

theorem Core.bank_setBank_ne (k : Core) {b d : Nat} (x : Bank) (h : d ≠ b) : (k.setBank b x).bank d = k.bank d := by
  simp [Core.bank, Core.setBank, mget_mset_ne _ _ _ h]

@[simp] theorem State.bank_setBank (c b : Nat) (x : Bank) : (s.setBank c b x).bank c b = x := by simp [State.bank, State.setBank]

theorem State.bank_setBank_other {c b d e : Nat} (x : Bank) (h : d ≠ c ∨ e ≠ b) : (s.setBank c b x).bank d e = s.bank d e := by
  unfold State.bank State.setBank
  by_cases hd : d = c
  · subst hd
    have he : e ≠ b := by simpa using h
    simp [Core.bank_setBank_ne _ _ he]
  · simp [State.core_setCore_ne _ _ hd]

@[simp] theorem State.cluster_setCluster (k : Nat) (x : Cluster) : (s.setCluster k x).cluster k = x := by simp [State.cluster, State.setCluster]

theorem State.cluster_setCluster_ne {k j : Nat} (x : Cluster) (h : j ≠ k) : (s.setCluster k x).cluster j = s.cluster j := by
  simp [State.cluster, State.setCluster, mget_mset_ne _ _ _ h]

@[simp] theorem State.slice_setSlice (k : Nat) (x : Slice) : (s.setSlice k x).slice k = x := by simp [State.slice, State.setSlice]

theorem State.slice_setSlice_ne {k j : Nat} (x : Slice) (h : j ≠ k) : (s.setSlice k x).slice j = s.slice j := by
  simp [State.slice, State.setSlice, mget_mset_ne _ _ _ h]

@[simp] theorem State.router_setRouter (k : Nat) (x : Router) : (s.setRouter k x).router k = x := by simp [State.router, State.setRouter]

theorem State.router_setRouter_ne {k j : Nat} (x : Router) (h : j ≠ k) : (s.setRouter k x).router j = s.router j := by
  simp [State.router, State.setRouter, mget_mset_ne _ _ _ h]

end Sys2Proof.Machine
end

