-- ==== Sys2Proof/Laws/Observe.lean ====
section
/-! SUPPORT. Counters and trace encoders observe: they change nothing but their own registers, counts, buffers and chunks. -/

namespace Sys2Proof.Machine

/-- Only what counters and encoders write differs between two states. -/
structure Obs (s t : State) : Prop where
  rest : t = { s with regs := t.regs, pmu := t.pmu, encs := t.encs, chunks := t.chunks }
  regs : ∀ a, ¬traceReg a → t.reg a = s.reg a

theorem Obs.rfl {s : State} : Obs s s := ⟨Eq.refl _, fun _ _ => Eq.refl _⟩

theorem Obs.trans {s t u : State} (h : Obs s t) (k : Obs t u) : Obs s u := by
  refine ⟨?_, fun a ha => (k.regs a ha).trans (h.regs a ha)⟩
  have h1 := h.rest
  have k1 := k.rest
  rw [k1, h1]

theorem Obs.ite {s a b : State} {c : Prop} [Decidable c] (h : Obs s a) (k : Obs s b) : Obs s (if c then a else b) := by
  split
  · exact h
  · exact k

theorem Obs.foldl {α : Type} {f : State → α → State} (h : ∀ s x, Obs s (f s x)) (l : List α) (s : State) : Obs s (l.foldl f s) := by
  induction l generalizing s with
  | nil => exact .rfl
  | cons a l ih => exact (h s a).trans (ih _)

theorem Obs.cores {s t : State} (h : Obs s t) : t.cores = s.cores := by rw [h.rest]
theorem Obs.core {s t : State} (h : Obs s t) (c : Nat) : t.core c = s.core c := by simp [State.core, h.cores]
theorem Obs.bank {s t : State} (h : Obs s t) (c b : Nat) : t.bank c b = s.bank c b := by simp [State.bank, h.core]
theorem Obs.mem {s t : State} (h : Obs s t) : t.mem = s.mem := by rw [h.rest]
theorem Obs.pending {s t : State} (h : Obs s t) : t.pending = s.pending := by rw [h.rest]

/-- Only the counters differ between two states. -/
def Cnt (s t : State) : Prop := t = { s with pmu := t.pmu }

theorem Cnt.rfl {s : State} : Cnt s s := Eq.refl _

theorem Cnt.trans {s t u : State} (h : Cnt s t) (k : Cnt t u) : Cnt s u := by
  unfold Cnt at *
  rw [k, h]

theorem Cnt.ite {s a b : State} {c : Prop} [Decidable c] (h : Cnt s a) (k : Cnt s b) : Cnt s (if c then a else b) := by
  split
  · exact h
  · exact k

theorem Cnt.obs {s t : State} (h : Cnt s t) : Obs s t := by
  unfold Cnt at h
  refine ⟨?_, fun a _ => ?_⟩
  · rw [h]
  · rw [h]; rfl

theorem Cnt.regs {s t : State} (h : Cnt s t) : t.regs = s.regs := by rw [h]

/-! ## Counters -/

theorem cnt_pmuAdd (s : State) (i k n : Nat) : Cnt s (s.pmuAdd i k n) := by
  unfold State.pmuAdd; exact .ite .rfl rfl

theorem cnt_sample (s : State) (c k n : Nat) (b : Option Nat) (t : Nat) : Cnt s (s.sample c k n b t) := by
  unfold State.sample; exact .ite rfl .rfl

theorem cnt_ev (s : State) (c bi k n : Nat) : Cnt s (s.ev c bi k n) := by
  unfold State.ev; exact .ite .rfl ((cnt_pmuAdd ..).trans (cnt_sample ..))

theorem cnt_evc (s : State) (c k n : Nat) : Cnt s (s.evc c k n) := by
  unfold State.evc; exact .ite .rfl ((cnt_pmuAdd ..).trans (cnt_sample ..))

theorem cnt_occupancy (s : State) (c d : Nat) : Cnt s (s.occupancy c d) := by
  unfold State.occupancy
  have one (s : State) (p : Prop) [Decidable p] (k : Nat) : Cnt s (if p then s.evc c k d else s) := .ite (cnt_evc ..) .rfl
  exact (one ..).trans ((one ..).trans ((one ..).trans (one ..)))

theorem cnt_skid (s : State) (c bi t : Nat) : Cnt s (s.skid c bi t) := by
  unfold State.skid; exact .ite .rfl rfl

theorem cnt_retire (s : State) (c bi : Nat) (xs : List (Op × Syl)) (l : List Acc) : Cnt s (s.retire c bi xs l) := by
  unfold State.retire
  repeat (first | exact .rfl | refine Cnt.trans ?_ (cnt_ev ..))

theorem cnt_branchEvents (s : State) (c bi : Nat) (a b d e f : Bool) : Cnt s (s.branchEvents c bi a b d e f) := by
  unfold State.branchEvents
  have one (s : State) (p : Bool) (k : Nat) : Cnt s (if p then s.ev c bi k 1 else s) := .ite (cnt_ev ..) .rfl
  exact (one ..).trans ((one ..).trans ((one ..).trans ((one ..).trans (one ..))))

theorem obs_pmuAdd (s : State) (i k n : Nat) : Obs s (s.pmuAdd i k n) := (cnt_pmuAdd ..).obs
theorem obs_sample (s : State) (c k n : Nat) (b : Option Nat) (t : Nat) : Obs s (s.sample c k n b t) := (cnt_sample ..).obs
theorem obs_ev (s : State) (c bi k n : Nat) : Obs s (s.ev c bi k n) := (cnt_ev ..).obs
theorem obs_evc (s : State) (c k n : Nat) : Obs s (s.evc c k n) := (cnt_evc ..).obs
theorem obs_occupancy (s : State) (c d : Nat) : Obs s (s.occupancy c d) := (cnt_occupancy ..).obs
theorem obs_skid (s : State) (c bi t : Nat) : Obs s (s.skid c bi t) := (cnt_skid ..).obs
theorem obs_retire (s : State) (c bi : Nat) (xs : List (Op × Syl)) (l : List Acc) : Obs s (s.retire c bi xs l) := (cnt_retire ..).obs
theorem obs_branchEvents (s : State) (c bi : Nat) (a b d e f : Bool) : Obs s (s.branchEvents c bi a b d e f) := (cnt_branchEvents ..).obs

/-! ## Trace encoders -/

theorem obs_setEnc (s : State) (c : Nat) (e : Enc) : Obs s (s.setEnc c e) := ⟨rfl, fun _ _ => rfl⟩
theorem obs_setF (s : State) (a : Nat) (x : Fld) (v : Nat) (h : traceReg a) : Obs s (s.setF a x v) :=
  ⟨rfl, fun _ hb => State.reg_setF_ne s x v (fun e => hb (e ▸ h))⟩

theorem obs_lostBytes (s : State) (c n : Nat) : Obs s (s.lostBytes c n) := by
  unfold State.lostBytes State.incSat
  exact .ite .rfl ((obs_setF _ _ _ _ (.inl rfl)).trans (obs_setF _ _ _ _ (.inr (.inl rfl))))

theorem obs_closeChunk (s : State) (c : Nat) : Obs s (s.closeChunk c) := by
  unfold State.closeChunk; exact .ite .rfl ⟨rfl, fun _ _ => rfl⟩

theorem obs_emitPkt (s : State) (c t : Nat) (b : List Byte) (y : Bool) : Obs s (s.emitPkt c t b y) := by
  unfold State.emitPkt
  refine .ite ((obs_setEnc ..).trans (obs_lostBytes ..)) ?_
  have h : Obs s (if y && (s.enc c).lost.bytes ≠ 0 then s.closeChunk c else s) := .ite (obs_closeChunk ..) .rfl
  exact .ite (h.trans ((obs_setEnc ..).trans (obs_closeChunk ..))) (h.trans (obs_setEnc ..))

theorem obs_lead (s : State) (c bi t : Nat) : Obs s (s.lead c bi t) := by
  unfold State.lead
  have h (p : Prop) [Decidable p] (e : State → Enc) (b : List Byte) :
      Obs s (((if p then s.closeChunk c else s).setEnc c (e (if p then s.closeChunk c else s))).emitPkt c t b true) :=
    Obs.trans (.ite (obs_closeChunk ..) .rfl) ((obs_setEnc ..).trans (obs_emitPkt ..))
  dsimp only
  split
  · exact h _ (fun s0 => { s0.enc c with need := none, excl := false, wake := none, lastI := a48 (s.bank c bi).pc }) _
  · split
    · exact h _ (fun s0 => { s0.enc c with need := none, excl := false, wake := none, lastI := a48 (s.bank c bi).pc }) _
    · exact .rfl

theorem obs_emitEvent (s : State) (c t k : Nat) : Obs s (s.emitEvent c t k) := obs_emitPkt ..

theorem obs_emitData (s : State) (c t : Nat) (w : Bool) (lg : Nat) (va : Word) : Obs s (s.emitData c t w lg va) :=
  (obs_setEnc ..).trans (obs_emitPkt ..)

theorem obs_emitBr (s : State) (c t k : Nat) (a b : Word) : Obs s (s.emitBr c t k a b) := (obs_setEnc ..).trans (obs_emitPkt ..)

theorem obs_encStep (s : State) (c t : Nat) (a b : Bool) : Obs s (s.encStep c t a b).1 := by
  unfold State.encStep
  dsimp only
  split
  · exact .rfl
  · split
    · exact (obs_setF _ _ _ _ (.inr (.inr ⟨c, rfl⟩))).trans (obs_setEnc ..)
    · exact (obs_setF _ _ _ _ (.inr (.inr ⟨c, rfl⟩))).trans (.ite .rfl (obs_emitEvent ..))

theorem obs_triggerOne (s : State) (c : Nat) : Obs s (s.triggerOne c).1 := by
  unfold State.triggerOne
  dsimp only
  split
  · exact (obs_encStep ..).trans (obs_emitEvent ..)
  · exact obs_encStep ..

theorem obs_triggerAll (s : State) : Obs s s.triggerAll.1 := by
  unfold State.triggerAll
  have (l : List Nat) (r : State × Bool) (h : Obs s r.1) : Obs s (l.foldl (fun (r : State × Bool) c =>
      let q := r.1.triggerOne c
      (q.1, r.2 || q.2)) r).1 := by
    induction l generalizing r with
    | nil => exact h
    | cons a l ih => exact ih _ (h.trans (obs_triggerOne ..))
  exact this _ _ .rfl

theorem obs_trigger (s : State) : Obs s s.trigger := by
  unfold State.trigger
  exact .ite ((obs_triggerAll _).trans (obs_triggerAll _)) (obs_triggerAll _)

theorem obs_rangeStep (s : State) (c bi t : Nat) : Obs s (s.rangeStep c bi t) := by
  unfold State.rangeStep
  exact .ite .rfl (.ite ((obs_encStep ..).trans (obs_trigger _)) (obs_encStep ..))

theorem obs_emitAccs (s : State) (c t : Nat) (l : List Acc) : Obs s (s.emitAccs c t l) := Obs.foldl (fun _ _ => obs_emitData ..) _ _

theorem obs_traceBefore (s : State) (c bi t : Nat) (l : List Acc) : Obs s (s.traceBefore c bi t l) := by
  unfold State.traceBefore
  refine .ite .rfl ?_
  have h : Obs s (if encState s c = 0 then s else s.rangeStep c bi t) := .ite .rfl (obs_rangeStep ..)
  refine .ite h (.ite (h.trans (obs_setEnc ..)) (.ite ?_ ?_))
  · exact h.trans ((obs_lead ..).trans (obs_emitAccs ..))
  · exact h.trans (obs_lead ..)

theorem obs_traceBranch (s : State) (c t : Nat) (a : Bool) (k : Nat) (p q : Word) : Obs s (s.traceBranch c t a k p q) := by
  unfold State.traceBranch; exact .ite (obs_emitBr ..) .rfl

end Sys2Proof.Machine
end

