-- ==== Sys2Proof/Laws/Issue.lean ====
section
/-! SUPPORT. The issue of a bundle of one instruction that commits: what its bank holds afterwards, and what stays. -/

namespace Sys2Proof.Machine

/-! ## Banks of a core -/

@[simp] theorem State.core_updCore (s : State) (c : Nat) (f : Core → Core) : (s.updCore c f).core c = f (s.core c) := by
  simp [State.updCore]

theorem State.core_updCore_ne (s : State) {c d : Nat} (f : Core → Core) (h : d ≠ c) : (s.updCore c f).core d = s.core d := by
  simp [State.updCore, State.core_setCore_ne _ _ h]

@[simp] theorem State.bank_updBank (s : State) (c b : Nat) (f : Bank → Bank) : (s.updBank c b f).bank c b = f (s.bank c b) := by
  simp [State.updBank]

theorem State.bank_updBank_other (s : State) {c b d e : Nat} (f : Bank → Bank) (h : d ≠ c ∨ e ≠ b) :
    (s.updBank c b f).bank d e = s.bank d e := by
  simp [State.updBank, State.bank_setBank_other _ _ h]

theorem State.core_updBank_ne (s : State) {c b d : Nat} (f : Bank → Bank) (h : d ≠ c) : (s.updBank c b f).core d = s.core d := by
  simp [State.updBank, State.setBank, State.core_setCore_ne _ _ h]

theorem landBank_reset (e b : Nat) : landBank e (Bank.reset b) = Bank.reset b := by
  simp [landBank, Bank.reset]

@[simp] theorem Core.bank_land (k : Core) (e b : Nat) : (k.land e).bank b = landBank e (k.bank b) := by
  unfold Core.bank Core.land
  have h := mget_map (Bank.reset b) k.banks (landBank e) b (landBank_reset e b)
  simpa using h

/-! ## What may differ -/

theorem Bank.same_refl (a : Bank) : Bank.same a a := rfl
theorem Bank.same_trans {a b c : Bank} (h : Bank.same a b) (k : Bank.same b c) : Bank.same a c := Eq.trans h k

theorem OutsideCores.rfl {s : State} : OutsideCores s s := ⟨Eq.refl _, fun _ _ => Eq.refl _⟩
theorem OutsideCores.trans {s t u : State} (h : OutsideCores s t) (k : OutsideCores t u) : OutsideCores s u := by
  refine ⟨?_, fun a ha => (k.regs a ha).trans (h.regs a ha)⟩
  have h1 := h.rest
  have k1 := k.rest
  rw [k1, h1]
theorem Obs.outside {s t : State} (h : Obs s t) : OutsideCores s t := by
  refine ⟨?_, h.regs⟩
  have h1 := h.rest
  rw [h1]

theorem Core.banksOnly_refl (k : Core) : k.banksOnly k := rfl
theorem Core.banksOnly_trans {k l m : Core} (h : k.banksOnly l) (g : l.banksOnly m) : k.banksOnly m := by
  unfold Core.banksOnly at *
  rw [g, h]

theorem Local.rfl {c : Nat} {s : State} : Local c s s := ⟨.rfl, fun _ _ => Eq.refl _, Core.banksOnly_refl _⟩
theorem Local.trans {c : Nat} {s t u : State} (h : Local c s t) (k : Local c t u) : Local c s u :=
  ⟨h.outside.trans k.outside, fun d hd => (k.cores d hd).trans (h.cores d hd), Core.banksOnly_trans h.core k.core⟩
theorem Obs.local {c : Nat} {s t : State} (h : Obs s t) : Local c s t :=
  ⟨h.outside, fun d _ => h.core d, by rw [h.core]; exact Core.banksOnly_refl _⟩

theorem local_updBank (s : State) (c b : Nat) (f : Bank → Bank) : Local c s (s.updBank c b f) :=
  ⟨⟨rfl, fun _ _ => rfl⟩, fun d hd => State.core_updBank_ne s f hd, by simp [State.updBank, State.setBank, Core.setBank, Core.banksOnly]⟩

/-! ## Edges pass -/

/-- Edges that pass change the counters and at most one note of the issuing bank. -/
structure Passed (c : Nat) (s t : State) : Prop where
  here : Local c s t
  banks : ∀ b, Bank.same (t.bank c b) (s.bank c b)
  regs : t.regs = s.regs

theorem Cnt.passed {c : Nat} {s t : State} (h : Cnt s t) : Passed c s t := ⟨h.obs.local, fun b => by rw [h.obs.bank]; rfl, h.regs⟩

theorem passed_waste {c : Nat} {s t : State} (bi : Nat) (h : Cnt s t) :
    Passed c s (t.updCore c (fun k => k.setBank bi { s.bank c bi with waste := 0 })) := by
  have e : t.updCore c (fun k => k.setBank bi { s.bank c bi with waste := 0 }) = t.updBank c bi (fun _ => { s.bank c bi with waste := 0 }) := Eq.refl _
  rw [e]
  refine ⟨h.obs.local.trans (local_updBank ..), fun b => ?_, h.regs⟩
  by_cases hb : b = bi
  · subst hb; rw [State.bank_updBank]; rfl
  · rw [State.bank_updBank_other _ _ (Or.inr hb), h.obs.bank]; rfl

theorem slots_spec (s : State) (c d : Nat) (l : Option Nat) : Passed c s (s.slots c d l) := by
  have h1 : Cnt s ((s.evc c 0 d).occupancy c d) := (cnt_evc ..).trans (cnt_occupancy ..)
  have key (p : Prop) [Decidable p] (bi : Nat) (t : State) (h : Cnt s t) :
      Passed c s (if p then t else t.updCore c (fun k => k.setBank bi { s.bank c bi with waste := 0 })) := by
    split
    · exact h.passed
    · exact passed_waste _ h
  unfold State.slots
  generalize (s.evc c 0 d).occupancy c d = s1 at *
  split
  · exact Cnt.rfl.passed
  · dsimp only
    cases issuer (s.core c) with
    | none => exact (h1.trans (cnt_evc ..)).passed
    | some bi =>
      dsimp only
      by_cases hp : pmuHidden s ((s.core c).bank bi).psw.world = true
      · rw [if_pos hp]; exact passed_waste _ (h1.trans (cnt_pmuAdd ..))
      · rw [if_neg hp]
        refine key _ _ _ ?_
        have h2 (a b e f : Nat) : Cnt s ((((s1.evc c (wastedCode s) a).evc c 4 b).evc c 5 e).evc c f e) :=
          h1.trans ((cnt_evc ..).trans ((cnt_evc ..).trans ((cnt_evc ..).trans (cnt_evc ..))))
        cases l with
        | none => exact .ite ((h2 ..).trans (cnt_evc ..)) (h2 ..)
        | some code => exact .ite (((h2 ..).trans (cnt_evc ..)).trans (cnt_evc ..)) ((h2 ..).trans (cnt_evc ..))

theorem local_updCore (s : State) (c : Nat) (f : Core → Core) (h : (s.core c).banksOnly (f (s.core c))) : Local c s (s.updCore c f) :=
  ⟨⟨rfl, fun _ _ => rfl⟩, fun d hd => State.core_updCore_ne s f hd, by simpa using h⟩

theorem bare_wphys (b : Bank) (p : Nat) (v : Word) : (b.wphys p v).bare = b.bare.wphys p v := by
  unfold Bank.wphys; split <;> rfl

theorem bare_setM (b : Bank) (i : Nat) (v : Word) : (b.setM i v).bare = b.bare.setM i v := by
  unfold Bank.setM; split <;> rfl

theorem bare_landReg (b : Bank) (f : Flight) : (b.landReg f).bare = b.bare.landReg f := by
  unfold Bank.landReg
  cases f.pw with
  | none => rfl
  | some q => exact bare_wphys ..

theorem bare_landFlags (b : Bank) (f : Flight) : (b.landFlags f).bare = b.bare.landFlags f := by
  unfold Bank.landFlags; split <;> rfl

theorem bare_landDvs (b : Bank) (f : Flight) : (b.landDvs f).bare = b.bare.landDvs f := by
  unfold Bank.landDvs; split <;> rfl

theorem bare_landDcy (b : Bank) (f : Flight) : (b.landDcy f).bare = b.bare.landDcy f := by
  unfold Bank.landDcy
  cases f.dcy <;> rfl

theorem bare_landFault (b : Bank) (f : Flight) : (b.landFault f).bare = b.bare.landFault f := by
  unfold Bank.landFault
  cases f.fault with
  | none => rfl
  | some c =>
    dsimp only
    by_cases hb : bit b.lof 63 = true
    · rw [if_pos hb, if_pos (show bit b.bare.lof 63 = true from hb)]; rfl
    · rw [if_neg hb, if_neg (show ¬ bit b.bare.lof 63 = true from hb)]; rfl

/-- Landing does not look at the notes of a bank. -/
theorem bare_landFlight (b : Bank) (f : Flight) : (landFlight b f).bare = landFlight b.bare f := by
  have h : ∀ (l : List (Nat × Word)) (b : Bank), (l.foldl (fun b p => b.setM p.1 p.2) b).bare = l.foldl (fun b p => b.setM p.1 p.2) b.bare := by
    intro l
    induction l with
    | nil => intro b; rfl
    | cons a l ih => intro b; simp [ih, bare_setM]
  unfold landFlight
  rw [bare_landFault, bare_landDcy, bare_landDvs, bare_landFlags, bare_landReg, h]

theorem bare_landBank (e : Nat) (b : Bank) : (landBank e b).bare = landBank e b.bare := by
  have h : ∀ (l : List Flight) (b : Bank), (l.foldl landFlight b).bare = l.foldl landFlight b.bare := by
    intro l
    induction l with
    | nil => intro b; rfl
    | cons a l ih => intro b; simp [ih, bare_landFlight]
  unfold landBank
  rw [h]; rfl

/-- Landing gives up no held bundle. -/
theorem held_landFlight (b : Bank) (f : Flight) : (landFlight b f).held = b.held := by
  have h : ∀ (l : List (Nat × Word)) (b : Bank), (l.foldl (fun b p => b.setM p.1 p.2) b).held = b.held := by
    intro l
    induction l with
    | nil => intro b; rfl
    | cons a l ih => intro b; simp only [List.foldl_cons, ih]; unfold Bank.setM; split <;> rfl
  have hr (b : Bank) : (b.landReg f).held = b.held := by
    unfold Bank.landReg Bank.wphys
    split
    · split <;> rfl
    · rfl
  have hf (b : Bank) : (b.landFlags f).held = b.held := by unfold Bank.landFlags; split <;> rfl
  have hv (b : Bank) : (b.landDvs f).held = b.held := by unfold Bank.landDvs; split <;> rfl
  have hd (b : Bank) : (b.landDcy f).held = b.held := by unfold Bank.landDcy; split <;> rfl
  have hl (b : Bank) : (b.landFault f).held = b.held := by
    unfold Bank.landFault
    split
    · rfl
    · split <;> rfl
  unfold landFlight
  rw [hl, hd, hv, hf, hr, h]

theorem held_landBank (e : Nat) (b : Bank) : (landBank e b).held = b.held := by
  have h : ∀ (l : List Flight) (b : Bank), (l.foldl landFlight b).held = b.held := by
    intro l
    induction l with
    | nil => intro b; rfl
    | cons a l ih => intro b; simp [ih, held_landFlight]
  unfold landBank
  rw [h]

theorem landBank_same {a b : Bank} (e : Nat) (h : Bank.same a b) : Bank.same (landBank e a) (landBank e b) := by
  unfold Bank.same at *; rw [bare_landBank, bare_landBank, h]

/-! ## Landing and commit -/

theorem landIn_spec (s : State) (c e : Nat) (l : Option Nat) :
    Local c s (s.landIn c e l) ∧ (∀ b, Bank.same ((s.landIn c e l).bank c b) (landBank e (s.bank c b))) ∧ (s.landIn c e l).regs = s.regs := by
  have h := slots_spec s c (e - (s.core c).cyc) l
  unfold State.landIn
  dsimp only
  generalize s.slots c (e - (s.core c).cyc) l = t at *
  refine ⟨h.here.trans (local_updCore _ _ _ rfl), fun b => ?_, h.regs⟩
  unfold State.bank
  rw [State.core_updCore]
  exact Bank.same_trans (show Bank.same ((t.core c).land e |>.bank b) (landBank e ((t.core c).bank b)) by rw [Core.bank_land]; rfl)
    (landBank_same e (h.banks b))

/-- The state that a bundle's effect finds. -/
def preEffect (c bi t n : Nat) (s : State) : State :=
  (s.updCore c (fun k => k.land (t + 1))).updBank c bi (fun b => { b with pc := b.pc + BitVec.ofNat 64 (4 * n), ready := t + 1, held := none })

theorem commit_eq (c bi t n : Nat) (eff : State → State) (s : State) : commit c bi t n eff s = eff (preEffect c bi t n s) := rfl

theorem preEffect_spec (c bi t n : Nat) (s : State) :
    Local c s (preEffect c bi t n s) ∧
    (preEffect c bi t n s).bank c bi =
      { landBank (t + 1) (s.bank c bi) with pc := (landBank (t + 1) (s.bank c bi)).pc + BitVec.ofNat 64 (4 * n), ready := t + 1, held := none } ∧
    (∀ e, e ≠ bi → (preEffect c bi t n s).bank c e = landBank (t + 1) (s.bank c e)) ∧ (preEffect c bi t n s).regs = s.regs := by
  unfold preEffect
  refine ⟨(local_updCore s c (fun k => k.land (t + 1)) rfl).trans (local_updBank ..), ?_, fun e he => ?_, rfl⟩
  · rw [State.bank_updBank]; simp [State.bank]
  · rw [State.bank_updBank_other _ _ (Or.inr he)]; simp [State.bank]

/-! ## A bundle of one instruction -/

theorem noDebug_congr {s t : State} {c : Nat} (h : t.regs = s.regs) (k : noDebug s c) : noDebug t c := by
  unfold noDebug domOn at *
  rw [State.f_congr h, State.f_congr h]
  exact k

theorem eventCode_none {s : State} {c : Nat} (h : noDebug s c) (bi : Nat) (l : List Acc) : eventCode s c bi l = none := by
  unfold eventCode
  have : (!domOn s 217 || decide (s.f (R.TRC_DCFG c) F.TRC_DCFG_mode = 0) || decide (s.f (R.TRC_DCFG c) F.TRC_DCFG_mode = 3) || !admitted s c bi true) = true := by
    rcases h with h | h | h <;> simp [h]
  dsimp only
  rw [if_pos this]

theorem observe_spec (c bi : Nat) (xs : List (Op × Syl)) (t : Nat) (s : State) (h : noDebug s c) : Obs s (observe c bi xs t s) := by
  unfold observe State.eventWaits
  have h1 : noDebug (s.skid c bi t) c := noDebug_congr (cnt_skid ..).regs h
  dsimp only
  rw [eventCode_none h1]
  exact (obs_skid ..).trans (obs_traceBefore ..)

theorem observed_spec (c bi : Nat) (xs : List (Op × Syl)) (t : Nat) (s r : State) :
    Local c r (observed c bi xs t s r) ∧ ∀ e, Bank.same ((observed c bi xs t s r).bank c e) (r.bank c e) := by
  unfold observed
  have key (r1 : State) (h : Obs r r1) (y : Bool) (l : List Acc) :
      Local c r ((r1.updBank c bi (fun b => { b with cons := consNext b.cons xs, swIn := false, stepOff := y && decide (b.depth = 0) })).retire c bi xs l) ∧
      ∀ e, Bank.same (((r1.updBank c bi (fun b => { b with cons := consNext b.cons xs, swIn := false, stepOff := y && decide (b.depth = 0) })).retire c bi xs l).bank c e) (r.bank c e) := by
    refine ⟨h.local.trans ((local_updBank ..).trans (obs_retire ..).local), fun e => ?_⟩
    rw [(obs_retire ..).bank]
    by_cases he : e = bi
    · subst he; rw [State.bank_updBank, h.bank]; rfl
    · rw [State.bank_updBank_other _ _ (Or.inr he), h.bank]; rfl
  dsimp only
  refine key _ ?_ _ _
  split
  · exact obs_traceBranch ..
  · exact .rfl

theorem checkSyl_same {a b : Bank} (h : Bank.same a b) (o : Op) (x : Syl) : checkSyl a o x = checkSyl b o x := by
  have e (b : Bank) : checkSyl b.bare o x = checkSyl b o x := rfl
  rw [← e a, h, e b]

/-- A bundle of one instruction that reaches issue does what its syllable answers. -/
theorem runOne_reaches {o : Op} {sem : Sem} {x : Syl} {s : State} {t : Nat} (h : Reaches o x s t) :
    runOne o sem x s = .next (finish x.core x.bank t (words x) [(o, x)] (hooksOf x.core x.bank [(o, x)]) s (seenBy s x t)
      (runSyls (fun _ => sem) (seenBy s x t) t [(o, x)])) := by
  obtain ⟨r, hr, ht⟩ := h.hold
  have hb := (landIn_spec s x.core t (some (wastedCode s))).2.1 x.bank
  have hnf : ((seenBy s x t).bank x.core x.bank).lofPend = false := (congrArg Bank.lofPend hb).trans h.noFault
  have hnl : ((seenBy s x t).bank x.core x.bank).lost = none := (congrArg Bank.lost hb).trans h.noLost
  have e2 : lostDue ((seenBy s x t).bank x.core x.bank) [(o, x)] = none := by unfold lostDue; rw [hnl]
  unfold runOne
  rw [if_pos ⟨h.core, h.bank⟩]
  unfold issueBundle issue
  rw [if_neg (by simp [h.can]), h.fresh]
  dsimp only
  rw [hr]
  dsimp only
  rw [← ht]
  simp only [show s.landIn x.core t (some (wastedCode s)) = seenBy s x t from rfl, hnf, e2]
  rfl

/-- The issue of one instruction whose meaning answers an effect: the effect acts on the committed bank, and what follows it only
observes. -/
theorem runOne_ok {o : Op} {sem : Sem} {x : Syl} {s : State} {t : Nat} {f : State → State} (h : Issues o x s t)
    (hs : sem (seenBy s x t) t x = .ok f) :
    ∃ s1 u, runOne o sem x s = .next u ∧
      Local x.core s s1 ∧ Bank.same (s1.bank x.core x.bank) ((s.bank x.core x.bank).arrived t (words x)) ∧
      (∀ e, e ≠ x.bank → Bank.same (s1.bank x.core e) (landBank (t + 1) (landBank t (s.bank x.core e)))) ∧
      Local x.core (f s1) u ∧ ∀ e, Bank.same (u.bank x.core e) ((f s1).bank x.core e) := by
  have hw := landIn_spec s x.core t (some (wastedCode s))
  have hc := landIn_spec s x.core t (some 2)
  have hb := hw.2.1 x.bank
  have hlg : checkSyl ((seenBy s x t).bank x.core x.bank) o x = none := (checkSyl_same hb o x).trans h.legal
  have hdb : noDebug (seenBy s x t) x.core := noDebug_congr hw.2.2 h.debug
  have hob := observe_spec x.core x.bank [(o, x)] t (s.landIn x.core t (some 2)) (noDebug_congr hc.2.2 h.debug)
  have hpe := preEffect_spec x.core x.bank t (words x) (observe x.core x.bank [(o, x)] t (s.landIn x.core t (some 2)))
  have hod := observed_spec x.core x.bank [(o, x)] t (seenBy s x t)
    (f (preEffect x.core x.bank t (words x) (observe x.core x.bank [(o, x)] t (s.landIn x.core t (some 2)))))
  refine ⟨_, _, ?_, hc.1.trans (hob.local.trans hpe.1), ?_, ?_, hod.1, hod.2⟩
  · rw [runOne_reaches h.toReaches]
    have e3 : sylRes (fun _ => sem) (seenBy s x t) t (o, x) = .ok f := by unfold sylRes; rw [hlg]; exact hs
    simp only [finish, runSyls, List.foldl_cons, List.foldl_nil, e3, gather]
    have e4 : (hooksOf x.core x.bank [(o, x)]).event t (seenBy s x t) = none := by
      simp only [hooksOf, debugEvent, eventCode_none hdb]
    simp only [e4]
    rfl
  · rw [hpe.2.1]
    have : Bank.same ((observe x.core x.bank [(o, x)] t (s.landIn x.core t (some 2))).bank x.core x.bank) (landBank t (s.bank x.core x.bank)) := by
      rw [hob.bank]; exact hc.2.1 _
    have h2 := landBank_same (t + 1) this
    unfold Bank.same Bank.arrived at *
    generalize landBank (t + 1) ((observe x.core x.bank [(o, x)] t (s.landIn x.core t (some 2))).bank x.core x.bank) = A at *
    generalize landBank (t + 1) (landBank t (s.bank x.core x.bank)) = B at *
    have e5 : ∀ (b : Bank) (w : Nat), ({ b with pc := b.pc + BitVec.ofNat 64 (4 * w), ready := t + 1, held := none } : Bank).bare =
      { b.bare with pc := b.bare.pc + BitVec.ofNat 64 (4 * w), ready := t + 1, held := none } := fun _ _ => rfl
    rw [e5, e5, h2]
  · intro e he
    rw [hpe.2.2.1 e he]
    refine landBank_same (t + 1) ?_
    rw [hob.bank]; exact hc.2.1 _

end Sys2Proof.Machine
end

