-- ==== Sys2Proof/Laws/Commit.lean ====
section
/-! SUPPORT. A bundle of one instruction that only acts on its own bank: what `runOne_ok` says of it, as a completion. -/

namespace Sys2Proof.Machine

/-! ## What a bundle reads -/

/-- What does not look at the notes is the same of two such banks. -/
theorem Bank.same_congr {α : Type} {a b : Bank} (h : Bank.same a b) (f : Bank → α) (hf : ∀ x : Bank, f x.bare = f x) : f a = f b :=
  (hf a).symm.trans ((congrArg f h).trans (hf b))

theorem Bank.same_g {a b : Bank} (h : Bank.same a b) (n : BitVec 6) : a.g n = b.g n := Bank.same_congr h (fun y : Bank => y.g n) (fun _ => rfl)
theorem Bank.same_nm {a b : Bank} (h : Bank.same a b) (n : BitVec 6) : a.nm n = b.nm n := Bank.same_congr h (fun y : Bank => y.nm n) (fun _ => rfl)
theorem Bank.same_pc {a b : Bank} (h : Bank.same a b) : a.pc = b.pc := Bank.same_congr h Bank.pc (fun _ => rfl)
theorem Bank.same_psw {a b : Bank} (h : Bank.same a b) : a.psw = b.psw := Bank.same_congr h Bank.psw (fun _ => rfl)
theorem Bank.same_fpc {a b : Bank} (h : Bank.same a b) : a.fpc = b.fpc := Bank.same_congr h Bank.fpc (fun _ => rfl)
theorem Bank.same_fly {a b : Bank} (h : Bank.same a b) : a.fly = b.fly := Bank.same_congr h Bank.fly (fun _ => rfl)
theorem Bank.same_m {a b : Bank} (h : Bank.same a b) (i : Nat) : a.m i = b.m i := Bank.same_congr h (fun y : Bank => y.m i) (fun _ => rfl)
theorem Bank.same_dvs {a b : Bank} (h : Bank.same a b) : a.dvs = b.dvs := Bank.same_congr h Bank.dvs (fun _ => rfl)

/-- A bundle reads its bank as it is found on the issue edge. -/
theorem seen_bank (s : State) (x : Syl) (t : Nat) : Bank.same (preBank (seenBy s x t) x) (found s x t) :=
  (landIn_spec s x.core t (some (wastedCode s))).2.1 x.bank

theorem seen_regs (s : State) (x : Syl) (t : Nat) : (seenBy s x t).regs = s.regs := (landIn_spec s x.core t (some (wastedCode s))).2.2

theorem seen_A (s : State) (x : Syl) (t : Nat) : opA (seenBy s x t) x = (found s x t).g x.a := Bank.same_g (seen_bank s x t) _
theorem seen_B (s : State) (x : Syl) (t : Nat) : opB (seenBy s x t) x = (found s x t).g x.b := Bank.same_g (seen_bank s x t) _
theorem seen_D (s : State) (x : Syl) (t : Nat) : opD (seenBy s x t) x = (found s x t).g x.d := Bank.same_g (seen_bank s x t) _
theorem seen_nm (s : State) (x : Syl) (t : Nat) (n : BitVec 6) : (preBank (seenBy s x t) x).nm n = (found s x t).nm n :=
  Bank.same_nm (seen_bank s x t) _

/-! ## Completion -/

/-- An effect on the bank that does not look at its notes. -/
def Blind (g : Bank → Bank) : Prop := ∀ a b, Bank.same a b → Bank.same (g a) (g b)

/-- An instruction whose answer is an effect on its own bank completes with that effect. -/
theorem commits_onBank {o : Op} {sem : Sem} {x : Syl} {s : State} {t : Nat} {g : Bank → Bank} (h : Issues o x s t)
    (he : exec (instrOf o x) s = runOne o sem x s) (hs : sem (seenBy s x t) t x = onBank x g) (hg : Blind g) : Commits o x s t g := by
  obtain ⟨s1, u, hu, hl, hb, ho, hk, hr⟩ := runOne_ok h hs
  refine ⟨u, he.trans hu, hl.trans ((local_updBank ..).trans hk), ?_, fun e hne => ?_⟩
  · refine (hr x.bank).trans ?_
    rw [State.bank_updBank]
    exact hg _ _ hb
  · refine (hr e).trans ?_
    rw [State.bank_updBank_other _ _ (.inr hne)]
    exact ho e hne

/-- A write of rd, named in the window that the bundle found. -/
theorem blind_putG (b : Bank) (n : BitVec 6) (v : Word) : Blind (putG b n v) := fun x y h => by
  unfold putG
  split
  · exact h
  · exact congrArg (fun z : Bank => { z with phys := mset z.phys (b.nm n) v }) h

/-- An instruction that answers with a write of rd completes with it. -/
theorem commits_putG {o : Op} {sem : Sem} {x : Syl} {s : State} {t : Nat} {v : Word} (h : Issues o x s t)
    (he : exec (instrOf o x) s = runOne o sem x s) (hs : sem (seenBy s x t) t x = writeD (seenBy s x t) x x.d v) :
    Commits o x s t (putG (found s x t) x.d v) := by
  refine commits_onBank h he (hs.trans ?_) (blind_putG (found s x t) x.d v)
  unfold writeD putG Bank.wphys
  rw [show ((seenBy s x t).bank x.core x.bank).nm x.d = (found s x t).nm x.d from seen_nm s x t x.d]

/-! ## Exceptions -/

/-- A bundle whose syllable raises an exception is not executed: the entry is accepted in its place, from its accept edge on. -/
theorem runOne_exc {o : Op} {sem : Sem} {x : Syl} {s : State} {t cause : Nat} {level : BitVec 2} {g2 g3 g4 : Word} (h : Reaches o x s t)
    (hd : (found s x t).depth < 2)
    (hs : sylRes (fun _ => sem) (seenBy s x t) t (o, x) = .exc (.entry cause level g2 g3 g4) id) :
    ∃ u, runOne o sem x s = .next u ∧ Local x.core s u ∧
      Bank.same (u.bank x.core x.bank)
        { found s x t with
          resv := none, missing := false, fwait := none, fsent := none, fbuf := [], ready := t + (Exc.entry cause level g2 g3 g4).delay,
          entry := some ⟨t + (Exc.entry cause level g2 g3 g4).delay, cause, level, g2, g3, g4, (found s x t).pc⟩ } ∧
      ∀ e, e ≠ x.bank → Bank.same (u.bank x.core e) (landBank t (s.bank x.core e)) := by
  have hw := landIn_spec s x.core t (some (wastedCode s))
  have hb := hw.2.1 x.bank
  have hhd : ((seenBy s x t).bank x.core x.bank).held = none := (congrArg Bank.held hb).trans ((held_landBank ..).trans h.fresh)
  have hnl : ((seenBy s x t).bank x.core x.bank).lost = none := (congrArg Bank.lost hb).trans h.noLost
  have hdp : ((seenBy s x t).bank x.core x.bank).depth < 2 := by
    have := congrArg Bank.depth hb
    exact this ▸ hd
  let d := (Exc.entry cause level g2 g3 g4).delay
  let s1 := (seenBy s x t).updBank x.core x.bank (fun b => { b with waste := d / 2 })
  have hacc : s1.accept x.core x.bank (t + d) (.entry cause level g2 g3 g4) =
      s1.setBank x.core x.bank { s1.bank x.core x.bank with
        resv := none, cons := none, missing := false, fwait := none, fsent := none, fbuf := [], ready := t + d,
        entry := some ⟨t + d, cause, level, g2, g3, g4, (s1.bank x.core x.bank).pc⟩ } := by
    unfold State.accept
    have e1 : s1.bank x.core x.bank = { (seenBy s x t).bank x.core x.bank with waste := d / 2 } := State.bank_updBank ..
    simp only [e1, Bank.stopMulti, hhd]
    rw [if_neg (Nat.not_le.mpr hdp), hnl]
  refine ⟨s1.accept x.core x.bank (t + d) (.entry cause level g2 g3 g4), ?_, ?_, ?_, ?_⟩
  · rw [runOne_reaches h]
    simp only [finish, runSyls, List.foldl_cons, List.foldl_nil, hs, gather]
    rfl
  · rw [hacc]
    exact hw.1.trans ((local_updBank ..).trans (local_updBank s1 x.core x.bank (fun _ => _)))
  · rw [hacc]
    have e1 : s1.bank x.core x.bank = { (seenBy s x t).bank x.core x.bank with waste := d / 2 } := State.bank_updBank ..
    have e2 : ∀ y, (s1.setBank x.core x.bank y).bank x.core x.bank = y := fun y => State.bank_updBank s1 x.core x.bank (fun _ => y)
    rw [e2, e1]
    have e3 : Bank.same ((seenBy s x t).bank x.core x.bank) (found s x t) := hb
    have hpc := Bank.same_pc e3
    unfold Bank.same at *
    generalize (seenBy s x t).bank x.core x.bank = A at *
    generalize found s x t = B at *
    have e4 : ∀ (y : Bank) (p : Word), ({ y with waste := d / 2, resv := none, cons := none, missing := false, fwait := none, fsent := none, fbuf := [], ready := t + d, entry := some ⟨t + d, cause, level, g2, g3, g4, p⟩ } : Bank).bare =
      { y.bare with resv := none, missing := false, fwait := none, fsent := none, fbuf := [], ready := t + d, entry := some ⟨t + d, cause, level, g2, g3, g4, p⟩ } := fun _ _ => rfl
    exact (e4 A A.pc).trans (by rw [e3, hpc]; rfl)
  · intro e he
    rw [hacc]
    have e2 : ∀ y, (s1.setBank x.core x.bank y).bank x.core e = s1.bank x.core e := fun y => State.bank_updBank_other s1 (fun _ => y) (.inr he)
    rw [e2, State.bank_updBank_other _ _ (.inr he)]
    exact hw.2.1 e

/-- A syllable that is not legal raises its exception, whatever its meaning. -/
theorem sylRes_illegal {sem : Sem} {s : State} {t : Nat} {o : Op} {x : Syl} {e : Exc} (h : checkSyl (s.bank x.core x.bank) o x = some e) :
    sylRes (fun _ => sem) s t (o, x) = .exc e id := by unfold sylRes; rw [h]

/-- A legal one answers as its meaning does. -/
theorem sylRes_legal {sem : Sem} {s : State} {t : Nat} {o : Op} {x : Syl} (h : checkSyl (s.bank x.core x.bank) o x = none) :
    sylRes (fun _ => sem) s t (o, x) = sem s t x := by unfold sylRes; rw [h]

end Sys2Proof.Machine
end

