-- ==== Sys2Proof/Laws/Memory.lean ====
section
/-! SUPPORT. Memory keeps its canonical form under every operation that writes it, and reading a byte after a write of one. -/

namespace Sys2Proof.Machine

/-- The canonical form by its two conditions: addresses strictly rising, and no entry that an unlisted address would read as. -/
theorem memWf_iff (m : List Host.Cell) : memWf m = true ↔ (m.map (·.1)).Pairwise (· < ·) ∧ ∀ c ∈ m, c.2 ≠ memInit := by
  induction m with
  | nil => simp [memWf]
  | cons c m ih =>
    cases m with
    | nil => simp [memWf]
    | cons d m =>
      have hstep : memWf (c :: d :: m) = true ↔ c.2 ≠ memInit ∧ c.1 < d.1 ∧ memWf (d :: m) = true := by
        simp [memWf, Bool.and_eq_true, and_assoc]
      rw [hstep, ih]
      constructor
      · rintro ⟨hc, hlt, hp, ha⟩
        refine ⟨?_, ?_⟩
        · rw [List.map_cons, List.pairwise_cons]
          refine ⟨fun k hk => ?_, hp⟩
          rw [List.map_cons, List.mem_cons] at hk
          rw [List.map_cons, List.pairwise_cons] at hp
          rcases hk with rfl | hk
          · exact hlt
          · exact lt_trans hlt (hp.1 k hk)
        · intro e he
          rcases List.mem_cons.mp he with rfl | he
          · exact hc
          · exact ha e he
      · rintro ⟨hp, ha⟩
        rw [List.map_cons, List.pairwise_cons] at hp
        exact ⟨ha c (by simp), hp.1 d.1 (by simp), hp.2, fun e he => ha e (List.mem_cons_of_mem _ he)⟩

/-- The addresses that a write of one byte lists: those before, and perhaps its own. -/
theorem memSet_addr {m : List Host.Cell} {a : Nat} {v : Byte} {c : Host.Cell} (h : c ∈ memSet m a v) : c.1 = a ∨ ∃ d ∈ m, d.1 = c.1 := by
  induction m with
  | nil =>
    unfold memSet at h
    split at h
    · cases h
    · exact Or.inl (by simpa using congrArg Prod.fst (List.mem_singleton.mp h))
  | cons e m ih =>
    obtain ⟨b, w⟩ := e
    unfold memSet at h
    split at h
    · split at h
      · exact Or.inr ⟨c, h, rfl⟩
      · rcases List.mem_cons.mp h with rfl | h
        · exact Or.inl rfl
        · exact Or.inr ⟨c, h, rfl⟩
    · split at h
      · split at h
        · exact Or.inr ⟨c, List.mem_cons_of_mem _ h, rfl⟩
        · rcases List.mem_cons.mp h with rfl | h
          · exact Or.inl rfl
          · exact Or.inr ⟨c, List.mem_cons_of_mem _ h, rfl⟩
      · rcases List.mem_cons.mp h with rfl | h
        · exact Or.inr ⟨(b, w), List.mem_cons_self .., rfl⟩
        · rcases ih h with h | ⟨d, hd, he⟩
          · exact Or.inl h
          · exact Or.inr ⟨d, List.mem_cons_of_mem _ hd, he⟩

/-- A write of one byte keeps the canonical form. -/
theorem memSet_wf {m : List Host.Cell} (h : memWf m = true) (a : Nat) (v : Byte) : memWf (memSet m a v) = true := by
  induction m with
  | nil =>
    unfold memSet
    split
    · rfl
    · rename_i hv
      simpa [memWf] using hv
  | cons e m ih =>
    obtain ⟨b, w⟩ := e
    obtain ⟨hp, ha⟩ := (memWf_iff _).mp h
    rw [List.map_cons, List.pairwise_cons] at hp
    have hm : memWf m = true := (memWf_iff _).mpr ⟨hp.2, fun c hc => ha c (List.mem_cons_of_mem _ hc)⟩
    have front : ∀ (k : Nat) (l : List Host.Cell) (u : Byte), u ≠ memInit → memWf l = true → (∀ c ∈ l, k < c.1) → memWf ((k, u) :: l) = true := by
      intro k l u hu hl hk
      obtain ⟨q, r⟩ := (memWf_iff _).mp hl
      refine (memWf_iff _).mpr ⟨?_, ?_⟩
      · rw [List.map_cons, List.pairwise_cons]
        refine ⟨fun x hx => ?_, q⟩
        obtain ⟨c, hc, rfl⟩ := List.mem_map.mp hx
        exact hk c hc
      · intro c hc
        rcases List.mem_cons.mp hc with rfl | hc
        · exact hu
        · exact r c hc
    have below : ∀ c ∈ m, b < c.1 := fun c hc => hp.1 c.1 (List.mem_map.mpr ⟨c, hc, rfl⟩)
    unfold memSet
    split
    · rename_i hab
      split
      · exact h
      · rename_i hv
        refine front a _ v hv h ?_
        intro c hc
        rcases List.mem_cons.mp hc with rfl | hc
        · exact hab
        · exact lt_trans hab (below c hc)
    · split
      · rename_i hab
        subst hab
        split
        · exact hm
        · rename_i hv
          exact front a _ v hv hm below
      · rename_i h1 h2
        refine front b _ w (ha (b, w) (by simp)) (ih hm) ?_
        intro c hc
        rcases memSet_addr hc with he | ⟨d, hd, he⟩
        · omega
        · exact he ▸ below d hd

/-- A byte written is read back, and every other byte reads as before. -/
theorem memGet_memSet {m : List Host.Cell} (h : memWf m = true) (a : Nat) (v : Byte) (i : Nat) :
    memGet (memSet m a v) i = if i = a then v else memGet m i := by
  induction m with
  | nil =>
    unfold memSet memGet
    split
    · rename_i hv
      simp [hv]
    · by_cases hi : i = a
      · simp [mget, hi]
      · simp [mget, hi, Ne.symm hi]
  | cons e m ih =>
    obtain ⟨b, w⟩ := e
    obtain ⟨hp, ha⟩ := (memWf_iff _).mp h
    rw [List.map_cons, List.pairwise_cons] at hp
    have hm : memWf m = true := (memWf_iff _).mpr ⟨hp.2, fun c hc => ha c (List.mem_cons_of_mem _ hc)⟩
    have absent : ∀ (l : List Host.Cell) (k : Nat), (∀ c ∈ l, k < c.1) → mget memInit l k = memInit := by
      intro l k hk
      induction l with
      | nil => rfl
      | cons c l il =>
        have := hk c (by simp)
        simp [mget, il (fun d hd => hk d (List.mem_cons_of_mem _ hd)), Nat.ne_of_gt this]
    have below : ∀ c ∈ m, b < c.1 := fun c hc => hp.1 c.1 (List.mem_map.mpr ⟨c, hc, rfl⟩)
    have ih := ih hm
    unfold memGet at ih ⊢
    unfold memSet
    split
    · rename_i hab
      have gone : mget memInit ((b, w) :: m) a = memInit := absent _ a (by
        intro c hc
        rcases List.mem_cons.mp hc with rfl | hc
        · exact hab
        · exact lt_trans hab (below c hc))
      split
      · rename_i hv
        by_cases hi : i = a
        · rw [hi, gone, hv]; simp
        · simp [hi]
      · by_cases hi : i = a
        · simp [mget, hi]
        · rw [if_neg hi]
          conv_lhs => unfold mget
          simp [Ne.symm hi]
    · split
      · rename_i hab
        subst hab
        split
        · rename_i hv
          by_cases hi : i = a
          · rw [hi, absent m a below, hv]; simp
          · simp [mget, hi, Ne.symm hi]
        · by_cases hi : i = a
          · simp [mget, hi]
          · simp [mget, hi, Ne.symm hi]
      · rename_i h1 h2
        by_cases hb : i = b
        · subst hb
          have : i ≠ a := fun h => h2 h.symm
          simp [mget, this]
        · simp only [mget, Ne.symm hb, if_false]
          exact ih

/-- A write of several bytes keeps the canonical form. -/
theorem memWrite_wf {m : List Host.Cell} (h : memWf m = true) (a v n : Nat) : memWf (memWrite m a v n) = true := by
  induction n generalizing m a v with
  | zero => exact h
  | succ n ih => exact ih (memSet_wf h a _) _ _

/-- Memory without some of its entries keeps the canonical form. -/
theorem memWf_filter {m : List Host.Cell} (h : memWf m = true) (p : Host.Cell → Bool) : memWf (m.filter p) = true := by
  obtain ⟨hp, ha⟩ := (memWf_iff _).mp h
  exact (memWf_iff _).mpr ⟨hp.sublist (List.filter_sublist.map _), fun c hc => ha c (List.mem_of_mem_filter hc)⟩

/-- A line written to memory keeps its canonical form. -/
theorem State.putLine_memWf {s : State} (h : memWf s.mem = true) (k : Nat) (d : Line) (p : Bool) : memWf (s.putLine k d p).mem = true := by
  simp only [State.putLine]
  exact memWrite_wf h (64 * k) d.toNat 64

/-- The SRAM set to zero keeps its canonical form. -/
theorem State.zeroSram_memWf {s : State} (h : memWf s.mem = true) : memWf s.zeroSram.mem = true := memWf_filter h _

/-- Memory after reset has its canonical form. -/
theorem State.reset_memWf : memWf State.reset.mem = true := rfl

/-- `n` bytes are a number below 256 ^ n. -/
theorem memRead_lt (m : List Host.Cell) (a n : Nat) : memRead m a n < 256 ^ n := by
  induction n generalizing a with
  | zero => simp [memRead]
  | succ n ih =>
    have h1 := ih (a + 1)
    have h2 := (memGet m a).isLt
    rw [memRead, pow_succ]
    omega

end Sys2Proof.Machine
end

