-- ==== Sys2Proof/Laws/Sets.lean ====
section
/-! SUPPORT. Commands that change named register fields and nothing else, and the acknowledgement of a register write. -/

namespace Sys2Proof.Machine

theorem sets_nil (s : State) : Sets s s [] := ⟨rfl, fun _ h => absurd h (List.not_mem_nil), fun _ _ _ => rfl⟩

theorem reg_setF_at (u : State) (a : Nat) (x : Fld) (v : Nat) : (u.setF a x v).reg a = setFld (u.reg a) x.lo x.w v := by simp [State.setF]

/-- Whether two fields of registers have no bit in common. -/
def apart (p q : Nat × Fld × Nat) : Prop := p.1 ≠ q.1 ∨ p.2.1.lo + p.2.1.w ≤ q.2.1.lo ∨ q.2.1.lo + q.2.1.w ≤ p.2.1.lo

/-- One more field written. -/
theorem sets_setF {s u : State} {l : List (Nat × Fld × Nat)} (h : Sets s u l) (a : Nat) (x : Fld) (v : Nat) (hx : x.lo + x.w ≤ 64)
    (hd : ∀ q ∈ l, apart q (a, x, v)) : Sets s (u.setF a x v) (l ++ [(a, x, v)]) := by
  refine ⟨?_, ?_, ?_⟩
  · rw [h.rest]; rfl
  · intro q hq
    rcases List.mem_append.mp hq with hq | hq
    · rw [← h.vals q hq]
      unfold State.f
      by_cases ha : q.1 = a
      · rw [ha, reg_setF_at]
        rcases hd q hq with h1 | h1 | h1
        · exact absurd ha h1
        · exact fld_setFld_disjoint _ _ _ _ _ _ hx (.inl h1)
        · exact fld_setFld_disjoint _ _ _ _ _ _ hx (.inr h1)
      · rw [State.reg_setF_ne _ _ _ ha]
    · rw [List.mem_singleton.mp hq]
      unfold State.f
      rw [reg_setF_at]
      exact fld_setFld_self _ _ _ _ hx
  · intro b i hb
    have hl : (u.reg b).getLsbD i = (s.reg b).getLsbD i := h.bits b i (fun q hq => hb q (List.mem_append_left _ hq))
    have hq := hb (a, x, v) (by simp)
    by_cases hab : b = a
    · subst hab
      rw [reg_setF_at, setFld_getLsbD _ _ _ _ _ hx, ← hl]
      rcases hq rfl with h1 | h1 <;> simp at h1 ⊢ <;> omega
    · rw [State.reg_setF_ne _ _ _ hab, hl]

theorem regs_closeTag (s : State) (u t : Nat) : (s.closeTag u t).regs = s.regs := rfl
theorem regs_injectOne (s : State) (p : Pkt) : (s.injectOne p).regs = s.regs := by unfold State.injectOne; dsimp only; split <;> rfl
theorem regs_inject (s : State) (p : Pkt) : (s.inject p).regs = s.regs := by
  unfold State.inject; split <;> simp only [regs_injectOne]
theorem regs_take (s : State) (p : Pkt) : (s.take p).regs = s.regs := by unfold State.take; dsimp only; split <;> rfl

/-- An acknowledgement changes no register. -/
theorem reg_acked (s : State) (ag : Agent) (a b : Nat) : (acked s ag a).reg b = s.reg b := by
  unfold acked State.ackWrite
  split
  · rfl
  · unfold State.answer State.reply State.reg
    rw [regs_inject, regs_take]

theorem f_acked (s : State) (ag : Agent) (a b : Nat) (x : Fld) : (acked s ag a).f b x = s.f b x := by unfold State.f; rw [reg_acked]

/-- A register's command that reaches its unit acts there, its store acknowledged. -/
theorem regCmd_written {s : State} {k : BlockKind} {a : Nat} {ag : Agent} (h : Written s k a ag) (f : State → State) :
    regCmd k a ag s f = f (acked s ag a) := by
  unfold regCmd
  rw [if_neg (by simp [h.runs]), if_pos h.allowed]
  rfl

end Sys2Proof.Machine
end

