-- ==== Sys2Proof/Tests/Slice0.lean ====
section
/-! SUPPORT. Tests of the model: ill-formed commands refused, words of the spec's encoding decoded, and for every statement states and
operands that meet its hypotheses. -/

open Sys2Proof Sys2Proof.Machine Sys2Proof.Claims

namespace Sys2Proof.Tests

set_option Elab.async false

/-! ## Ill-formed commands -/

/-- A syllable of core 112, bank 0. -/
def syl (d a b : BitVec 6) (fn : BitVec 4) (imm : Word) : Syl := { core := 112, bank := 0, d := d, a := a, b := b, fn := fn, imm := imm }

/-- One command for each check of a unit's number, one past the last unit (R2, R3, R23, R320, R337, R416, R494, R500). -/
theorem test_units_ill_formed :
    ([.bundleIssue 128 0, .bundleIssue 0 8, .snoopDeferralEnd 16 { net := 0, typ := 0, src := 0, dst := 0 }, .fastClassEntry 128,
       .tlbInvalidationReceive 128 0, .tlbInvalidationReceive 0 160, .tlbInvalidationAcknowledged 128, .decodeMapChange 160,
       .threadValidate 16 0 true, .threadValidate 0 256 true, .schedSemPost 16 0 1, .schedSemPost 0 64 1, .completionNotice 16 0 0,
       .completionNotice 0 512 0, .completionNotice 0 0 8, .interruptEventLevel 16 0, .interruptEventLevel 0 1024] ++
      [.pcieResume {} 2, .pcieAttEntryWrite {} 2 0 0, .pcieAttEntryWrite {} 0 512 0, .pcieCompletionReceive 2 0 0 false 0,
       .pcieCompletionReceive 0 4 0 false 0, .readShared 16 { net := 0, typ := 0, src := 0, dst := 0 }, .cacheInvalidate {} 32 0 0 0,
       .cacheInvalidate {} 0 0 128 0, .cacheMaintComplete 32, .routerHeadFlit 30 0 0 0 0, .slotAdmission 30 0 0, .slotAdmission 0 40 0,
       .transactionTimeout 120 0, .dramRead 8 { net := 0, typ := 0, src := 0, dst := 0 }, .sourceLevelChange 1024, .icuSwl {} 2 0,
       .icuSrcWrite {} 2 0 0, .icuSrcWrite {} 0 1024 0] ++
      [.sqDb 512 0 8 0, .cqAck 512 0 8 0, .cqAck 0 8 8 0, .ethResume {} 40, .canResume {} 24, .linResume {} 16, .sm3Job {} 4 0,
       .pairForm {} 2 0 0, .pairForm {} 0 16 0, .pairForm {} 0 0 4, .pairFormed 16 0, .pairFormed 0 4, .powerUp {} 218, .clockGate {} 205 true,
       .bandwidthWindowEnd 16] : List Instr).all (fun i => !wellFormed i) = true := by decide +kernel

/-- Syllables with a reserved value in each checked field (R56, R59, R60, R70, R75). -/
theorem test_fields_ill_formed :
    [Instr.add { syl 1 2 3 0 0 with core := 128 }, .add { syl 1 2 3 0 0 with bank := 8 }, .sext (syl 1 2 0 3 0), .zext (syl 1 2 0 3 0),
      .clz (syl 1 2 0 1 0), .ctz (syl 1 2 0 1 0), .popc (syl 1 2 0 1 0), .bswap (syl 1 2 0 1 0), .mulw (syl 1 2 3 0 0), .mulwu (syl 3 2 3 0 0),
      .mfsr (syl 1 10 0 0 0), .mtsr (syl 1 10 0 0 0), .mtsr (syl 1 4 0 0 0), .movm (syl 1 7 0 0 0), .movtm (syl 1 7 0 0 0),
      .restl (syl 1 2 0 0 0), .resth (syl 1 2 0 0 0), .wfill (syl 1 2 0 0 0), .rsfill (syl 1 2 0 0 0), .pref (syl 4 2 0 0 0),
      .ldx (syl 1 2 3 7 0), .fdiv (syl 1 2 3 3 0), .fadd (syl 1 2 3 12 0), .fcvt (syl 1 2 0 12 0), .fmin (syl 1 2 3 4 0)].all
      (fun i => !wellFormed i) = true := by decide +kernel

theorem test_well_formed :
    [Instr.add (syl 1 2 3 0 0), .sext (syl 1 2 0 2 0), .mulw (syl 2 2 3 0 0), .mfsr (syl 1 9 0 0 0), .pref (syl 3 2 0 0 0), .fadd (syl 1 2 3 11 0),
      .threadValidate 15 255 true, .powerUp {} 217, .icuSwl {} 1 0, .canResume {} 23].all wellFormed = true := by decide +kernel

/-! ## Words of the encoding -/

/-- The bundle that R59 writes out: ADDI with its EXT, ADD in I1, LDD and BNEZ. -/
theorem test_bundle_of_R59 :
    decodeBundle 112 0 0 [0x08214008, 0x71234567, 0x10624520, 0x41A85010, 0xE2530010] =
      .ok [(.addi, { syl 33 16 0 0 0x12345678 with ext := true }), (.add, { syl 34 17 18 0 0 with i1 := true }), (.ldd, syl 40 20 0 0 16),
        (.bnez, syl 19 0 0 0 16)] 5 := by decide +kernel

/-- The same words at offset 0x10 of a fetch block are a format fault (R59). -/
theorem test_bundle_too_long : decodeBundle 112 0 4 [0x08214008, 0x71234567, 0x10624520, 0x41A85010, 0xE2530010] = .format := by decide +kernel

/-- Words of each unit, written out by R56 and R60: stop, unit, opcode, then the fields of the format. -/
theorem test_words_of_the_units :
    decodeSyl 112 0 (0b1#1 ++ 0b000#3 ++ 0b001010#6 ++ 5#6 ++ 6#6 ++ 7#6 ++ 0#4) none = some (.shl, syl 5 6 7 0 0) ∧
    decodeSyl 112 0 (0b1#1 ++ 0b000#3 ++ 0b101101#6 ++ 5#6 ++ 0xABCD#16) none = some (.movhi, syl 5 0 0 0 0xABCD) ∧
    decodeSyl 112 0 (0b1#1 ++ 0b000#3 ++ 0b110000#6 ++ 5#6 ++ 9#6 ++ 0#10) none = some (.mfsr, syl 5 9 0 0 0) ∧
    decodeSyl 112 0 (0b1#1 ++ 0b010#3 ++ 0b000010#6 ++ 0#4 ++ 2#2 ++ 6#6 ++ 7#6 ++ 0#4) none = some (.mulw, syl 2 6 7 0 0) ∧
    decodeSyl 112 0 (0b1#1 ++ 0b010#3 ++ 0b001000#6 ++ 0#6 ++ 6#6 ++ 7#6 ++ 0#4) none = some (.div, syl 0 6 7 0 0) ∧
    decodeSyl 112 0 (0b1#1 ++ 0b011#3 ++ 0b000101#6 ++ 5#6 ++ 6#6 ++ 7#6 ++ 0b0110#4) none = some (.fma, syl 5 6 7 6 0) ∧
    decodeSyl 112 0 (0b1#1 ++ 0b100#3 ++ 0b000000#6 ++ 5#6 ++ 6#6 ++ 0x3FF#10) none = some (.ldb, syl 5 6 0 0 (-1)) ∧
    decodeSyl 112 0 (0b1#1 ++ 0b101#3 ++ 0b001000#6 ++ 5#6 ++ 6#6 ++ 7#6 ++ 0#4) none = some (.stcond, syl 5 6 7 0 0) ∧
    decodeSyl 112 0 (0b1#1 ++ 0b110#3 ++ 0b000000#6 ++ 0x3FFFFF#22) none = some (.br, syl 0 0 0 0 (-1)) ∧
    decodeSyl 112 0 (0b1#1 ++ 0b110#3 ++ 0b001110#6 ++ 5#6 ++ 63#6 ++ 0x200#10) none = some (.bbs, syl 5 63 0 0 (-512)) ∧
    decodeSyl 112 0 (0b1#1 ++ 0b110#3 ++ 0b011000#6 ++ 0#6 ++ 0x8001#16) none = some (.trap, syl 0 0 0 0 0x8001) := by decide +kernel

/-- Words that R59 makes illegal: a reserved opcode, a field that is to be zero, MTSR in I1, an extension after BBS. -/
theorem test_words_illegal :
    decodeSyl 112 0 (0b1#1 ++ 0b000#3 ++ 0b011110#6 ++ 0#22) none = none ∧
    decodeSyl 112 0 (0b1#1 ++ 0b000#3 ++ 0b011000#6 ++ 5#6 ++ 6#6 ++ 1#6 ++ 0#4) none = none ∧
    decodeSyl 112 0 (0b1#1 ++ 0b001#3 ++ 0b110001#6 ++ 5#6 ++ 0#16) none = none ∧
    decodeSyl 112 0 (0b1#1 ++ 0b000#3 ++ 0b100100#6 ++ 5#6 ++ 6#6 ++ 64#10) none = none ∧
    orderOk none 0 [0b0#1 ++ 0b110#3 ++ 0b001110#6 ++ 0#22, 0xF0000000] = false := by decide +kernel

/-! ## States in which bundles issue -/

/-- The state after reset, with another bank 0 of core 112. -/
def wit (f : Bank → Bank) : State := State.reset.updBank 112 0 f

/-- That a bundle of one instruction reaches issue, as a test. -/
def reachesB (o : Op) (x : Syl) (s : State) (t : Nat) : Bool :=
  decide (x.core < 128) && decide (x.bank < 8) && canIssue s x.core x.bank && (s.bank x.core x.bank).held.isNone &&
    (match holdEdge (s.core x.core) x.bank [(o, x)] with
     | some r => decide (t = max ((s.core x.core).cyc + 1) r)
     | none => false) &&
    !(found s x t).lofPend && (found s x t).lost.isNone

def issuesB (o : Op) (x : Syl) (s : State) (t : Nat) : Bool := reachesB o x s t && (checkSyl (found s x t) o x).isNone && !domOn s 217

theorem reaches_of {o : Op} {x : Syl} {s : State} {t : Nat} (h : reachesB o x s t = true) : Reaches o x s t := by
  simp only [reachesB, Bool.and_eq_true, decide_eq_true_eq] at h
  obtain ⟨⟨⟨⟨⟨⟨h1, h2⟩, h3⟩, h0⟩, h4⟩, h5⟩, h6⟩ := h
  refine ⟨h1, h2, h3, by simpa using h0, ?_, ?_, ?_⟩
  · split at h4
    · exact ⟨_, by assumption, by simpa using h4⟩
    · cases h4
  · simpa [found] using h5
  · simpa [found] using h6

theorem issues_of {o : Op} {x : Syl} {s : State} {t : Nat} (h : issuesB o x s t = true) : Issues o x s t := by
  simp only [issuesB, Bool.and_eq_true] at h
  obtain ⟨⟨h1, h2⟩, h3⟩ := h
  exact ⟨reaches_of h1, by simpa [found] using h2, Or.inl (by simpa using h3)⟩

/-- Several instructions of one bundle's operands may issue in a state, and a condition on the bank they find holds. -/
def allIssue (l : List Op) (x : Op → Syl) (s : State) (t : Nat) (p : Op → Bank → Bool) : Bool :=
  l.all (fun o => issuesB o (x o) s t && p o (found s (x o) t))

theorem allIssue_mem {l : List Op} {x : Op → Syl} {s : State} {t : Nat} {p : Op → Bank → Bool} (h : allIssue l x s t p = true) {o : Op}
    (ho : o ∈ l) : Issues o (x o) s t ∧ p o (found s (x o) t) = true := by
  have := List.all_eq_true.mp h o ho
  rw [Bool.and_eq_true] at this
  exact ⟨issues_of this.1, this.2⟩

/-! ## Witnesses of the statements about instructions -/

/-- IntegerResults: every instruction without flags issues from the state after reset, with a result. -/
theorem wit_integerResults : ∀ o ∈ [Op.and, .or, .xor, .andn, .orn, .shl, .shr, .sar, .rol, .cmpeq, .cmpne, .cmplt, .cmpltu, .cmple, .cmpleu, .min, .max,
      .minu, .maxu, .bswap, .sext, .zext, .andi, .ori, .xori, .shli, .shri, .sari, .roli, .cmpeqi, .cmpnei, .cmplti, .cmpltui, .movi, .movhi, .addpc],
    Issues o (syl 1 2 3 0 5) State.reset 1 ∧ (intValue o (syl 1 2 3 0 5) 0 0 5 0 0).isSome := by
  intro o ho
  have h := allIssue_mem (l := _) (x := fun _ => syl 1 2 3 0 5) (s := State.reset) (t := 1)
    (p := fun o _ => (intValue o (syl 1 2 3 0 5) 0 0 5 0 0).isSome) (by decide +kernel) ho
  exact h

/-- BitCountsAndNops, AddSubtract. -/
theorem wit_counts_and_sums : ∀ o ∈ [Op.clz, .ctz, .popc, .nop, .barx, .add, .addc, .addi, .sub, .subc], Issues o (syl 1 2 3 0 5) State.reset 1 :=
  fun _ ho => (allIssue_mem (x := fun _ => syl 1 2 3 0 5) (p := fun _ _ => true) (by decide +kernel) ho).1

/-- SpecialRegisters: at level M every register may be read, and every register but CTXID written. -/
theorem wit_specialRegisters :
    (∀ i, i < 10 → Issues .mfsr (syl 1 (BitVec.ofNat 6 i) 0 0 0) State.reset 1) ∧
    (∀ i, i < 10 → i ≠ 4 → Issues .mtsr (syl 1 (BitVec.ofNat 6 i) 0 0 0) State.reset 1) := by
  refine ⟨fun i hi => issues_of ?_, fun i hi h4 => issues_of ?_⟩
  · exact (by decide +kernel : ∀ i, i < 10 → issuesB .mfsr (syl 1 (BitVec.ofNat 6 i) 0 0 0) State.reset 1 = true) i hi
  · exact (by decide +kernel : ∀ i, i < 10 → i ≠ 4 → issuesB .mtsr (syl 1 (BitVec.ofNat 6 i) 0 0 0) State.reset 1 = true) i hi h4

/-- Multiply. -/
theorem wit_multiply : ∀ o ∈ [Op.mul, .mac, .mulw, .mulwu, .movm, .movtm], Issues o (syl 2 6 3 0 0) State.reset 1 :=
  fun _ ho => (allIssue_mem (x := fun _ => syl 2 6 3 0 0) (p := fun _ _ => true) (by decide +kernel) ho).1

/-- A bank in which g1, g2 and g3 hold values. -/
def with3 (v1 v2 v3 : Word) (b : Bank) : Bank := { b with phys := [(1, v1), (2, v2), (3, v3)] }

/-- DivideAndDecimal: a zero divisor, −2^63 ÷ −1 and an ordinary pair; valid digits and an invalid one. -/
theorem wit_divide :
    allIssue [.div, .divu] (fun _ => syl 0 2 3 0 0) (wit (with3 0 7 0)) 1 (fun _ b => decide (b.g 3 = 0)) = true ∧
    allIssue [.div, .divu] (fun _ => syl 0 2 3 0 0) (wit (with3 0 0x8000000000000000 0xFFFFFFFFFFFFFFFF)) 1
      (fun _ b => decide ((b.g 2).toNat = 2 ^ 63 ∧ (b.g 3).toNat = 2 ^ 64 - 1)) = true ∧
    allIssue [.decadd, .decsub] (fun _ => syl 1 2 3 0 0) (wit (with3 0 0x1A 1)) 1 (fun _ b => decide (b.g 2 = 0x1A)) = true ∧
    allIssue [.decadd, .decsub] (fun _ => syl 1 2 3 0 0) (wit (with3 0 0x9999999999999999 1)) 1 (fun _ _ => true) = true ∧
    ¬bcdOk 0x1A ∧ bcdOk 0x9999999999999999 := by
  refine ⟨by decide +kernel, by decide +kernel, by decide +kernel, by decide +kernel, fun h => absurd (h 0 (by decide)) (by decide), ?_⟩
  intro i hi
  interval_cases i <;> decide

/-- DivideCorners: nothing in flight before either corner. -/
theorem wit_divideCorners : ((wit (with3 0 7 0)).bank 112 0).fly = [] ∧ ((wit (with3 0 0x8000000000000000 0xFFFFFFFFFFFFFFFF)).bank 112 0).fly = [] ∧
    (allIssue [.div] (fun _ => syl 0 2 3 0 0) (wit (with3 0 0x8000000000000000 0xFFFFFFFFFFFFFFFF)) 1
      (fun _ b => decide (b.g 2 = BitVec.ofInt 64 (-2 ^ 63) ∧ b.g 3 = BitVec.ofInt 64 (-1)))) = true := by
  refine ⟨rfl, rfl, by decide +kernel⟩

/-- FloatEdges: a row in each format, a pair of lanes, a conversion each way. -/
theorem wit_floatEdges :
    ([0, 1, 2].all (fun m => allIssue [.fadd] (fun _ => syl 1 2 3 (BitVec.ofNat 4 (4 + m)) 0) (wit (with3 0 1 1)) 1
      (fun _ b => decide (b.g 2 = 1 ∧ b.g 3 = 1 ∧ rounding (syl 1 2 3 (BitVec.ofNat 4 (4 + m)) 0) b.fpc = .ne) && decide ((Op.fadd, Rnd.ne, 1, 1, 0, 2, 0) ∈ edgesOf m)))) = true ∧
    (allIssue [.fmul] (fun _ => syl 1 2 3 7 0) (wit (with3 0 0x7F7FFFFF00000001 0x7F7FFFFF00000001)) 1
      (fun _ b => decide (b.g 2 = BitVec.ofNat 64 (1 + 0x7F7FFFFF * 2 ^ 32)) && decide ((Op.fmul, Rnd.ne, 1, 1, 0, 0, 24) ∈ edgesOf 1) &&
        decide ((Op.fmul, Rnd.ne, 0x7F7FFFFF, 0x7F7FFFFF, 0, 0x7F800000, 20) ∈ edgesOf 1))) = true ∧
    (allIssue [.fcvt] (fun _ => syl 1 2 0 4 0) (wit (with3 0 1 0)) 1 (fun _ b => decide (b.g 2 = 1 ∧ fld b.fpc 0 3 = 0))) = true ∧
    (allIssue [.fcvtf] (fun _ => syl 1 2 0 5 0) (wit (with3 0 0x7FFFFFFFFFFFFFFF 0)) 1 (fun _ b => decide (b.g 2 = 0x7FFFFFFFFFFFFFFF))) = true := by
  refine ⟨by decide +kernel, by decide +kernel, by decide +kernel, by decide +kernel⟩

/-- FloatCompletes: every F operation in a format it takes. -/
theorem wit_floatCompletes : ∀ o ∈ [Op.fadd, .fsub, .fmul, .fdiv, .fsqrt, .fma, .fms, .fnma, .fmin, .fmax, .fabs, .fneg, .fsgnj, .fclass, .fcmpeq, .fcmplt,
      .fcmple, .fcmpun, .fcvt, .fcvti, .fcvtiu, .fcvtf, .fcvtfu],
    Issues o (syl 1 2 (if o = .fsqrt ∨ o = .fabs then 0 else 3) 2 0) State.reset 1 ∧ (fLatency o 2).isSome := by
  intro o ho
  exact allIssue_mem (x := fun o => syl 1 2 (if o = .fsqrt ∨ o = .fabs then 0 else 3) 2 0) (s := State.reset) (t := 1)
    (p := fun o _ => (fLatency o 2).isSome) (by decide +kernel) ho

/-- FloatRounding, FloatArithmetic and the rest need only a format, a significand that is not zero, and numbers. -/
theorem wit_floats : isFmt ⟨11, 52⟩ ∧ (1 : Nat) ≠ 0 ∧ isNumber (funpack ⟨11, 52⟩ 0x3FF0000000000000) ∧ ¬isNumber (funpack ⟨11, 52⟩ 0x7FF0000000000000) ∧
    (funpack ⟨11, 52⟩ 0x7FF8000000000000).isNan = true ∧ (0 : Nat) < 2 ^ (10 - 1) := by
  refine ⟨Or.inr (Or.inr rfl), by decide, ?_, ?_, by decide +kernel, by decide⟩
  · rw [show funpack ⟨11, 52⟩ 0x3FF0000000000000 = .fin false (2 ^ 52) (-52) by decide +kernel]; trivial
  · rw [show funpack ⟨11, 52⟩ 0x7FF0000000000000 = .inf false by decide +kernel]; exact id

/-- BranchTargets. -/
theorem wit_branchTargets : ∀ o ∈ [Op.beqz, .bnez, .bltz, .bgez, .bgtz, .blez, .bbs, .bbc, .br, .jmp],
    Issues o (syl 0 2 0 0 4) State.reset 1 ∧ ((condition o (syl 0 2 0 0 4) 0).isSome ∨ o = .br ∨ o = .jmp) ∧
      ((found State.reset (syl 0 2 0 0 4) 1).g 2).toNat % 4 = 0 := by
  intro o ho
  obtain ⟨h, p⟩ := allIssue_mem (x := fun _ => syl 0 2 0 0 4) (s := State.reset) (t := 1)
    (p := fun o b => decide (((condition o (syl 0 2 0 0 4) 0).isSome ∨ o = .br ∨ o = .jmp) ∧ (b.g 2).toNat % 4 = 0)) (by decide +kernel) ho
  exact ⟨h, of_decide_eq_true p⟩

/-- A bank with a status of its own. -/
def withPsw (f : Psw → Psw) (b : Bank) : Bank := { b with psw := f b.psw }

/-- CallsAndReturns: with two resident windows and one entry on the stack. -/
theorem wit_callsAndReturns : ∀ o ∈ [Op.call, .callw, .callr, .callwr, .ret, .retw],
    let s := wit (withPsw (fun p => { p with wres := 2, rsd := 1 }))
    Issues o (syl 0 2 0 0 4) s 1 ∧ callFree (found s (syl 0 2 0 0 4) 1) true ∧ retFree (found s (syl 0 2 0 0 4) 1) true ∧
      (topOf (found s (syl 0 2 0 0 4) 1)).toNat % 4 = 0 := by
  intro o ho
  obtain ⟨h, p⟩ := allIssue_mem (x := fun _ => syl 0 2 0 0 4) (s := wit (withPsw (fun p => { p with wres := 2, rsd := 1 }))) (t := 1)
    (p := fun _ b => decide ((true = true → b.psw.tw = false ∧ b.psw.wres ≠ 5) ∧ ¬(b.psw.rsd = 16 ∧ b.psw.rsm = true) ∧
      (true = true → b.psw.tw = false ∧ b.psw.wres ≠ 1) ∧ ¬(b.psw.rsd = 0 ∧ b.psw.rsm = true) ∧ (topOf b).toNat % 4 = 0)) (by decide +kernel) ho
  have q := of_decide_eq_true p
  exact ⟨h, ⟨q.1, q.2.1⟩, ⟨q.2.2.1, q.2.2.2.1⟩, q.2.2.2.2⟩

/-- WindowAndStackTraps: each trap condition, in TRAP mode. -/
theorem wit_traps :
    allIssue [.jmp, .callr, .callwr] (fun _ => syl 0 2 0 0 4) (wit (with3 0 2 0)) 1
      (fun _ b => decide (b.depth < 2 ∧ b.psw.tw = false ∧ (b.g 2).toNat % 4 ≠ 0)) = true ∧
    allIssue [.ret, .retw] (fun _ => syl 0 0 0 0 0) (wit (fun b => { b with rs := [(15, 1)] })) 1 (fun _ b => decide ((topOf b).toNat % 4 ≠ 0)) = true ∧
    allIssue [.callw, .callwr] (fun _ => syl 0 2 0 0 4) (wit (withPsw (fun p => { p with wres := 5 }))) 1 (fun _ b => decide (b.psw.wres = 5)) = true ∧
    allIssue [.retw] (fun _ => syl 0 0 0 0 0) (wit (withPsw (fun p => { p with wres := 1 }))) 1 (fun _ b => decide (b.psw.wres = 1)) = true ∧
    allIssue [.call, .callr, .callw, .callwr, .rspush] (fun _ => syl 0 2 0 0 0) (wit (withPsw (fun p => { p with rsd := 16, rsm := true }))) 1
      (fun _ b => decide (b.psw.rsd = 16 ∧ b.psw.rsm = true ∧ b.psw.wres ≠ 5)) = true ∧
    allIssue [.ret, .retw, .rspop] (fun _ => syl 0 0 0 0 0) (wit (withPsw (fun p => { p with wres := 2, rsd := 0, rsm := true }))) 1
      (fun _ b => decide (b.psw.rsd = 0 ∧ b.psw.rsm = true ∧ b.psw.wres ≠ 1)) = true ∧
    allIssue [.callw, .callwr, .retw] (fun _ => syl 0 0 0 0 0) (wit (withPsw (fun p => { p with tw := true }))) 1 (fun _ b => b.psw.tw) = true := by decide +kernel

/-- StackAndFetchControl; CallsToHigherLevels, from the Closed world, and from the Open world while the Closed world is busy. -/
theorem wit_control :
    allIssue [.rspush, .rspop, .pbar, .waitev, .pflush, .isync] (fun _ => syl 0 0 0 0 0) State.reset 1 (fun _ b => !b.psw.rsm) = true ∧
    allIssue [.trap, .hcall, .mcall] (fun _ => syl 0 0 0 0 7) State.reset 1 (fun _ b => decide (b.depth < 2 ∧ b.psw.world = true)) = true ∧
    (let s := wit (withPsw (fun p => { p with world := false, pl := 2 }))
     issuesB .mcall (syl 0 0 0 0 7) s 1 = true ∧ cwBusy s 112 = true) := by decide +kernel

/-- PrivilegeAndIllegal: a syllable below its level, and RETT at depth 0. -/
theorem wit_privilege :
    let at_ := fun (p : BitVec 2) => wit (withPsw (fun q => { q with pl := p }))
    ([Op.rett, .hcall, .mcall, .wspill, .wfill, .rsspill, .rsfill, .savel, .saveh, .restl, .resth, .dinval].all (fun o =>
      reachesB o (syl 0 0 0 0 0) (at_ 0) 1) = true) ∧
    ([3, 5, 6, 7, 8, 9].all (fun i => reachesB .mfsr (syl 1 (BitVec.ofNat 6 i) 0 0 0) (at_ 0) 1) = true) ∧
    ([0, 3, 5, 6, 7, 8, 9].all (fun i => reachesB .mtsr (syl 1 (BitVec.ofNat 6 i) 0 0 0) (at_ 0) 1) = true) ∧
    ([7, 8, 9].all (fun i => reachesB .mfsr (syl 1 (BitVec.ofNat 6 i) 0 0 0) (at_ 1) 1 && reachesB .mtsr (syl 1 (BitVec.ofNat 6 i) 0 0 0) (at_ 1) 1) = true) ∧
    reachesB .mtsr (syl 1 8 0 0 0) (at_ 2) 1 = true ∧ reachesB .rett (syl 0 0 0 0 0) (at_ 1) 1 = true := by decide +kernel

/-! ### Memory -/

/-- A translation of the M regime, of one GiB, with every permission. -/
def page (v : Nat) (mt : MType) : TlbEnt :=
  { regime := 0, tenant := 0, asid := 0, glob := false, lg := 30, vpage := v, out := v * 2 ^ 30, ipa := 0, mt := mt, u := true, w := true, ux := true,
    sx := true, r2 := true, w2 := true, x2 := true, lvl1 := 0, lvl2 := 0, dec := false, mt1 := mt }

/-- A core with DRAM, its L1D on, and translations of the first GiB and of the registers. -/
def wmem (f : Bank → Bank) (g : Core → Core) : State :=
  (((((wit f).setRouter (clusterUnit 14 / 4) { map := { populated := 0x4000000000 } }).setF (R.CACHE_CTL 14) F.CACHE_CTL_en 1).setF (R.CACHE_CORE 14 0) F.CACHE_CORE_l1d_en 1).setF (R.MMU_CTL 112) F.MMU_CTL_m_en 1).updCore 112
    (fun k => g { k with map := { k.map with populated := 0x4000000000 }, dtlb := [page 0 .wb, page 15360 .device], itlb := [page 0 .wb, page 15360 .device] })

/-- The line at address 0x1000, held modified. -/
def line1000 (k : Core) : Core := { k with l1d := [{ line := 0x40, st := .m, data := 0x8877665544332211 }] }

/-- A condition on the parts of an access that passes its checks. -/
def accIs (x : Syl) (s : State) (va : Word) (n : Nat) (k : AccKind) (al : Nat) (nd : Option Nat) (p : List PartAt → Bool) : Bool :=
  match accessCheck (seenBy s x 1) x.core (preBank (seenBy s x 1) x) va n k al nd with
  | .ok ps => p ps
  | _ => false

theorem accIs_elim {x : Syl} {s : State} {va : Word} {n : Nat} {k : AccKind} {al : Nat} {nd : Option Nat} {p : List PartAt → Bool}
    (h : accIs x s va n k al nd p = true) : ∃ ps, accessed x s 1 va n k al nd ps ∧ p ps = true := by
  unfold accIs at h
  split at h
  · exact ⟨_, by assumption, h⟩
  · cases h

/-- g2 holds 0x1000. -/
def base1000 : Bank → Bank := with3 0 0x1000 0

/-- Loads: each load finds its bytes in the L1D, and, of a line the L1D has not, waits. -/
theorem wit_loads :
    [Op.ldb, .ldbu, .ldh, .ldhu, .ldw, .ldwu, .ldd, .ldres, .ldx].all (fun o => [true, false].all (fun q =>
      let x := if o = .ldx then syl 1 2 0 3 0 else syl 1 2 0 0 0
      let s := wmem base1000 (if q then line1000 else id)
      issuesB o x s 1 && (s.core 112).wb.isEmpty && (match loadKind o x with
        | some (n, _) => accIs x s (address o x (found s x 1)) n .read (if o = .ldres then 8 else 1) (if o = .ldres then some 0xA else none) (fun ps =>
            ps.all (fun p => decide (p.mt = .wb)) && (List.range n).all (fun i => (knownAt x s 1 ps i).isSome == q))
        | none => false))) = true := by decide +kernel

/-- Loads: of a register, in their place. -/
theorem wit_deviceLoads :
    [Op.ldb, .ldbu, .ldh, .ldhu, .ldw, .ldwu, .ldd, .ldx].all (fun o =>
      let x := if o = .ldx then syl 1 2 0 3 0 else syl 1 2 0 0 0
      let s := wmem (with3 0 0xF0000000000 0) id
      issuesB o x s 1 && (match loadKind o x with
        | some (n, _) => accIs x s (address o x (found s x 1)) n .read 1 none (fun ps => decide (ps.length = 1) && ps.all (fun p => decide (p.mt = .device)))
        | none => false)) = true := by decide +kernel

/-- Stores: to a line of DRAM, and to a device. -/
theorem wit_stores :
    [Op.stb, .sth, .stw, .std, .stx].all (fun o => [0x1000, 0xF0000000000].all (fun a =>
      let x := if o = .stx then syl 1 2 0 3 0 else syl 1 2 0 0 0
      let s := wmem (with3 0x55 (BitVec.ofNat 64 a) 0) id
      issuesB o x s 1 && (s.core 112).wb.isEmpty && (match storeKindOf o x with
        | some n => accIs x s (address o x (found s x 1)) n .write 1 none (fun ps =>
            ps.all (fun p => (decide (p.mt = .wb) && !p.dec) || decide (p.mt = .device)) && decide (ps.length ≤ 16))
        | none => false))) = true := by decide +kernel

/-- A fault of an access's translation. -/
def faultsB (x : Syl) (s : State) (va : Word) (k : AccKind) : Bool :=
  match translateFor (seenBy s x 1) x.core (preBank (seenBy s x 1) x) va k with
  | .fault _ => true
  | _ => false

/-- AccessFaults: an odd address of LDRES, and addresses that the regime does not admit. -/
theorem wit_accessFaults :
    (∀ o ∈ [Op.ldres, .stcond], issuesB o (syl 1 2 3 0 0) (wmem (with3 0 0x1001 0) id) 1 = true) ∧
    (∀ o ∈ [Op.ldb, .ldd, .ldx, .stb, .std], let s := wmem (with3 0 0x1000000000000 0) id
      issuesB o (syl 1 2 0 0 0) s 1 = true ∧ faultsB (syl 1 2 0 0 0) s (address o (syl 1 2 0 0 0) (found s (syl 1 2 0 0 0) 1)) .read = true ∧
        faultsB (syl 1 2 0 0 0) s (address o (syl 1 2 0 0 0) (found s (syl 1 2 0 0 0) 1)) .write = true) := by decide +kernel

/-- StoreConditional: without a reservation; with one and the line; with one and no line. -/
theorem wit_storeConditional :
    ∀ q ∈ [(none, true), (some 0x20, true), (some 0x20, false)],
      let x := syl 1 2 3 0 0
      let s := wmem (fun b => { base1000 b with resv := q.1 }) (if q.2 then line1000 else id)
      issuesB .stcond x s 1 = true ∧ (found s x 1).resv = q.1 ∧ l1dOn s 112 = true ∧ (s.core 112).wb.length = 0 ∧
        accIs x s 0x1000 8 .write 8 (some 0xA) (fun ps =>
          match ps with
          | [p] => decide (p.pa / 128 = 0x20) && decide (p.mt = .wb) && !p.dec && ((s.core 112).l1d.any (fun l => decide (l.line = p.pa / 64)) == q.2)
          | _ => false) = true := by decide +kernel

/-- StoreConditional: of memory that is not write-back. -/
theorem wit_storeConditionalNc :
    let x := syl 1 2 3 0 0
    let s := (wmem (fun b => { base1000 b with resv := some 0x20 }) id).updCore 112 (fun k => { k with dtlb := [page 0 .nc] })
    issuesB .stcond x s 1 = true ∧ (found s x 1).resv = some 0x20 ∧
      accIs x s 0x1000 8 .write 8 (some 0xA) (fun ps =>
        match ps with
        | [p] => decide (p.pa / 128 = 0x20) && decide (p.mt ≠ .wb)
        | _ => false) = true := by decide +kernel

/-- BarriersAndPrefetch, CacheInstructions. -/
theorem wit_barriers :
    (∀ o ∈ [Op.barl, .bars, .bara, .pref], issuesB o (syl 0 2 0 0 0) (wmem base1000 id) 1 = true) ∧
    (∀ o ∈ [Op.dclean, .dinval, .iclean], ∀ a ∈ [((0x1000 : Word), MType.wb), (0xF0000000000, MType.device)],
      let s := wmem (with3 0 a.1 0) id
      issuesB o (syl 0 2 0 0 0) s 1 = true ∧ (s.core 112).wb.length = 0 ∧
        (match translateFor (seenBy s (syl 0 2 0 0 0) 1) 112 (preBank (seenBy s (syl 0 2 0 0 0) 1) (syl 0 2 0 0 0)) a.1
            (if o = .dclean then .read else if o = .dinval then .write else .exec) with
         | .ok pa mt b _ => decide (mt = a.2) && !b && decide (addrClass pa = .dram ∨ a.2 = .device) && (!decide (a.2 = .wb) || !decodeFails (routerMap s 112) true true pa)
         | _ => false) = true) ∧
    (∀ o ∈ [Op.dclean, .dinval, .iclean], let s := wmem (with3 0 0x1000000000000 0) id
      issuesB o (syl 0 2 0 0 0) s 1 = true ∧
        faultsB (syl 0 2 0 0 0) s 0x1000000000000 (if o = .dclean then .read else if o = .dinval then .write else .exec) = true) ∧
    ([0, 1, 2, 3].all (fun h => let s := wmem base1000 id
      issuesB .pref (syl (BitVec.ofNat 6 h) 2 0 0 0) s 1 && (match translateFor (seenBy s (syl 0 2 0 0 0) 1) 112 (preBank (seenBy s (syl 0 2 0 0 0) 1) (syl 0 2 0 0 0)) 0x1000
          (if h = 1 then .write else .read) with
        | .ok pa .wb false _ => decide (addrClass pa = .dram)
        | _ => false)) = true) := by decide +kernel

/-- Sixteen lines from 0x1000 on, held modified. -/
def lines1000 (k : Core) : Core := { k with l1d := (List.range 16).map (fun i => { line := 0x40 + i, st := .m, data := 7 }) }

/-- BlockTransfers: each block instruction in the window handler, with the block in DRAM, in the L1D or not. -/
theorem wit_blocks :
    ∀ o ∈ [Op.savel, .saveh, .wspill, .rsspill, .restl, .resth, .wfill, .rsfill], ∀ q ∈ [true, false],
      let x := syl 0 2 0 0 0
      let s := wmem (fun b => withPsw (fun p => { p with tw := true, wres := 2, rsd := 8 }) (base1000 b)) (if q then lines1000 else id)
      issuesB o x s 1 = true ∧ (s.core 112).wb.length = 0 ∧ (found s x 1).psw.wcur < 6 ∧
        (match blockLines o with
         | some l => (match blockCheck (seenBy s x 1) 112 (preBank (seenBy s x 1) x)
              (if o = .savel ∨ o = .saveh ∨ o = .wspill ∨ o = .rsspill then .write else .read) ((found s x 1).g 2 + 0) l with
            | .ok ps => ps.all (fun p => decide (p.mt = .wb) && !p.dec) && (linesKnown (seenBy s x 1) 112 0 ps == q)
            | _ => false)
         | none => false) = true := by decide +kernel

/-- An STM or LDM of g4 and g5 at 0x1000, as it is before its first access and between the two. -/
def multi0 (v : Nat) : State := wmem (with3 (BitVec.ofNat 64 v) 0x1000 0) line1000
def multi1 (o : Op) : State :=
  match exec (instrOf o (syl 1 2 0 0 0)) (multi0 0x30) with
  | .next u => u
  | _ => State.reset

/-- MultipleRegisters: with two registers and with none, and the second access. -/
theorem wit_multiple :
    ([Op.stm, .ldm].all (fun o => [0x30, 0].all (fun v =>
      let x := syl 1 2 0 0 0
      let s := multi0 v
      issuesB o x s 1 && !bit (mget 0 (found s x 1).prog (found s x 1).depth) 63 && (s.core 112).wb.isEmpty &&
        accIs x s 0x1000 8 (if o = .stm then .write else .read) 8 none (fun ps =>
          match ps with
          | [p] => decide (p.mt = .wb) && !p.dec && (List.range 8).all (fun j => (knownByte (seenBy s x 1) 112 0 p j).isSome)
          | _ => false))) = true) ∧
    ([Op.stm, .ldm].all (fun o =>
      let x := syl 1 2 0 0 0
      let s := multi1 o
      let t := max ((s.core 112).cyc + 1) (s.bank 112 0).ready
      match (s.bank 112 0).held with
      | some h =>
        let w := h.view 112 0 (s.landAt 112 t)
        canIssue s 112 0 && decide (h.syls = [(o, x)]) && decide (h.words = words x) && (checkSyl (w.bank 112 0) o x).isNone && !domOn s 217 &&
          decide (((List.range 64).filter (fun i => ((w.bank 112 0).g x.d).getLsbD i))[if o = .stm then h.stm else h.ldm]? = some 5) &&
          (s.core 112).wb.all (fun e => decide (e.kind = .normal) && (decide (o = .stm) || decide (e.seq < h.seq))) &&
          (match accessCheck w 112 (w.bank 112 0) 0x1008 8 (if o = .stm then .write else .read) 8 none with
           | .ok [p] => decide (p.mt = .wb) && !p.dec && (List.range 8).all (fun j => (knownByte w 112 0 p j).isSome)
           | _ => false)
      | none => false) = true) := by decide +kernel

/-- ReturnFromEntry: from depth 1 to a record of zeros (level U, Open world), to one that names no window and one above its level, in the L1D; one
that is not there; one that cannot be read; and in the fast bank. -/
theorem wit_return :
    let x := syl 0 0 0 0 0
    let s := fun (w : Nat) (pl : BitVec 2) (q : Bool) => wmem (fun b => withPsw (fun p => { p with pl := pl }) { b with depth := 1 })
      (fun k => { k with l1d := if q then [{ line := 6, st := .e, data := BitVec.ofNat 512 w }] else [] })
    (∀ q ∈ [(0, (3 : BitVec 2)), (0xC0, 3), (2, 1)],
      let z := s q.1 q.2 true
      let r := Psw.ofWord ((knownWords (seenBy z x 1) 112 0 [recordPart 0x180]).getD 0 0)
      issuesB .rett x z 1 = true ∧ folioAt (seenBy z x 1) 112 (preBank (seenBy z x 1) x) ((found z x 1).folio.toNat + 0x180) false = some 0x180 ∧
        linesKnown (seenBy z x 1) 112 0 [recordPart 0x180] = true ∧ (r.wcur, r.pl.toNat) = (q.1 / 32, q.1 % 4)) ∧
    (let z := s 0 3 false
     issuesB .rett x z 1 = true ∧ folioAt (seenBy z x 1) 112 (preBank (seenBy z x 1) x) ((found z x 1).folio.toNat + 0x180) false = some 0x180 ∧
        linesKnown (seenBy z x 1) 112 0 [recordPart 0x180] = false) ∧
    (let z := wmem (fun b => { b with depth := 1, folio := 0xF0000000000 }) id
     issuesB .rett x z 1 = true ∧ folioAt (seenBy z x 1) 112 (preBank (seenBy z x 1) x) ((found z x 1).folio.toNat + 0x180) false = none) ∧
    (let z := State.reset.updCore 112 (fun k => { k with fastRun := true, banks := [(7, { Bank.boot with psw := { fast := true, bank := 7 } })] })
     issuesB .rett { x with bank := 7 } z 1 = true ∧ (found z { x with bank := 7 } 1).psw.fast = true ∧ (found z { x with bank := 7 } 1).depth = 0) := by
  decide +kernel

/-! ### Events of a core -/

/-- A result in flight of a kind, and one behind it. -/
def flying (k : FlightKind) (b : Bank) : Bank := { b with fly := [{ kind := k, due := 4, mw := [(5, 9)] }, { kind := .slow, due := 5 }] }

/-- A load of 8 bytes of a register of the security block, under tag 5, that is sent. -/
def regLoad : LoadEnt := { seq := 3, phys := 1, va := 0xF0000000000 + BitVec.ofNat 64 R.SEC_STAT, pa := 0xF0000000000 + R.SEC_STAT, size := 8, mt := .device, tag := 5 }

/-- What core 112 asks of a unit and the unit's answer, under tag 5. -/
def ask (typ pa : Nat) : Pkt := { net := 0, typ := typ, src := clusterUnit 14, dst := secUnit, tag := 5, size := 3, pa := pa, closed := true }
def reply (pa : Nat) : Pkt := { net := 1, typ := 3, dst := clusterUnit 14, tag := 5, size := 3, pa := pa, data := 7 }

/-- A held LDD of that register. -/
def heldLoad : Held := { at_ := 1, syls := [(.ldd, syl 1 2 0 0 0)], words := 1 }

/-- ResultsArrive: each kind of result lands; a load with all its bytes, one whose answer waits, one whose request has reached its unit, and one of a
device whose bundle is held. -/
theorem wit_resultsArrive :
    ([FlightKind.mul, .div, .dec, .fp, .fpLong, .load].all (fun k => coreClocked (wit (flying k)) 112 && (landing k 112 0).isSome) = true) ∧
    (let l : LoadEnt := { seq := 3, phys := 1, va := 0, pa := 0xC0000000000, size := 8, fwd := (List.range 8).map (fun i => (i, 1)) }
     (coreClocked (wit (fun b => { b with loads := [l] })) 112 && (List.range l.size).all (fun i => l.fwd.any (fun q => decide (q.1 = i)))) = true) ∧
    (let l : LoadEnt := { seq := 3, phys := 1, va := 0, pa := 0xC0000000000, size := 8, mt := .nc, tag := 5 }
     let p := reply l.pa
     let s := { wit (fun b => { b with loads := [l] }) with inbox := [p] }
     (coreClocked s 112 && l.sent && decide (findAns s 112 l.tag = some p) && decide (ansOf p = some (.data 7)) && decide (p.pa = l.pa ∧ l.size ≤ 2 ^ p.size)) = true) ∧
    (let p := ask 0xA regLoad.pa
     let s := { wit (fun b => { b with loads := [regLoad] }) with inbox := [p] }
     (coreClocked s 112 && (findAns s 112 5).isNone && decide (reachedReq s (clusterUnit 14) 5 = some p) && decide (addrClass p.pa = .config) &&
       regRuns s (p.pa - 0xF0000000000) && !writeBefore s p) = true) ∧
    (let p := reply regLoad.pa
     let s := { wit (fun b => { with3 0 0 0 b with loads := [regLoad], held := some heldLoad }) with inbox := [p] }
     (coreClocked s 112 && (checkSyl ((heldLoad.view 112 0 (s.landAt 112 (s.core 112).cyc)).bank 112 0) .ldd (syl 1 2 0 0 0)).isNone &&
       decide (loadKind .ldd (syl 1 2 0 0 0) = some (8, false)) && decide (findAns s 112 5 = some p)) = true) := by
  decide +kernel

/-- A store that waits in the write buffer, under tag 5. -/
def waits (kind : WbKind) (sent : Bool) (pa : Nat) (k : Core) : Core :=
  { k with wb := [{ seq := 3, bank := 0, tenant := 0, closed := true, kind := kind, pa := pa, size := 8, data := 7, mask := 0xFF, sent := sent, tag := 5,
                    thread := some 0 }] }

/-- StoresPerformed: a store on a modified line; a sent non-cacheable and a sent device store, acknowledged and with a decode error; one that has
reached the Closed SRAM. -/
theorem wit_storesPerformed :
    (let s := wmem id (fun k => line1000 (waits .normal false 0x1000 k))
     (coreClocked s 112 && l1dOn s 112 && (findLine (s.core 112).l1d 0x40).any (fun l => decide (l.st ≠ .s)) && (s.core 112).wb.all (mayGo s 112)) = true) ∧
    ([(WbKind.nc, 0xC0000000000), (.dev, 0xF0000000000)].all (fun q => [0, 4].all (fun a =>
      let p : Pkt := { net := 1, typ := a, dst := clusterUnit 14, tag := 5 }
      let s := { wmem id (waits q.1 true q.2) with inbox := [p] }
      coreClocked s 112 && ((s.core 112).wb.find? (fun e => decide (e.bank = 0) && decide (e.seq = 3) && e.sent && (decide (e.kind = .nc) || decide (e.kind = .dev)))).isSome &&
        decide (findAns s 112 5 = some p) && decide (ansOf p = some (if a = 0 then .data 0 else .decodeError)) && decide ((s.bank 112 0).thread = some 0))) = true) ∧
    (let p := ask 8 0xF8000100000
     let s := { (wmem id (waits .nc true 0xF8000100000)).setF (R.CLK_ISL 202) F.CLK_ISL_locked 1 with inbox := [p] }
     (coreClocked s 112 && (findAns s 112 5).isNone && decide (reachedReq s (clusterUnit 14) 5 = some p) && islandRuns s 202) = true) := by
  decide +kernel

/-- DeviceAccesses: a store and a load to send, and each sent and overdue. -/
theorem wit_deviceAccesses :
    let l : LoadEnt := { regLoad with sent := false }
    (let s := wmem id (waits .dev false 0xF0000000000)
     (coreClocked s 112 && !devBusy (s.core 112) 0 (s.bank 112 0) && ((s.core 112).wb.find? (fun e => decide (e.bank = 0) && decide (e.kind = .dev) && mayGo s 112 e)).isSome &&
       !(s.bank 112 0).devLost && !decodeFails (routerMap s 112) true true 0xF0000000000) = true) ∧
    (let s := wmem (fun b => { b with loads := [l] }) id
     (coreClocked s 112 && !devBusy (s.core 112) 0 (s.bank 112 0) && (s.core 112).wb.isEmpty && !decodeFails (routerMap s 112) true false l.pa) = true) ∧
    (let s := wmem id (waits .dev true 0xF0000000000)
     (coreClocked s 112 && (s.core 112).wb.all (fun e => decide (e.late ≤ s.ref)) && decide ((s.bank 112 0).thread = some 0)) = true) ∧
    (let s := wmem (fun b => { b with loads := [{ l with sent := true }] }) id
     (coreClocked s 112 && decide ((s.bank 112 0).depth < 2) && (s.bank 112 0).lost.isNone &&
       ((s.bank 112 0).loads.find? (fun l => decide (l.seq = 3) && decide (l.mt = .device) && l.sent && !l.complete)).isSome) = true) := by decide +kernel

/-- BarriersAndFetch: a barrier with nothing before it, one behind a load, one that ended with a lost store, and a fetch that waits: outside DRAM, with the
line that has come, clean and poisoned, and with a packet. -/
theorem wit_barriersAndFetch :
    (let s := wit (fun b => { b with bars := [⟨.bara, 1⟩], fly := [{ kind := .load, due := 3 }] })
     (coreClocked s 112 && (s.bank 112 0).lost.isNone && (s.core 112).wb.isEmpty && (s.bank 112 0).loads.isEmpty) = true) ∧
    coreClocked (wit (fun b => { b with bars := [⟨.barl, 4⟩], loads := [{ seq := 3, phys := 1, va := 0, pa := 0, size := 8 }] })) 112 = true ∧
    (wit (fun b => { b with bars := [⟨.bars, 4⟩], lost := some ⟨0, 0xE, 3⟩ })).bank 112 0 = { Bank.boot with bars := [⟨.bars, 4⟩], lost := some ⟨0, 0xE, 3⟩ } ∧
    (let s := wit (fun b => { b with fwait := some 0xFFFFFF00000 })
     (coreClocked s 112 && (s.bank 112 0).fsent.isNone && (s.core 112).ifill.isEmpty && decide (addrClass 0xFFFFFF00000 ≠ .dram)) = true) ∧
    ([true, false].all (fun q => let s := (wit (fun b => { b with fwait := some 0x1000 })).updCore 112 (fun k => { k with ifill := [(0x40, 7, q)] })
      decide ((s.core 112).ifill.find? (fun x => decide (x.1 = 0x1000 / 64)) = some (0x1000 / 64, 7, q))) = true) ∧
    (let p : Pkt := { reply 0x1000 with net := 3, typ := 0 }
     let s := { wit (fun b => { b with fwait := some 0x1000, fsent := some (5, 9) }) with inbox := [p] }
     decide (findAns s 112 5 = some p) = true) := by
  decide +kernel

/-- EntriesTaken: an exception, with and without a pending long-operation fault, an interrupt, the capture of an entry, and the fast class. -/
theorem wit_entriesTaken :
    (canIssue State.reset 112 0 = true ∧ (State.reset.bank 112 0).depth < 2 ∧ (State.reset.bank 112 0).held = none ∧
      (landBank 1 (State.reset.bank 112 0)).lofPend = false ∧ (landBank 1 (State.reset.bank 112 0)).lost = none) ∧
    (let s := wit (fun b => { b with lofPend := true })
     canIssue s 112 0 = true ∧ (landBank 1 (s.bank 112 0)).lofPend = true) ∧
    (let s := ((wit (withPsw (fun p => { p with ie := true }))).setF (icuSrc 3) F.ICU_SRC_lvl 3).updCore 112 (fun k => { k with pres := [(0, 3)] })
     (normalDue s 112 0 = some 3 ∧ (s.bank 112 0).held = none)) ∧
    (let e : EntrySeq := ⟨1, 15, 1, 7, 0, 0, 0⟩
     let s := wmem (fun b => { b with entry := some e }) id
     folioAt (s.landAt 112 (max (e.at_ + 5) 0)) 112 ((s.landAt 112 (max (e.at_ + 5) 0)).bank 112 0) (0 + 0x180 + 0x40 * (s.bank 112 0).depth) true = some 0x180) ∧
    (let s := (State.reset.setF (R.SCHED_CORE 14 0) F.SCHED_CORE_fast_en 1).updCore 112 (fun k => { k with
       pres := [(8, 3)], banks := [(0, { Bank.boot with psw := { fie := true } }), (7, { Bank.reset 7 with st := .run, psw := { bank := 7, fast := true } })] })
     ((s.core 112).pres.find? (fun p => decide (p.1 = 8)) = some (8, 3) ∧ (s.core 112).fastRun = false ∧ (s.bank 112 7).psw.fast = true ∧ (s.core 112).move = none ∧
       (s.bank 112 7).held = none ∧
       s.f (R.SCHED_CORE (112 / 8) (112 % 8)) F.SCHED_CORE_fast_en = 1 ∧ runBank (s.core 112) = some 0 ∧ (s.bank 112 0).psw.fie = true)) := by decide +kernel

/-- Translations: a walk whose read has come, one that its L2 serves in its turn, a read outside DRAM, to be sent and answered; a walk
that the L2 TLB serves, and one that faults. -/
theorem wit_translations :
    let w : Walk := { bank := 0, regime := 0, tenant := 0, asid := 0, closed := true, va := 0x1000, kind := .read, pc := 0xFFFFFF00000 }
    let need : State → Walk → Option Nat := fun z w => match walkRun z 112 w with | .need pa => some pa | _ => none
    (let s := wmem id (fun k => { k with walkD := some { w with got := some (0, 7, false) } })
     (coreClocked s 112 && (match need s w with | some pa => decide (pa / 64 = 0) && decide (addrClass pa = .dram) | none => false)) = true) ∧
    (let s := (wmem id (fun k => { k with walkD := some w })).setCluster 14 { l2 := [{ line := 0, st := .e, data := 7 }] }
     (coreClocked s 112 && decide (need s w = some 0) && (s.cluster 14).mshr.isEmpty && (l1Modified s (clusterCores 14) 0).isNone &&
       lookupTurn (s.updCore 112 (fun k => k.setWalk false (some { w with l2 := true }))) 14 (portOf 112 false) 0 false &&
       (l2Line s 14 0).any (fun x => !x.poison)) = true) ∧
    (let s := (wmem id (fun k => { k with walkD := some w })).setF (R.MMU_MROOT 112) F.MMU_MROOT_root (0xC0000000000 / 4096)
     (match need s w with
      | some pa => decide (addrClass pa ≠ .dram) && !decodeFails (routerMap s 112) w.closed false pa &&
          decide (findAns { s with inbox := [reply pa] } 112 5 = some (reply pa))
      | none => false) = true) ∧
    (let s := wmem (fun b => { b with missing := true }) (fun k => { k with walkD := some w, l2tlb := [page 0 .wb] })
     (coreClocked s 112 && decide ((s.bank 112 0).pc = w.pc) && (l2Find (s.core 112) w).any (fun e => (permFault e w.kind false w.va.toNat).isNone)) = true) ∧
    (let w : Walk := { w with ans := [(0, .data 0)] }
     let s := wmem (fun b => { b with missing := true }) (fun k => { k with walkD := some w })
     (coreClocked s 112 && (l2Find (s.core 112) w).isNone && (match walkRun s 112 w with | .fault _ => true | _ => false)) = true) := by decide +kernel

/-- The bundle that the fetch buffer of the boot core holds. -/
def fetched (d : Line) : Option Decoded :=
  let s := wit (fun b => { b with fbuf := [(0xFFFFFF00000 / 32, d)] })
  match fetchAt s 112 (s.bank 112 0) with
  | .ok pa mt _ => (fetchLine s 112 0 pa mt).map (fun d => decodeBundle 112 0 ((s.bank 112 0).pc.toNat % 32 / 4) (blockTail d (pa % 64 / 4)))
  | _ => none

/-- BundleIssues: a bundle of one syllable and one of two in the fetch buffer, one with no end and one of reserved words, a fetch that the ITLB misses,
and one whose line the L1I has not. -/
theorem wit_bundleIssues :
    (canIssue State.reset 112 0 = true ∧ (State.reset.bank 112 0).held = none ∧ fastFetch State.reset 112 0 = none ∧ holdEdge (State.reset.core 112) 0 [] = some 0 ∧
      (State.reset.bank 112 0).fly = []) ∧
    fetched 0x80000000 = some (.ok [(.nop, syl 0 0 0 0 0)] 1) ∧
    (match fetched ((0b1#1 ++ 0b001#3 ++ 0b001010#6 ++ 8#6 ++ 6#6 ++ 7#6 ++ 0#4 ++ (0b0#1 ++ 0b000#3 ++ 0b001010#6 ++ 5#6 ++ 6#6 ++ 7#6 ++ 0#4)).setWidth 512) with
     | some (.ok xs _) => decide (xs.length = 2) && xs.all (fun p => issuesB p.1 p.2 State.reset 1 && (intValue p.1 p.2 0 0 p.2.imm 0 0).isSome)
     | _ => false) = true ∧
    fetched 0 = some .format ∧ fetched 0x87800000 = some .illegal ∧
    (let s := wmem id id
     canIssue s 112 0 = true ∧ (s.core 112).walkI = none ∧ (match fetchAt s 112 (s.bank 112 0) with | .miss => true | _ => false) = true) ∧
    (let s := wmem (fun b => { b with pc := 0x1000 }) id
     canIssue s 112 0 = true ∧ (s.core 112).imshr = [] ∧
       (match fetchAt s 112 (s.bank 112 0) with | .ok pa mt _ => decide (mt = .wb) && (fetchLine s 112 0 pa .wb).isNone | _ => false) = true) := by decide +kernel

/-- ThreadTable: an entry that is accepted; one without a folio; a fast one on a core without a fast bank; one made invalid. -/
theorem wit_threadTable :
    let s := (State.reset.setF (thA 14 1) F.SCHED_THR_A_folio 0x400)
    clusterRuns s 14 = true ∧ s.f (thB 14 1) F.SCHED_THR_B_state = 0 ∧ thrRejected s 14 1 = false ∧
    (State.reset.f (thA 14 1) F.SCHED_THR_A_folio = 0 ∧ State.reset.f (thB 14 1) F.SCHED_THR_B_state = 0) ∧
    (let z := s.setF (thB 14 1) F.SCHED_THR_B_fast 1
     z.f (thB 14 1) F.SCHED_THR_B_fast = 1 ∧ z.f (R.SCHED_CORE 14 (z.f (thB 14 1) F.SCHED_THR_B_core)) F.SCHED_CORE_fast_en = 0) := by decide +kernel

/-- An entry of the event table of cluster 14 that binds thread 1, bit 3. -/
def bound (kind source : Nat) (s : State) : State :=
  s.setReg (R.SCHED_EVT 14 0) (BitVec.ofNat 64 (1 + kind * 2 + source * 8 + 1 * 2 ^ 15 + 3 * 2 ^ 23))

/-- A thread 1 that waits, OUT, for bit 3. -/
def waiter : State := (State.reset.setF (thB 14 1) F.SCHED_THR_B_state 1).setF (thB 14 1) F.SCHED_THR_B_wmask 8

/-- SemaphoresTimersEvents: a count below and at its end, a waiter, a timer whose deadline is now, and each kind of bound source. -/
theorem wit_semaphoresTimersEvents :
    (clusterRuns State.reset 14 = true ∧ State.reset.f (R.SCHED_SEM_CNT 14 0 0) F.SCHED_SEM_CNT_count + 1 ≤ 65535 ∧
      65535 < (State.reset.setF (R.SCHED_SEM_CNT 14 0 0) F.SCHED_SEM_CNT_count 65535).f (R.SCHED_SEM_CNT 14 0 0) F.SCHED_SEM_CNT_count + 1) ∧
    (let s := bound 2 0 (waiter.setF (R.SCHED_SEM_CNT 14 0 0) F.SCHED_SEM_CNT_count 1)
     semWaiters s 14 0 = [(1, 3)] ∧ s.f (R.SCHED_SEM_CNT 14 0 0) F.SCHED_SEM_CNT_count = 1) ∧
    (let s := waiter.setF (R.SCHED_THR_T 14 1) F.SCHED_THR_T_armed 1
     s.f (thB 14 1) F.SCHED_THR_B_state ≠ 0 ∧ s.f (R.SCHED_THR_T 14 1) F.SCHED_THR_T_armed = 1 ∧
       (s.ref + 2 ^ 40 - s.f (R.SCHED_THR_T 14 1) F.SCHED_THR_T_deadline) % 2 ^ 40 < 2 ^ 39) ∧
    (let p : Pkt := { net := 0, typ := 0xB, src := pipeUnit 0, dst := clusterUnit 14, tenant := 1, tag := 1 }
     let s := { bound 0 9 waiter with inbox := [p] }
     s.inbox.find? (fun p => isNotice p && p.dst = clusterUnit 14 && p.tenant = 1 && p.tag = 1) = some p ∧ boundOnce s 14 0 (1 * 8 + 1) 1 3 ∧ boundOnce ((bound 1 9 waiter).updCluster 14 (fun k => { k with levels := [9] })) 14 1 9 1 3) := by
  refine ⟨by decide +kernel, by decide +kernel, by decide +kernel, ?_⟩
  unfold boundOnce
  decide +kernel

/-- Core 112 with a RUN bank 0, of thread 0, and a READY bank 1, of thread 1 with priority `p`. -/
def twoBanks (p : Nat) : State :=
  (((State.reset.setF (thB 14 1) F.SCHED_THR_B_prio p).setF (thB 14 1) F.SCHED_THR_B_state 4).setF (thB 14 0) F.SCHED_THR_B_prio 3).updCore 112
    (fun k => { k with banks := [(0, Bank.boot), (1, { Bank.reset 1 with st := .ready, thread := some 1 })] })

/-- SchedulingAndSwitches: a READY bank of higher, of lower and of equal priority; a switch to one that runs on and to one that sleeps; a wait with and
without a pending event, the end of a thread, and a yield to a bank of equal priority and to none. -/
theorem wit_scheduling :
    ([7, 1, 3].all (fun p => let s := twoBanks p
      clusterRuns s 14 && decide (runBank (s.core 112) = some 0) && decide (bestReady s 112 = some 1) && selectable s 112 0 &&
        decide (bankPrio s 112 1 = p) && decide (bankPrio s 112 0 = 3)) = true) ∧
    (let s := { (twoBanks 3).setF (R.SCHED_CORE 14 0) F.SCHED_CORE_quantum 5 with ref := 5 }
     s.f (R.SCHED_CORE 14 0) F.SCHED_CORE_quantum = 5 ∧ coreClocked s 112 = true) ∧
    ([none, some 8].all (fun q =>
      let s := ((twoBanks 7).updCluster 14 (fun k => { k with decide_ := [(0, 1)] })).updBank 112 1 (fun b => { b with slept := q })
      decide ((s.cluster 14).decide_.find? (fun p => decide (p.1 = 112 % 8)) = some (112 % 8, 1)) && !pairBlocked s 112 && coreClocked s 112 && (s.core 112).move.isNone &&
        decide ((s.bank 112 0).thread = some 0) && decide ((s.bank 112 1).thread = some 1) && decide (runBank (s.core 112) = some 0) &&
        (q.isNone || decide ((s.setF (thB 14 1) F.SCHED_THR_B_pend 8).f (thB 14 1) F.SCHED_THR_B_pend &&& 8 ≠ 0))) = true) ∧
    (let s := wit (fun b => { b with waitev := some 8 })
     (s.bank 112 0).thread = some 0 ∧ (s.bank 112 0).psw.fast = false ∧ s.f (thB 14 0) F.SCHED_THR_B_pend &&& 8 = 0 ∧
       (s.setF (thB 14 0) F.SCHED_THR_B_pend 8).f (thB 14 0) F.SCHED_THR_B_pend &&& 8 ≠ 0) ∧
    (let s := wit (fun b => { b with waitev := some 0xFFFF })
     2 ≤ (s.bank 112 0).psw.pl.toNat ∧ (s.bank 112 0).psw.fast = false ∧ (s.core 112).move = none) ∧
    ([3, 1].all (fun p => let s := (twoBanks p).updBank 112 0 (fun b => { b with waitev := some 0 })
      decide (runBank (s.core 112) = some 0) && tenantRuns s (clusterHalf 14) (s.bank 112 0).tenant && (s.bank 112 0).slept.isNone && (s.bank 112 1).slept.isNone &&
        decide ((List.range 8).filter (fun q => decide (q ≠ 0) && decide ((s.bank 112 q).st = .ready) && selectable s 112 q) = [1]) &&
        (decide (p = 1) == decide (bankPrio s 112 1 < bankPrio s 112 0))) = true) := by
  decide +kernel

/-- Memory with the tenant table, a stage 2 that maps the first GiB, and a lower folio whose link names an upper one. -/
def folioMem : List Host.Cell := [(0, 1), (1, 0x20), (0x2000, 1), (0x2001, 0x30), (0x3000, 0x7B), (0x10002, 2)]

/-- A sequence of core 112 on its bank 1. -/
def seqAt (row w : Nat) (v n : Option Nat) : Move := { bank := 1, victim := v, next := n, w := w, row := row, begun := true }

/-- Core 112 with DRAM, a sequence under way, thread 1 READY-OUT, and thread 2, where it is a victim, in bank 1. -/
def moving (mem : List Host.Cell) (m : Option Move) (b : Bank) : State :=
  { ((((wmem id id).setF (thB 14 1) F.SCHED_THR_B_state 2).setF (thA 14 1) F.SCHED_THR_A_folio 0x400).setBank 112 1 b).updCore 112 (fun k => { k with move := m })
    with mem := mem }

/-- A bank of thread 2 with its folio at 0x10000. -/
def victimBank : Bank := { Bank.reset 1 with st := .ready, thread := some 2, folio := 0x10000 }

/-- ThreadsMove: a sequence that may start; each row of a load, of folios that can and cannot be read; each row of a save, that succeeds and fails; a
sequence under a fast-class entry; a frozen bank; an EMPTY bank 7. -/
theorem wit_threadsMove :
    (let s := moving folioMem none (Bank.reset 1)
     (decide ((nextOut s 112).isSome) && (nextOut s 112).all (fun m => m.victim.isNone) && !pairBlocked s 112 && domOn s 112 && coreClocked s 112 && !(s.core 112).fastRun) = true) ∧
    ([true, false].all (fun q =>
      let s := moving (if q then folioMem else []) (some (seqAt 2 0 none (some 1))) (Bank.reset 1)
      let w := s.landAt 112 0
      decide (s.f (thB 14 1) F.SCHED_THR_B_state = 2) && decide ((s.bank 112 1).st = .empty) && ((fReadLines w 112 1 0 5 0x10040).isSome == q) &&
        ((fRead w 112 1 0 0x10000).isSome == q)) = true) ∧
    ([true, false].all (fun q =>
      let m := { seqAt 3 0 none (some 1) with lo := List.replicate 40 0 ++ [0x20000] }
      let s := moving (if q then folioMem else []) (some m) (Bank.reset 1)
      ((fReadLines (s.landAt 112 0) 112 1 0 7 ((m.lo.getD 40 0).toNat + 0x40)).isSome == q) && (mget {} (s.cluster 14).parked 1).slept.isNone) = true) ∧
    ([(0, true), (1, true), (0, false)].all (fun q =>
      let m := seqAt q.1 0 (some 2) (some 1)
      let s := moving (if q.2 then folioMem else []) (some m) victimBank
      decide ((s.bank 112 1).thread = some 2) && ((saveRow (s.landAt 112 0) 112 m).2 == q.2) && (s.bank 112 1).lost.isNone) = true) ∧
    (let s := { wmem (fun b => { b with st := .frozen, thread := some 1, folio := 0x10000 }) id with mem := folioMem }
     let r := saveLow (s.settle 112 0) 112 0 (BitVec.ofNat 64 (0 % 4 + 4 + (if (s.bank 112 0).psw.wres = 1 then 0 else 8)))
     (coreClocked s 112 && (s.bank 112 0).loads.isEmpty && r.2 && (saveHigh r.1 112 0).2) = true) ∧
    ((State.reset.bank 112 7).st = .empty ∧ (State.reset.core 112).move = none ∧ coreClocked State.reset 112 = true) := by decide +kernel

/-! ### The units -/

/-- Senders: level M of the Closed world, level P of the Open world, and the debug port. -/
def agM : Agent := { closed := true, pl := 3 }
def agP : Agent := { pl := 2 }

/-- The state after reset with further domains ON and generators locked. -/
def lit (ds is : List Nat) : State :=
  is.foldl (fun s i => s.setF (R.CLK_ISL i) F.CLK_ISL_locked 1) (ds.foldl (fun s d => s.setF (R.PWR_DOM d) F.PWR_DOM_state 2) State.reset)

/-- `Written`, as a test. -/
def wr (s : State) (k : BlockKind) (a : Nat) (ag : Agent) : Bool := regRuns s a && writeAllowed k (a % 0x10000) ag

theorem written_of {s : State} {k : BlockKind} {a : Nat} {ag : Agent} (h : wr s k a ag = true) : Written s k a ag := by
  simp only [wr, Bool.and_eq_true] at h
  exact ⟨h.1, h.2⟩

/-- Monitors: the modes, snapshots with and without one pending, the tick, readouts of a core and of an island without counters, sampling, windows. -/
theorem wit_monitors :
    let s := State.reset
    ([wr s .pmu R.PMU_MODE agM, wr s .pmu R.PMU_SNAP agM, wr s .pmu R.PMU_RD agM, wr s .pmu (R.PMU_BWMAX 15) agM,
      decide (s.f R.PMU_SNAP F.PMU_SNAP_pend = 0), decide ((s.setF R.PMU_SNAP F.PMU_SNAP_pend 1).f R.PMU_SNAP F.PMU_SNAP_pend = 1),
      coreClocked s 112, decide ((s.setF (R.PMU_SREC0 112) F.PMU_SREC0_valid 1).f (R.PMU_SREC0 112) F.PMU_SREC0_valid = 1)].all id = true) ∧
    (let p : Pmu := { snap := some (4, 9), cnt := [(64 * 112 + 3, 5)], rd := some (112, 0), copy := (List.range 64).map (fun k => (k, 7)),
                      smp := [(112, { hits := [{ bank := some 0, at_ := 0 }] })], recs := [(112, [(1, 2)])],
                      bw := [(15, { set := 1, on_ := true, bytes := 5, edge := 9 })], moved := [R.PMU_SMP 112] }
     let z : State := { s with pmu := p, ref := 9 }.updCore 112 (fun k => { k with cyc := 4 })
     [decide (z.pmu.snap = some (4, 9)), decide (domState z 112 ≠ 0), decide ((z.pmu.cnt.map (·.1)).Nodup), (mget {} z.pmu.smp 112).hits.length == 1,
      decide (4 ≤ (z.core 112).cyc), (mget [] z.pmu.recs 112).length == 1, decide (fld (mget ({} : BwMon) z.pmu.bw 15).set 0 2 ≠ 0),
      (findReg (R.PMU_SMP 112)).isSome].all id = true) := by decide +kernel

/-- TraceLedger: an encoder started and stopped, a trigger, chunks, the memory sink, its error, the Ledger's enabling and end, halts. -/
theorem wit_traceLedger :
    let s := lit [217] [203]
    ([domOn s 217, wr s .trc (R.TRC_ENC 127) agM, wr s .trc R.TRC_CTL agM, wr s .trc R.TRC_LOST agM, wr s .trc R.TRC_HCMD agM,
      decide (s.f (R.TRC_ENC 127) F.TRC_ENC_en = 0), decide ((s.setF (R.TRC_ENC 127) F.TRC_ENC_en 1).f (R.TRC_ENC 127) F.TRC_ENC_en = 1),
      (List.range 128).all (fun d => decide (s.f (R.TRC_ENC d) F.TRC_ENC_evtrig = 0))].all id = true) ∧
    (let z : State := { s with ref := 2, encs := [(112, { buf := [1] })] }
     (decide ((z.enc 112).lastAt + 2 ≤ z.ref) && !(z.enc 112).buf.isEmpty) = true) ∧
    (let z : State := { s.setF R.TRC_CTL F.TRC_CTL_en 1 with chunks := [{ src := 112, prio := 1, bytes := [1] }] }
     (decide (z.f R.TRC_CTL F.TRC_CTL_en = 1) && decide (1 + 2 + z.f R.TRC_CTL F.TRC_CTL_reserve * (3 - z.f (R.TRC_SRC 112) F.TRC_SRC_prio) * 1024 ≤ z.ledger.free)) = true) ∧
    (let z : State := { (((s.setF R.TRC_CTL F.TRC_CTL_en 1).setF R.TRC_CTL F.TRC_CTL_sink 1).setF R.TRC_MSIZE F.TRC_MSIZE_log2 16).setRouter 29
                 { map := { populated := 0x4000000000 } } with ledger := { out := List.replicate 64 1 } }
     (decide (z.ledger.out.length = 64) && z.inbox.isEmpty && !z.ledger.stopped && decide (z.f R.TRC_CTL F.TRC_CTL_en = 1) && decide (z.f R.TRC_CTL F.TRC_CTL_sink = 1) && decide (z.f R.TRC_MWP F.TRC_MWP_offset + 64 < 2 ^ z.f R.TRC_MSIZE F.TRC_MSIZE_log2) &&
       !decodeFails (z.router 29).map false true (z.f R.TRC_MBASE F.TRC_MBASE_base * 4096)) = true) ∧
    (let z : State := { s with ledger := { sent := [(1, 0)] }, ref := 200000 }
     (z.ledger.sent.all (fun x => decide (x.2 ≤ z.ref)) && z.inbox.isEmpty) = true) ∧
    (let z : State := (s.setF R.TRC_STAT F.TRC_STAT_busy 1).setF R.TRC_CTL F.TRC_CTL_sink 2
     (decide (z.f R.TRC_STAT F.TRC_STAT_busy = 1) && z.ledger.merge.isEmpty && z.ledger.out.isEmpty && decide (z.f R.TRC_CTL F.TRC_CTL_sink = 2)) = true) ∧
    (decide ((s.setF R.TRC_MSIZE F.TRC_MSIZE_log2 15).f R.TRC_MSIZE F.TRC_MSIZE_log2 < 16) && decide ((s.setF R.TRC_CTL F.TRC_CTL_en 1).f R.TRC_CTL F.TRC_CTL_en = 1)) = true ∧
    (let z : State := s.setF (R.TRC_DCFG (thrCore s 14 0)) F.TRC_DCFG_mode 1
     (decide (z.f (R.TRC_DCFG (thrCore z 14 0)) F.TRC_DCFG_mode = 1) && decide (z.f (R.SCHED_THR_B 14 0) F.SCHED_THR_B_state = 5) &&
       decide (s.f (R.TRC_DCFG (thrCore s 14 0)) F.TRC_DCFG_mode = 0) && ((s.updCluster 14 (fun k => { k with held := [0] })).cluster 14).held.contains 0) = true) := by
  decide +kernel

/-- KeysAndWorlds: the commands are allowed, and each condition of the key store and of the worlds holds somewhere. -/
theorem wit_keysAndWorlds :
    let s := State.reset
    let sec := fun (x : Sec) => { s with sec := x }
    ([wr s .seccw R.SEC_CW_KSCMD agM, wr s .seccw R.SEC_CW_MREXT agM, wr s .seccw R.SEC_CW_CTL agM, wr s .seccw R.SEC_CW_COCTL agM,
      wr s .seccw R.SEC_CW_WDT agM, wr s .sec R.SEC_CTL agP].all id = true) ∧
    ([decide (s.sec.life = 0), decide ((sec { life := 1 }).sec.life = 1), decide (rootHash s 3 = 0), decide (rootHash (sec { roots := [(3, 1)] }) 3 ≠ 0),
      rootLive (sec { roots := [(2, 1), (3, 1)] }) 2, (List.range 4).all (fun i => i == 3 || !rootLive (sec { roots := [(3, 1)] }) i),
      (sec { dus := some 1, roots := [(3, 1)] }).sec.dus.isSome, decide (ksNat s 0 1 = 0), decide (ksNat s 0 1 < (sec { rollback := 1 }).sec.rollback),
      (sec { dbgkey := some 1 }).sec.dbgkey.isSome, decide (s.f R.SEC_STAT F.SEC_STAT_trng_fail = 0),
      decide ((s.setF R.SEC_STAT F.SEC_STAT_trng_fail 1).f R.SEC_STAT F.SEC_STAT_trng_fail = 1),
      (let z : State := s.setF R.SEC_CW_KSDST F.SEC_CW_KSDST_pa (0xF8000100000 / 64)
       inSram (z.f R.SEC_CW_KSDST F.SEC_CW_KSDST_pa * 64))].all id = true) ∧
    ([decide (s.f R.SEC_CW_CTL F.SEC_CW_CTL_bootlock = 0), decide ((s.setF R.SEC_CW_CTL F.SEC_CW_CTL_bootlock 1).f R.SEC_CW_CTL F.SEC_CW_CTL_bootlock = 1),
      decide ((s.setF (R.SEC_CW_CO 0) F.SEC_CW_CO_v 1).f (R.SEC_CW_CO 0) F.SEC_CW_CO_v = 1), carveOk s (carveOuts s),
      (let z : State := s.setF (R.SEC_CW_CO 0) F.SEC_CW_CO_v 1
       !carveOk z (carveOuts z)), decide (s.f R.SEC_CW_COCTL F.SEC_CW_COCTL_lock = 0), !s.sec.lockReq,
      decide (s.f R.SEC_CW_WDT F.SEC_CW_WDT_arm = 0), decide ((s.setF R.SEC_CW_WDT F.SEC_CW_WDT_arm 1).f R.SEC_CW_WDT F.SEC_CW_WDT_arm = 1),
      decide ((s.setF R.SEC_STAT F.SEC_STAT_cw_state 1).f R.SEC_STAT F.SEC_STAT_cw_state = 1)].all id = true) ∧
    (let z : State := { (s.setF R.SEC_STAT F.SEC_STAT_cw_state 2).setF R.SEC_CW_COCTL F.SEC_CW_COCTL_lock 1 with cores := [(112, { banks := [] })] }
     [decide (z.f R.SEC_STAT F.SEC_STAT_cw_state = 2), (closedBanks z).isEmpty, decide (z.f (R.SEC_CW_CO 0) F.SEC_CW_CO_base * 2 ^ 24 + z.f R.SEC_CW_GLEN F.SEC_CW_GLEN_len ≤ 2 ^ 41),
      decide (z.f R.SEC_CW_COCTL F.SEC_CW_COCTL_lock = 1)].all id = true) := by decide +kernel

/-- CryptoJobsAndGrants: jobs with a key of their own and with a slot that is not released, their ends, and the TRNG both ways. -/
theorem wit_cryptoJobs :
    let s := State.reset
    let job := fun (x : Job) => { s with sec := { jobs := [(3, x)] }, map := { populated := 0x4000000000 } }
    [wr s .sec (R.SEC_JOB_CMD 3) agP, wr s .sec R.SEC_DBG_CMD agP, wr s .sec R.SEC_DBG_CTL agP, domOn s 216,
      !jobReadBad (job { op := 1, len := 64 }) { op := 1, len := 64 }, jobReadBad (job { op := 6, src := 0x80000000000, len := 64 }) { op := 6, src := 0x80000000000, len := 64 },
      ((job { op := 7 }).sec.jobs.find? (fun p => decide (p.1 = 3))).isSome, decide (s.f R.SEC_STAT F.SEC_STAT_trng_fail = 0),
      decide ((s.setF R.SEC_STAT F.SEC_STAT_trng_fail 1).f R.SEC_STAT F.SEC_STAT_trng_fail = 1), s.sec.slots.all (fun p => decide (p.2.consumer ≠ some 43))].all id = true := by
  decide +kernel

/-- A slice 0 that runs and holds line 0x40 and directory `d`. -/
def home (d : List DirLine) (t : List SliceTxn) : State :=
  ((lit [144] [144]).setF (R.CACHE_CTL 16) F.CACHE_CTL_en 1).setSlice 0 { lines := [{ line := 0x40, data := 5 }], dir := d, txns := t }

/-- HomeSlices: a line with no entry, one with one sharer, one with an owner; a read under way, whose data come and which is overdue. -/
theorem wit_homeSlices :
    let s := home [] []
    [unitRuns s (sliceDom 0) 144, (s.slice 0).queue.isEmpty, (s.slice 0).txns.isEmpty, !earlierWaits s { net := 0, typ := 0, src := clusterUnit 14, pa := 0x1000 },
      (txnOf s 0 0x40).isNone, (sliceLine s 0 0x40).isSome,
      decide (fromCluster { net := 0, typ := 0, src := clusterUnit 14, pa := 0x1000 } = some 14), (s.slice 0).dir.isEmpty,
      decide (((home [{ line := 0x40, holders := [14] }] []).slice 0).dir.find? (fun d => decide (d.line = 0x40)) = some { line := 0x40, holders := [14], owner := none }),
      decide (((home [{ line := 0x40, holders := [14], owner := some 14 }] []).slice 0).dir.find? (fun d => decide (d.line = 0x40)) =
        some { line := 0x40, holders := [14], owner := some 14 }),
      (let t : SliceTxn := { line := 0x40, req := { net := 0, typ := 7, pa := 0x1000, size := 3 }, rd := true }
       let z : State := { home [] [t] with ref := 200000 }
       decide (txnOf z 0 0x40 = some t) && decide ((fromCluster { net := 3, typ := 0, src := dramUnit 0, pa := 0x1000 }).isNone) &&
         decide (t.late ≤ z.ref))].all id = true := by decide +kernel

/-- A DRAM channel 0 that runs, initialised. -/
def dram (x : Chan) : State := ((lit [160] [190]).setF (R.DMC_INIT 0) F.DMC_INIT_done 1).setChan 0 x

/-- DramChannels: an unregulated and a regulated group, requests in queue, a table that passes and one that does not, initialisation. -/
theorem wit_dramChannels :
    let s := dram {}
    let p : Pkt := { net := 0, typ := 0xC, src := sliceUnit 0, dst := dramUnit 0, pa := 0x1000 }
    ([unitRuns s (dramDom 0) 190, decide (s.f (R.DMC_INIT 0) F.DMC_INIT_done = 1), decide (s.f (R.DMC_REG 0 (regGroup s 0 p)) F.DMC_REG_en = 0),
      (let z : State := (dram { held := [(0, p)], tokens := [(0, 64)] }).setF (R.DMC_REG 0 0) F.DMC_REG_en 1
       decide (z.f (R.DMC_REG 0 0) F.DMC_REG_en = 1) && decide (64 ≤ mget 0 (z.chan 0).tokens 0) && decide ((z.chan 0).held = [(0, p)])),
      (let z : State := dram { dq := [p] }
       decide ((z.chan 0).dq = [p]) && (z.chan 0).aq.isEmpty && (z.chan 0).wq.isEmpty && (z.chan 0).deferred.isEmpty),
      !((dram { wq := [p] }).chan 0).wq.isEmpty, decide (0 < (s.chan 0).ranks), !((dram { lecc := false }).chan 0).lecc].all id = true) ∧
    (let init : State := (lit ((List.range 8).map (160 + ·)) ((List.range 8).map (190 + ·)))
     let full : State := (List.range 8).foldl (fun z m => z.setF (R.DMC_INIT m) F.DMC_INIT_done 1) init
     [wr full .dmc (R.DMC_REGCTL 0) agP, decide (full.f (R.DMC_REGCTL 0) F.DMC_REGCTL_commit = 0), tableOk full, !tableOk init,
      mapEverywhere full, decide ((full.setF (R.DMC_REGCTL 0) F.DMC_REGCTL_commit 1).f (R.DMC_REGCTL 0) F.DMC_REGCTL_commit = 1),
      wr init .dmc (R.DMC_INIT 7) agP, wr init .dmc (R.DMC_ERR 7) agP, decide (init.f (R.DMC_INIT 7) F.DMC_INIT_done = 0), !(init.chan 7).initing, initCheck init 7,
      !initCheck (init.setF (R.DMC_CFG 7) F.DMC_CFG_row_bits 13) 7,
      ((init.setChan 7 { initing := true }).chan 7).initing].all id = true) := by decide +kernel

/-- Cluster 14 with an L2 of its own, and core 112. -/
def cl14 (k : Cluster) (g : Core → Core) : State := (wmem id g).setCluster 14 k

/-- ClusterCaches: lookups in their turn with and without the L2, a fill and a grant on their way, an operation acknowledged, an eviction answered. -/
theorem wit_clusterCaches :
    let m : Mshr := { line := 0x40, write := false, ports := [1], lvl := 1 }
    let ln : CLine := { line := 0x40, st := .e, data := 5 }
    (let z : State := cl14 { l2 := [ln] } (fun k => { k with mshr := [m] })
     [coreClocked z 112, l2On z 14, decide (findLine (z.cluster 14).l2 0x40 = some ln), lookupTurn z 14 (2 * (112 % 8) + 1) 0x40 false,
      decide ((z.core 112).mshr.find? (fun m => decide (m.line = 0x40) && !m.asked) = some m)].all id = true) ∧
    ([true, false].all (fun w => let z : State := (cl14 {} (fun k => { k with mshr := [{ m with write := w }] })).setF (R.CACHE_CTL 14) F.CACHE_CTL_en 0
     [!l2On z 14, (z.cluster 14).evq.isEmpty, (l2Mshr z 14 0x40).isNone, decide ((z.cluster 14).mshr.length < 48),
      lookupTurn z 14 (2 * (112 % 8) + 1) 0x40 false].all id) = true) ∧
    (let w : Mshr := { m with asked := true, way := some 2 }
     let z : State := cl14 { mshr := [w] } (fun k => { k with mshr := [w] })
     [decide (l2Mshr z 14 0x40 = some w), (z.core 112).wb.isEmpty, (z.core 112).l1d.isEmpty, (z.core 112).pfl.isEmpty, (z.core 112).prefs.isEmpty,
      (List.range 8).all (fun bi => (z.bank 112 bi).loads.isEmpty && (z.bank 112 bi).stc.isNone), l1dOn z 112, l2On z 14, (z.cluster 14).l2.isEmpty].all id = true) ∧
    (let w : Mshr := { m with write := true, asked := true, ports := [], wports := [1] }
     let z : State := cl14 { mshr := [w], l2 := [{ ln with st := .s }] } id
     [decide (l2Mshr z 14 0x40 = some w), decide (findLine (z.cluster 14).l2 0x40 = some { ln with st := .s }), (l1Modified z (clusterCores 14) 0x40).isNone,
      (deferring z (otherCores 112) 0x40).isEmpty, (z.cluster 14).evq.isEmpty, l1dOn z 112].all id = true) ∧
    (let p : Pkt := { net := 1, typ := 0, dst := clusterUnit 14, tag := 5 }
     let z : State := { wmem id (waits .clean true 0x1000) with inbox := [p] }
     [decide (findAns z 112 5 = some p), decide (ansOf p = some (.data 0)),
      ((z.core 112).wb.find? (fun e => decide (e.bank = 0) && decide (e.seq = 3) && e.sent && (decide (e.kind = .clean) || decide (e.kind = .inval)))).isSome].all id = true) ∧
    (let z : State := cl14 { evq := [{ line := 0x40, dirty := true, data := 5 }], mshr := [{ m with line := 0, waitWb := true }] } id
     [clusterRuns z 14, decide ((z.cluster 14).evq.length = 1), (z.cluster 14).mshr.all (fun n => decide (n.line = 0))].all id = true) := by decide +kernel

/-- ClusterCaches, snoops and whole-cache maintenance: a line held by the L2 alone; a cluster's and a slice's blocks; a slice that is done. -/
theorem wit_snoopsAndMaintenance :
    (let ln : CLine := { line := 0x40, st := .e, data := 5 }
     let p : Pkt := { net := 2, typ := 0, pa := 0x1000 }
     let z : State := cl14 { l2 := [ln], snoops := [p] } id
     [clusterRuns z 14, l2On z 14, decide (findLine (z.cluster 14).l2 0x40 = some ln), (clusterCores 14).all (fun c => (findLine (z.core c).l1d 0x40).isNone),
      (z.cluster 14).evq.isEmpty, !fillOnWay z 14 0x40, (deferring z (clusterCores 14) 0x40).isEmpty, (z.cluster 14).snoops.contains p].all id = true) ∧
    [wr (wmem id id) .cache (R.CACHE_MAINT 14) agM, clusterRuns (wmem id id) 14, decide ((wmem id id).f (R.CACHE_STAT 14) F.CACHE_STAT_busy = 0)].all id = true ∧
    (let z : State := (home [] []).setSlice 0 { lines := [{ line := 0x40, data := 5 }], maint := some { op := 2, level := 0, core := 0, ways := 0x3FFF } }
     [(z.slice 0).maint.isSome, (z.slice 0).maint.all (fun m => m.wait.isEmpty && decide (m.level = 0)), (z.slice 0).lines.all (fun y => !y.dirty)].all id = true) ∧
    (let z : State := home [] []
     [wr z .cache (R.CACHE_MAINT 16) agP, decide (z.f (R.CACHE_STAT 16) F.CACHE_STAT_busy = 0), sliceOn z 0, (z.slice 0).txns.isEmpty,
      decide (((z.slice 0).lines.map (·.line)).Nodup)].all id = true) := by decide +kernel

/-- A router 14 with packet `p` at the head of one of its inputs. -/
def atRouter (net d vc : Nat) (p : Pkt) (x : Router) : State := State.reset.setRouter 14 (x.setBuf net d vc [p])

/-- Mesh: a head at its router, one that passes on, a request that its router cannot decode, a slot, the escape channel, links. -/
theorem wit_mesh :
    let p : Pkt := { net := 0, typ := 0, src := 4 * 14, dst := 4 * 14 + 1, pa := 0x1000 }
    let far : Pkt := { p with dst := 4 * 16 + 1, net := 1 }
    let s := State.reset
    ([(let z : State := atRouter 0 1 0 p {}
       decide ((z.router 14).buf 0 1 0 = [p]) && ejectRoom z p && (mget [] (z.router 14).backlog (bufIx 0 1 0)).isEmpty && routerRuns z 14 && linkUp z 14 1 && !reservedType p && decide (z.f (R.NOC_PRB_SEL 14 0) F.NOC_PRB_SEL_en = 0)),
      (let z : State := atRouter 1 4 0 far {}
       linkUp z 14 4 && !fenced z 14 (xyOut 14 far.dst) && decide (flits far ≤ 4 - usedOf z 14 1 (xyOut 14 far.dst) 0) && decide (far.dst / 4 ≠ 14)),
      (let z : State := atRouter 0 4 0 p {}
       decodeFails (z.router 14).map p.closed false p.pa && linkUp z 14 4),
      (let z : State := s.setRouter 14 { slots := [(59, 0x10)], waiting := [(0, [p])] }
       decide (slotGroup z 14 0 59 = some 0) && decide (mget 0 (z.router 14).admitted 0 ≤ 60 * z.ref + 59) && decide (groupOf z 14 p.tenant p.closed = 0)),
      (let z : State := atRouter 1 4 1 far { used := [(bufIx 1 1 1, 4), (bufIx 1 1 2, 4)], starved := [(bufIx 1 4 1, 1)] }
       decide (mget 0 (z.router 14).starved (bufIx 1 4 1) ≠ 0) && escapeGranted z 14 1 (xyOut 14 far.dst) 4 && !fenced z 14 (xyOut 14 far.dst) && decide (flits far + usedOf z 14 1 1 3 ≤ 4) &&
         (avail (rx 14) (ry 14) (rx 16) (ry 16) (rx 14)).all (fun o => decide (4 < usedOf z 14 1 o 1 + flits far) && decide (4 < usedOf z 14 1 o 2 + flits far))),
      (let z : State := { s with ref := 4 }
       routerRuns z 14 && hasPort 14 1 && linkUp z 14 1 && decide (mget 0 (z.router 14).lastSent 4 < z.ref) && decide (mget 0 (z.router 14).lastWord 1 + 4 ≤ z.ref)),
      wr s .noc (R.NOC_LINK 14) agP, wr s .noc (R.NOC_ERR 14) agP].all id = true) := by decide +kernel

/-- InterruptDistributors: a pin high and low, notices, a software level, entries of each world, a sleeping core with a reason to wake. -/
theorem wit_interruptDistributors :
    let s := State.reset
    let a := icuSrc 896
    let high : State := { s with icu := { pins := [0] }, notices := [(true, 896), (false, 896)] }
    [lineLevel high 896, decide (high.f a F.ICU_SRC_ev = 0), decide (high.f a F.ICU_SRC_pend = 0), !cutOff high 896,
      (let z : State := (s.setF a F.ICU_SRC_pend 1).setF a F.ICU_SRC_en 1
       !lineLevel z 896 && decide (z.f a F.ICU_SRC_pend = 1) && decide (z.f a F.ICU_SRC_en = 1) && decide (z.f a F.ICU_SRC_act = 0)),
      coreClocked s 112, wr s .icu (R.ICU_SWL 0) agP, decide (srcOwner (fld 912 0 10) = 0) || decide (srcOwner (fld 912 0 10) = 1),
      wr s .icu (R.ICU_SRC 0 100) agP, icuHas 0 100 || icuHas 1 100, decide (s.f (R.ICU_SRC 0 100) F.ICU_SRC_lvl ≠ 3),
      (let z : State := (s.setF (R.PWR_CORE 112) F.PWR_CORE_asleep 1).updCluster 14 (fun k => { k with decide_ := [(0, 1)] })
       decide (z.f (R.PWR_CORE 112) F.PWR_CORE_asleep = 1) && wakeWanted z 112)].all id = true := by decide +kernel

/-- A command takes a fault with each action: what TakesFault asks of its state. -/
def actionsOk (h code : Nat) : Bool :=
  [0, 1, 2, 3].all (fun act =>
    let s := (State.reset.setF (R.SAFE_FMAP h code) F.SAFE_FMAP_act act).setF (R.SAFE_FMAP h code) F.SAFE_FMAP_thr 0
    decide (s.f (R.SAFE_FMAP h code) F.SAFE_FMAP_thr = 0) && decide (s.f (R.SAFE_FMAP h code) F.SAFE_FMAP_act = act) &&
      decide (s.f (R.SAFE_STAT h) F.SAFE_STAT_level < 2) && decide (s.f (R.SAFE_STAT h) F.SAFE_STAT_cutfence = 0))

/-- SafetyAnchors, faults: each action of each code that the statement uses, and when each fault is due. -/
theorem wit_anchorFaults :
    ([1, 7, 5, 6, 3, 0x14, 4].all (actionsOk 0) && actionsOk 1 63) = true ∧
    (farFrom 400 (400 * 2) ∧ farFrom 400 (16 * 50) ∧ ¬(farFrom (16 * 50) 400 ∧ farFrom (16 * 50) (400 * 2)) ∧ ¬(farFrom 400 (400 * 1) ∧ farFrom 400 (16 * 25))) ∧
    (let s := State.reset.setF (R.SAFE_TIME 0) F.SAFE_TIME_ticks 80000
     [decide ((s.anchor 0).peerAt + 80000 ≤ s.f (R.SAFE_TIME 0) F.SAFE_TIME_ticks),
      (let z : State := s.setF (R.SAFE_WDT 0) F.SAFE_WDT_arm 1
       decide (z.f (R.SAFE_WDT 0) F.SAFE_WDT_arm = 1) && decide ((z.anchor 0).kickAt + z.f (R.SAFE_WDT 0) F.SAFE_WDT_period * 256 ≤ z.f (R.SAFE_TIME 0) F.SAFE_TIME_ticks)),
      wr (s.setF R.PMU_MODE F.PMU_MODE_mode 3) .safe (R.SAFE_CTL 0) agM, decide ((s.setF R.PMU_MODE F.PMU_MODE_mode 3).f R.PMU_MODE F.PMU_MODE_mode = 3),
      decide (s.f (R.SAFE_CFG 0) F.SAFE_CFG_tmax < 255)].all id = true) := by
  refine ⟨by decide +kernel, ?_, by decide +kernel⟩
  unfold farFrom
  decide

/-- SafetyAnchors, rules: heartbeats, a split and its end, a rejoin refused and accepted, with links up and down, the watchdog, the lock. -/
theorem wit_anchorRules :
    let s := State.reset.setF (R.SAFE_TIME 0) F.SAFE_TIME_ticks 80000
    [decide ((s.anchor 0).beatAt + 400 ≤ s.f (R.SAFE_TIME 0) F.SAFE_TIME_ticks), decide (s.f (R.SAFE_STAT 0) F.SAFE_STAT_level = 0),
      decide ((s.setF (R.SAFE_STAT 0) F.SAFE_STAT_split 1).f (R.SAFE_STAT 0) F.SAFE_STAT_split = 1), decide (s.f (R.SAFE_STAT 0) F.SAFE_STAT_cutfence = 0),
      decide ((s.setAnchor 0 { drain := some 5 }).anchor 0 = { drain := some 5 }), decide ((s.setF (R.SAFE_STAT 0) F.SAFE_STAT_level 3).f (R.SAFE_STAT 0) F.SAFE_STAT_level = 3),
      wr s .safe (R.SAFE_REJOIN 0) agP, decide (rejoinReason s 0 ≠ 0),
      (let z : State := (s.setF (R.SAFE_STAT 0) F.SAFE_STAT_peer 1).setF (R.SAFE_STAT 0) F.SAFE_STAT_level 1
       decide (rejoinReason z 0 = 0)), cutUp s, !cutUp (s.setReg (R.NOC_LINK 2) 0),
      wr s .safe (R.SAFE_WDT 0) agP, decide (s.f (R.SAFE_WDT 0) F.SAFE_WDT_arm = 0), decide ((s.anchor 0).kicks = 0),
      wr s .safe (R.SAFE_CTL 0) agP, decide (s.f (R.SAFE_CTL 0) F.SAFE_CTL_lock = 0), wr s .safe (R.SAFE_FMAP 0 63) agP, wr s .safe (R.SAFE_SOUT 0) agP].all id = true := by
  decide +kernel

/-- SafetyAnchors, pairs: one that may form, one refused, one formed that may be dissolved, the end of its resets, a mismatch. -/
theorem wit_lockstepPairs :
    let s := State.reset
    let a := pairReg (8 * 0)
    [wr s .safe a agP, decide (formReason s 0 1 = 0), decide (formReason s 14 0 ≠ 0), (s.core 2).wb.isEmpty && (s.core 3).wb.isEmpty,
      decide (dissolveReason s 14 0 ≠ 0), decide (dissolveReason (s.setF a F.SAFE_PAIR_formed 2) 0 1 = 0),
      (let z : State := { s.setCore 2 { cyc := 64 } with hub := { pairs := [(1, (3, 0))] } }
       decide (z.hub.pairs.find? (fun p => decide (p.1 = 1)) = some (1, 3, 0)) && decide (0 + 64 ≤ (z.core 2).cyc)),
      (let z : State := s.setF a F.SAFE_PAIR_formed 2
       (z.f a F.SAFE_PAIR_formed).testBit 1 && !(z.f a F.SAFE_PAIR_faulted).testBit 1)].all id = true := by decide +kernel

/-! ### Registers, the debug port, the boot, power and resets -/

/-- RegisterWrites: two registers that take a write plainly, one refused to its sender, one ignored, a misaligned write, a place without a unit. -/
theorem wit_registerWrites :
    let s := lit [217] [203]
    [(match findReg (R.MEQ_PTENT 0) with
      | some r => r.d.bytes == 8 && !writeIgnored (lit [168] [198]) agM r && !writeTaken r 5 && writeAllowed r.kind r.off agM && regRuns (lit [168] [198]) (R.MEQ_PTENT 0)
      | none => false),
      (match findReg R.PMU_MODE with
      | some r => r.d.bytes == 4 && !writeAllowed r.kind r.off { pl := 0 } && regRuns s R.PMU_MODE
      | none => false),
      (match findReg (R.PWR_CWHOLD 0) with
      | some r => r.d.bytes == 4 && writeIgnored s agP r && regRuns s (R.PWR_CWHOLD 0) && R.PWR_CWHOLD 0 % 8 == 0
      | none => false),
      decide ((5 : Nat) % 4 ≠ 0), !regRuns s (R.DMC_REGCTL 3), (findBlock 0x3FFFFFFF).isNone].all id = true := by decide +kernel

/-- A register whose value and effect are those of its fields alone. -/
theorem wit_plainWrite : ∃ r, findReg (R.MEQ_PTENT 0) = some r ∧ r.kind = .meqp ∧
    ∀ (ag : Agent) (s : State) (old w : Word), writeValue s ag r old w = w ∧ writeEffect ag r old w s = s := by
  have h : ((findReg (R.MEQ_PTENT 0)).map (fun r => decide (r.kind = .meqp))) = some true := by decide +kernel
  rcases hr : findReg (R.MEQ_PTENT 0) with _ | r
  · rw [hr] at h; cases h
  · rw [hr] at h
    have k : r.kind = .meqp := by simpa using h
    exact ⟨r, rfl, k, fun ag s old w => by simp [writeValue, writeEffect, k]⟩

/-- Invalidations: a free, a busy and a refused MMU_INV, one under way at a core, at a sleeping core and at a controller, by a broadcast that has reached
its unit and that has not, one that has ended. -/
theorem wit_invalidations :
    let s := lit [113, 142, 210] [113]
    let one := fun (l : List Nat) => { s with invals := [{ by_ := 112, v := 0, todo := l }] }
    [coreClocked s 112, wr s .mmu (R.MMU_INV 112) agM, decide (s.f (R.MMU_INVS 112) F.MMU_INVS_busy = 0),
      decide ((s.setF (R.MMU_INVS 112) F.MMU_INVS_busy 1).f (R.MMU_INVS 112) F.MMU_INVS_busy = 1), decide (fld (7 : Word) 0 3 = 7), decide (fld (6 : Word) 0 3 = 6),
      (let p : Pkt := { net := 2, typ := 4, src := clusterUnit 14, dst := clusterUnit 14, more := true, data := 8 }
       let i : Inval := { by_ := 112, v := 8, todo := [113, 128] }
       let z := { s with invals := [i], inbox := [p] }
       decide (invPkt z i (targetOf 113) = some p) && decide (invPkt z i (targetOf 128) = none)),
      decide (s.f (R.PWR_CORE 113) F.PWR_CORE_asleep = 0), (one [113]).invals == [{ by_ := 112, v := 0, todo := [113] }],
      decide ((s.setF (R.PWR_CORE 113) F.PWR_CORE_asleep 1).f (R.PWR_CORE 113) F.PWR_CORE_asleep = 1), domOn s (pcieDom 0), (one []).invals == [{ by_ := 112, v := 0, todo := [] }]].all
      id = true := by decide +kernel

/-- DebugPortAccess: operations allowed and not, of DRAM and of registers, a read and a write that have reached their unit, an answer
by each packet, and one that is late; a port without a clock. -/
theorem wit_debugPort :
    let s := { State.reset with map := { populated := 0x4000000000 } }
    let z : State := (s.setRouter 29 { map := { populated := 0x4000000000 } })
    let l : State := { z with sec := { life := 1 } }
    let d : State := { z with dbg := { busy := true, pa := 0xF0000000000 + R.PMU_MODE, lg := 2 } }
    let p : Pkt := { net := 1, typ := 3, dst := debugUnit, tag := 0 }
    let r : Pkt := { net := 0, typ := 0xA, src := debugUnit, dst := hubUnit, tag := 0, pa := 0xF0000000000 + R.PMU_MODE, size := 2 }
    [debugRuns s, !debugRuns (s.setF (R.PWR_DOM 217) F.PWR_DOM_state 2), decide (addrClass r.pa = .config), r.dst != debugUnit, regRuns s (r.pa - 0xF0000000000), !s.dbg.busy, authorised z 3, authorised z 1, !authorised l 3, !authorised l 1, decide (addrClass 0x1000 = .dram), decide (addrClass (0xF0000000000 + R.PMU_MODE) = .config),
      !decodeFails (z.router 29).map false true 0x1000, !decodeFails (z.router 29).map true false (0xF0000000000 + R.PMU_MODE), decodeFails (z.router 29).map false true 0x7FFFFFFF000,
      d.dbg.busy, d.inbox.isEmpty, regRuns d (d.dbg.pa - 0xF0000000000), decide (p.tag = d.dbg.tag && p.net = 1 && p.typ = 3),
      decide (d.dbg.late ≤ d.ref)].all id = true := by decide +kernel

/-- A header of one entry of type `ty` with destination `dst` and length `n` and its entry; a script record. -/
def hdrOf (mode ty dst n : Nat) : List Byte :=
  leBytes 4 0x4C544143 ++ leBytes 2 1 ++ leBytes 2 1 ++ leBytes 4 3 ++ leBytes 4 mode ++ List.replicate 0x50 0 ++
    leBytes 1 ty ++ leBytes 1 2 ++ leBytes 2 0 ++ leBytes 4 0x1000 ++ leBytes 4 n ++ leBytes 4 0 ++ leBytes 8 dst ++ List.replicate 40 0
def recOf (op pa v m : Nat) : List Byte := leBytes 8 (op * 2 ^ 44 + pa) ++ leBytes 4 v ++ leBytes 4 m

/-- BootSteps: the life cycle, the choice of a catalogue, its checks, the modes, images and script records, the monitor and the hand-over. What rests on a hash
or a signature that the spec leaves to other standards is not witnessed here. -/
theorem wit_bootSteps :
    let s := { State.reset with map := { populated := 0x4000000000 } }
    let h := fun (mode ty dst n : Nat) => hdrOf mode ty dst n
    let at_ := fun (y : Boot) => ({ s with boot := y } : State)
    let rec_ := fun (op pa v m : Nat) => at_ { stage := 7, script := recOf op pa v m, since := some 0 }
    let reg := 0xF0000000000 + R.PMU_MODE
    ([!cutFenced s 1, cutFenced (s.setRouter 3 { anchorFence := [0] }) 1, decide (s.boot.stage = 1), decide (s.sec.life ≠ 3), decide (s.boot.first = 0), s.boot.failed.isEmpty, magicOk (h 0 1 0 64), !magicOk [], decide (hdrFormat (h 0 1 0 64) = 1),
      decide (hdrN (h 0 1 0 64) = 1), decide (hdrFormat [] ≠ 1), decide (hdrMode (h 0 1 0 64) = 0), decide (hdrMode (h 3 1 0 64) = 3), decide (hdrMode (h 2 1 0 64) = 2),
      decide (hdrVersion (flashBytes (h 0 1 0 64) 0 0x60) = 3), (flashBytes (h 2 1 0 64) 0 0x60 == sub (h 2 1 0 64) 0 0x60)].all id = true) ∧
    ([(let c := catEntry (h 0 2 0x1000 64) 0
       decide (entType c = 2) && decide (entDest c = 0x1000) && decide (entLen c = 64) && decide (imageCheck s c = none)),
      decide (s.map.populated < entDest (catEntry (h 0 2 0x4000000000 64) 0) + 64), decide (entType (catEntry (h 0 4 0 64) 0) = 4),
      decide (16 * 0 + 16 ≤ (rec_ 1 reg 1 0).boot.script.length), decide (recOp (recOf 1 reg 1 0) = 1), scriptAddr (recAddr (recOf 1 reg 1 0)), !scriptAddr (recAddr (recOf 1 0x1000 1 0)),
      regRuns s (recAddr (recOf 1 reg 1 0) - 0xF0000000000), s.hub.unread.isEmpty, decide (recOp (recOf 3 0 9 0) = 3), decide (recOp (recOf 2 reg 0 0) = 2),
      (configRead s true reg 4 &&& 0) == 0, (configRead s true reg 4 &&& 0) != 1].all id = true) ∧
    ([(at_ { stage := 8, monitor := some (0x1000, 64, []) }).boot.monitor.isSome, decide (s.f (R.SEC_CW_CO 0) F.SEC_CW_CO_v = 0),
      (let z := (s.setF (R.SEC_CW_CO 0) F.SEC_CW_CO_v 1).setF (R.SEC_CW_CO 0) F.SEC_CW_CO_size 1
       decide (z.f (R.SEC_CW_CO 0) F.SEC_CW_CO_v = 1) && decide (64 ≤ z.f (R.SEC_CW_CO 0) F.SEC_CW_CO_size * 2 ^ 21)),
      ([({ net := 0, typ := 7, dst := xspiUnit } : Pkt)].all (fun p => decide (p.net = 0 ∧ p.typ = 7 ∧ p.dst = xspiUnit)))].all id = true) := by decide +kernel

/-- PowerDomains: an OFF and an ON domain, a sequence, a broken dependency, holds, retention. -/
theorem wit_powerDomains :
    let s := State.reset
    let m := (R.PWR_DOM 161)
    [wr s .pwr (R.PWR_DOM 113) agM, wr s .pwr (R.PWR_DOM 113) agP, decide (s.f (R.PWR_DOM 113) F.PWR_DOM_state = 0), s.hub.seqs.isEmpty, !inPair s 113,
      decide (s.f (R.PWR_DOM (128 + 0 / 8)) F.PWR_DOM_state ≠ 2), !depBreaks s 113 1, decide (s.f (R.PWR_DOM 112) F.PWR_DOM_state = 2), !depBreaks s 112 2, (heldTarget s 112).isNone,
      decide (112 / 8 = 142 - 128), (let z := s.setF (R.PWR_CWHOLD 3) F.PWR_CWHOLD_hold (2 ^ 16)
       cwHeld z false 112), decide (s.f R.SEC_CW_DENY F.SEC_CW_DENY_valid = 0), !depBreaks s 161 3, !depBreaks s 112 3,
      decide ((s.setF m F.PWR_DOM_state 2).f m F.PWR_DOM_state ≠ 0), (({ s with hub := { s.hub with seqs := [(113, { cmd := 1 })] } } : State).hub.seqs == [(113, { cmd := 1 })]),
      (List.range 8).all (fun b => decide ((s.bank 113 b).st = .empty)), (s.core 113).wb.isEmpty, (s.core 113).move.isNone,
      decide (vSteps (s.f (R.CLK_CORE 113) F.CLK_CORE_mult) + 5 ≤ s.f R.PWR_RAIL F.PWR_RAIL_cur), decide ((s.setF R.PWR_RAIL F.PWR_RAIL_cur 0).f R.PWR_RAIL F.PWR_RAIL_cur < 5),
      decide ((s.setF m F.PWR_DOM_state 4).f m F.PWR_DOM_state = 4), (({ s with inbox := [{ net := 0, typ := 7, dst := dramUnit 1 }] } : State).inbox.any (fun p => p.dst == dramUnit 1))].all id = true := by
  decide +kernel

/-- ClocksAndRail: frequencies asked for, steps of a change both ways and its end, the rail, gates, lock, sleep and wake. -/
theorem wit_clocksAndRail :
    let s := State.reset
    let a := R.CLK_CORE 112
    let idle : State := (s.setF (R.PWR_CORE 112) F.PWR_CORE_ig_en 1).setCore 112 { cyc := 2 ^ 30 }
    [wr s .clk a agM, decide (s.f a F.CLK_CORE_busy = 0), decide ((s.setF a F.CLK_CORE_busy 1).f a F.CLK_CORE_busy = 1), decide (s.f (R.PWR_DOM 0) F.PWR_DOM_state = 0),
      !isChecker s 112, decide (s.f R.PWR_RAIL F.PWR_RAIL_cur < vSteps 80 + 5) || decide ((s.setF R.PWR_RAIL F.PWR_RAIL_cur 0).f R.PWR_RAIL F.PWR_RAIL_cur < 5),
      decide (vSteps 16 + 5 ≤ s.f R.PWR_RAIL F.PWR_RAIL_cur), !((s.f (pairReg 112) F.SAFE_PAIR_formed).testBit 0),
      (let v := s.f (R.PWR_CORE 112) F.PWR_CORE_vreq
       let m := s.f a F.CLK_CORE_cur
       decide (v < vSteps 80) && decide (vSteps m ≤ v) && decide (m < 80)),
      (let z := (s.setF (R.PWR_CORE 112) F.PWR_CORE_vreq 20).setF a F.CLK_CORE_mult 16
       decide (vSteps (z.f a F.CLK_CORE_mult) < z.f (R.PWR_CORE 112) F.PWR_CORE_vreq)),
      wr s .pwr R.PWR_RAIL agM, decide (s.f R.PWR_RAIL F.PWR_RAIL_busy = 0), ({ s.hub with rail := some (20, 2) } : Hub).rail == some (20, 2),
      decide (5 + s.f R.PWR_RAIL F.PWR_RAIL_settle ≤ ({ s with ref := 2 ^ 32 } : State).ref), gateable 0, decide ((160 : Nat) ≤ 165 ∧ 165 < 190), wr s .clk (R.CLK_ISL 0) agM, wr s .clk (R.CLK_ISL 165) agM,
      (let z := s.setF (R.PWR_CWHOLD 7) F.PWR_CWHOLD_hold 1
       cwHeld z true 0), decide (s.f (R.CLK_ISL 112) F.CLK_ISL_locked = 1), coreClocked s 112, decide (s.f (R.PWR_CORE 112) F.PWR_CORE_ig_en = 0),
      coreIdle idle 112 && coreClocked idle 112 && decide ((idle.core 112).idle + max 1 (idle.f (R.PWR_CORE 112) F.PWR_CORE_idle_dly) ≤ (idle.core 112).cyc),
      (let z : State := { s.setF (R.PWR_CORE 112) F.PWR_CORE_asleep 1 with icu := { wake := [112] }, hub := { tlbRec := [112] } }
       unitRuns z 112 112 && decide (z.f (R.PWR_CORE 112) F.PWR_CORE_asleep = 1) && z.icu.wake.contains 112 && z.hub.tlbRec.contains 112)].all id = true := by decide +kernel

/-- ResetEffects: each reset allowed, with and without stores under way; a drain that ends by its time, one that goes on. -/
theorem wit_resets :
    let s := State.reset
    let e : WbEnt := { seq := 0, bank := 0, tenant := 0, closed := true, kind := .normal, pa := 0x1000, size := 3 }
    let d : State := s.updCore 112 (fun k => { k with wb := [e], drain := some 0 })
    [wr s .rst R.RST_CTL agM, decide ((1 + 0xA5 * 256 : Word).getLsbD 0 = true ∧ fld (1 + 0xA5 * 256 : Word) 8 8 = 0xA5), wr s .rst R.RST_CMD agM,
      decide (s.f R.RST_CMDSTAT F.RST_CMDSTAT_rstat ≠ 0) || decide ((s.setF R.RST_CMDSTAT F.RST_CMDSTAT_rstat 1).f R.RST_CMDSTAT F.RST_CMDSTAT_rstat ≠ 0),
      decide ((s.setF R.RST_CMDSTAT F.RST_CMDSTAT_rstat 0).f R.RST_CMDSTAT F.RST_CMDSTAT_rstat = 0), !formedIn s 14, formedIn (s.setF (pairReg 112) F.SAFE_PAIR_formed 1) 14,
      (List.range 128).all (fun c => (s.core c).wb.isEmpty), !(d.core 112).wb.isEmpty && decide (clusterOf 112 = 14) && powered d 112,
      decide ((s.bank 112 0).thread = some 0), decide (thrState s 14 0 ≠ 0), (d.core 112).drain == some 0, d.hub.resets.isEmpty, decide ((d.core 112).wb = [e]),
      decide (({ d with ref := 2 ^ 40 } : State).ref ≥ dtoOf d 112), decide (d.ref < 0 + dtoOf d 112), decide (s.f (R.RST_LOST 0) F.RST_LOST_valid = 0)].all id = true := by decide +kernel

/-! ### PCI Express, Ethernet, the message engine, CAN, LIN and the gateways -/

/-- PCIe controller 0 runs, in a given state and role, its link up or down, with what else it holds. -/
def pcie (st link role : Nat) (x : Pcie) : State :=
  ((((lit [210] [184]).setF (R.PCIE_STAT 0) F.PCIE_STAT_state st).setF (R.PCIE_STAT 0) F.PCIE_STAT_link link).setF (R.PCIE_CFG 0) F.PCIE_CFG_role role).setPcie 0 x

/-- Entry 0 of its table: valid, 4096 bytes at local page 0 and remote page 16. -/
def att (w : Nat) (s : State) : State :=
  ((s.setReg (R.PCIE_ATT0 0 0) (BitVec.ofNat 64 w)).setF (R.PCIE_ATT0 0 0) F.PCIE_ATT0_v 1).setF (R.PCIE_ATT2 0 0) F.PCIE_ATT2_remote 16

/-- PcieStates: a resume that fails and one that passes, stops, the end of a stop, PERST_n, links, table entries both ways. -/
theorem wit_pcieStates :
    let s := pcie 0 0 0 {}
    let cfg := fun (v : Nat) => (s.setF (R.PCIE_CFG 0) F.PCIE_CFG_maxspeed v).setF (R.PCIE_CFG 0) F.PCIE_CFG_maxwidth 2
    let t : Tlp := { write := false, addr := 0, len := 4 }
    let b := R.PCIE_ATT0 0 0
    let off := s.setF (R.PWR_DOM (pcieDom 0)) F.PWR_DOM_state 0
    [routerRuns off (pcieUnit 0 / 4), wr off .pcie (R.PCIE_CTL 0) agM, decide (off.f (R.PCIE_STAT 0) F.PCIE_STAT_state = 0), !domOn off (pcieDom 0),
      pcieRuns s 0, wr s .pcie (R.PCIE_CTL 0) agM, decide (s.f (R.PCIE_STAT 0) F.PCIE_STAT_state = 0), domOn s (pcieDom 0), decide (pcieReason (cfg 0) 0 = 2), decide (pcieReason (cfg 5) 0 = 0),
      decide (pcieReason (s.setF (R.PWR_DOM 210) F.PWR_DOM_state 3) 0 = 1), decide ((pcie 1 0 0 {}).f (R.PCIE_STAT 0) F.PCIE_STAT_state = 1),
      decide ((pcie 2 1 1 {}).f (R.PCIE_STAT 0) F.PCIE_STAT_state = 2 ∧ (pcie 2 1 1 {}).f (R.PCIE_STAT 0) F.PCIE_STAT_link = 1 ∧ (pcie 2 1 1 {}).f (R.PCIE_CFG 0) F.PCIE_CFG_role = 1),
      ((pcie 1 0 0 { inb := [{ seq := 0, tlp := t, tenant := 0, lines := [] }] }).pcie 0).inb.length == 1, decide (((pcie 1 0 0 { perstAt := 5 }).pcie 0).perstAt = 5),
      ((pcie 1 0 0 { perst := true }).pcie 0).perst, decide (2 ≤ (cfg 5).f (R.PCIE_CFG 0) F.PCIE_CFG_maxwidth) && decide (1 ≤ (cfg 5).f (R.PCIE_CFG 0) F.PCIE_CFG_maxspeed),
      wr s .pcie b agM, decide ((att 0 s).f b F.PCIE_ATT0_v = 1), decide (s.f b F.PCIE_ATT0_v = 0),
      attOk (s.setReg b (1 + 12 * 2 ^ 11)) 0 0, !attOk (s.setReg b 1) 0 0].all id = true := by decide +kernel

/-- PcieOutbound: an entry met and none, memory writes and reads, a full list, configuration reads, completions of each kind and their time. -/
theorem wit_pcieOutbound :
    let p : Pkt := { net := 0, typ := 7, pa := 0xE0000000100, size := 2, tenant := 0 }
    let w : Pkt := { p with typ := 9, mask := 0xFF }
    let o : OutReq := ⟨p, 0x100, false, 50, .memory { write := false, addr := 0, len := 4 } false 0⟩
    let s := pcie 1 1 0 {}
    let e := fun (k : Nat) => ((att 0 s).setF (R.PCIE_ATT0 0 0) F.PCIE_ATT0_log2 12).setF (R.PCIE_ATT0 0 0) F.PCIE_ATT0_kind k
    let z : State := { pcie 1 1 0 { out := [o] } with ref := 2 ^ 30 }
    [decide (outEntry s 0 0 (windowOff 0 p.pa) = none), decide (outEntry (e 0) 0 0 0x100 = some 0), isWrite w, !isWrite p, ((e 0).pcie 0).out.isEmpty,
      decide ((e 0).f (R.PCIE_ATT0 0 0) F.PCIE_ATT0_kind = 0), decide ((e 1).f (R.PCIE_ATT0 0 0) F.PCIE_ATT0_kind = 1), decide (p.size ≤ 2 ∧ 0x100 % 2 ^ p.size = 0),
      decide ((e 0).f (R.PCIE_CFG 0) F.PCIE_CFG_role = 0), decide ((pcie 1 1 1 {}).f (R.PCIE_CFG 0) F.PCIE_CFG_role = 1 ∧ ((pcie 1 1 1 {}).pcie 0).command.getLsbD 2 = false),
      decide (32 ≤ ((pcie 1 1 0 { out := List.replicate 32 o }).pcie 0).out.length), decide ((z.pcie 0).out[0]? = some o), decide ((s.pcie 0).out[0]? = none),
      decide (o.late ≤ z.ref), decide (({ o with cfg := true } : OutReq).cfg = true), decide (s.ref < o.late), !outWaits s 0 p,
      outWaits { s with inbox := [{ p with dst := pcieUnit 0, tag := 9 }] } 0 p, decide (((pcie 1 1 1 { command := 4, power := 3 }).pcie 0).power = 3),
      decide (({ command := 4 } : Pcie).command.getLsbD 2 = true ∧ ({ command := 4 } : Pcie).power ≠ 3)].all id = true := by decide +kernel

/-- PcieInbound: an MSI, TLPs outside BARs and entries, a page met and refused, lines answered. -/
theorem wit_pcieInbound :
    let page : Wc2Ent := { tenant := 0, page := 0, out := 0x10, r := true, w := true, x := false, mt := .wb, level := 4 }
    let s := (pcie 1 1 0 { cache := [page], map := { populated := 0x4000000000 } }).setRouter 24 { map := { populated := 0x4000000000 } }
    let e := ((att 0 s).setF (R.PCIE_ATT0 0 0) F.PCIE_ATT0_log2 12).setF (R.PCIE_ATT0 0 0) F.PCIE_ATT0_dir 1
    let t : Tlp := { write := false, addr := 0x10040, len := 8 }
    let m : Tlp := { write := true, addr := s.f (R.PCIE_MSIADDR 0) F.PCIE_MSIADDR_addr * 4, len := 4, data := [5, 0, 0, 0] }
    let l : PLine := { pa := 0x10040, n := 8, tag := some 3 }
    let z := fun (w : Bool) (box : List Pkt) => { pcie 1 1 0 { inb := [{ seq := 0, tlp := { t with write := w }, tenant := 0, lines := [l] }] } with inbox := box }
    let a : Pkt := { net := 1, typ := 0, dst := pcieUnit 0, tag := 3 }
    let boxOf := fun (q : Pkt) => (z true [q]).inbox == [q] && decide (q.dst = pcieUnit 0 ∧ q.tag = 3 ∧ l.tag = some 3)
    ([isMsi s 0 m, decide (bytesNat m.data = 5), !inBars (pcie 1 1 1 {}) 0 t, decide (inEntry s 0 t = none), !isMsi e 0 t, decide (inEntry e 0 t = some 0),
      (pcieStage2 e 0 0 0 false).isSome, decide ((pcieStage2 e 0 0 0 false).map (fun q => q.2.pa) = some 0x10000), (e.pcie 0).inb.isEmpty, decide (0x40 % 64 + t.len ≤ 64),
      !decodeFails (e.router 24).map false false 0x10040, (pcieStage2 (e.setPcie 0 {}) 0 0 0 false).isNone, decide (pcieUnit 0 / 4 = 24),
      (((z false []).pcie 0).inb.map (fun y => (y.lines, y.cut))) == [([l], false)] && ((z false []).pcie 0).rxq.isEmpty, (z true []).inbox.isEmpty].all id &&
     [boxOf a, boxOf { a with net := 3 }, boxOf { a with typ := 4 }, decide (l.late ≤ s.ref), decide (s.ref < ({ l with late := 128 } : PLine).late),
      decide (32 ≤ ((pcie 1 1 0 { inb := List.replicate 32 { seq := 0, tlp := t, tenant := 0, lines := [] } }).pcie 0).inb.length), ((pcie 1 1 0 {}).pcie 0).rxq.isEmpty,
      decide (({ t with badEcrc := true } : Tlp).badEcrc = true ∧ (s.setF (R.PCIE_CFG 0) F.PCIE_CFG_ecrc 1).f (R.PCIE_CFG 0) F.PCIE_CFG_ecrc = 1),
      decide (t.badEcrc = false ∧ t.kind = .memory), decide (({ t with kind := .message } : Tlp).kind = .message), decide (({ t with kind := .unsupported } : Tlp).kind = .unsupported)].all id) = true := by decide +kernel

/-- PcieMessages: MSIs in and out, both roles. -/
theorem wit_pcieMessages :
    let s := pcie 1 1 0 {}
    let e := pcie 1 1 1 { msiEn := true, command := 4, msiLog := 5 }
    [decide (s.f (R.PCIE_CFG 0) F.PCIE_CFG_role = 0), decide (s.f (R.PCIE_STAT 0) F.PCIE_STAT_state = 1), decide (s.f (R.PCIE_STAT 0) F.PCIE_STAT_link = 1), wr e .pcie (R.PCIE_MSIGEN 0) agM,
      (e.pcie 0).msiEn && (e.pcie 0).command.getLsbD 2 && decide (31 < 2 ^ (e.pcie 0).msiLog), decide (e.f (R.PCIE_CFG 0) F.PCIE_CFG_role ≠ 0), !((pcie 1 1 1 {}).pcie 0).msiEn,
      decide (e.f (R.PCIE_BAR 0 0) F.PCIE_BAR_log2 = 0)].all id = true := by decide +kernel

/-- Half 0 of the engine runs, with port 0 ON, in a given state and its link up or down. -/
def eth (st link : Nat) (x : EthPort) : State :=
  (((lit [168, 170] [198]).setF (R.ETH_STAT 0) F.ETH_STAT_state st).setF (R.ETH_STAT 0) F.ETH_STAT_link link).updPort 0 (fun _ => x)

theorem ethCounts_of {s : State} {p : Nat} (h : (decide (s.f R.PMU_SNAP F.PMU_SNAP_frozen = 0) && (List.range 32).all (fun i => decide (s.f (R.ETH_CNT p i) F.ETH_CNT_count < 2 ^ 47))) = true) :
    ethCounts s p := by
  simp only [Bool.and_eq_true, decide_eq_true_eq, List.all_eq_true, List.mem_range] at h
  exact h

/-- PortStates: what a resume refuses and lets pass, stops, links up and down, diagnostics. -/
theorem wit_portStates :
    ethCounts (eth 0 0 {}) 0 ∧ ethCounts (eth 1 1 {}) 0 ∧
    (let s := eth 0 0 {}
     let cfg := fun (v : Nat) => s.setReg (R.ETH_CFG 0) (setFld (setFld (setFld (setFld 0 F.ETH_CFG_maxf.lo F.ETH_CFG_maxf.w 1518) F.ETH_CFG_speed.lo F.ETH_CFG_speed.w v)
       F.ETH_CFG_role.lo F.ETH_CFG_role.w 1) F.ETH_CFG_an.lo F.ETH_CFG_an.w 1)
     let known := (List.range 16).filter (fun v => (Config.speedRow 0 v).isSome)
     [pipeRuns s 0, wr s .eth (R.ETH_CTL 0) agM, !heldInReset s 0, !known.isEmpty, known.length < 16, decide (s.f (R.PWR_DOM (portDom 0)) F.PWR_DOM_state = 2),
       decide ((s.setF (R.PWR_DOM (portDom 0)) F.PWR_DOM_state 0).f (R.PWR_DOM (portDom 0)) F.PWR_DOM_state ≠ 2), decide (s.f (R.ETH_MSCFG 0) F.ETH_MSCFG_en = 0),
       (let z := cfg (known.headD 0)
        decide (60 ≤ z.f (R.ETH_CFG 0) F.ETH_CFG_maxf ∧ z.f (R.ETH_CFG 0) F.ETH_CFG_maxf ≤ 9212) && decide (z.f (R.ETH_CFG 0) F.ETH_CFG_role = 1)),
       decide ((eth 1 0 {}).f (R.ETH_STAT 0) F.ETH_STAT_state = 1 ∧ (eth 1 0 {}).f (R.ETH_STAT 0) F.ETH_STAT_link = 0), decide (queuedFrames ((eth 1 0 {}).port 0) < 2 ^ 47),
       decide ((eth 1 1 {}).f (R.ETH_STAT 0) F.ETH_STAT_link = 1), decide ((eth 2 1 {}).f (R.ETH_STAT 0) F.ETH_STAT_state = 2), wr s .eth (R.ETH_DIAG 0) agM,
       decide ((s.setF (R.ETH_DIAGR 0) F.ETH_DIAGR_rstat 0).f (R.ETH_DIAGR 0) F.ETH_DIAGR_rstat = 0)].all id = true) := by
  refine ⟨ethCounts_of (by decide +kernel), ethCounts_of (by decide +kernel), by decide +kernel⟩

/-- PortFrames: frames refused by length and type, one for no port, one for port 1; an egress frame that fits and one that does not. -/
theorem wit_portFrames :
    (let s := (eth 1 1 {}).setF (R.ETH_CFG 0) F.ETH_CFG_maxf 1518
     let bs := beBytes 6 0x11 ++ beBytes 6 0x22 ++ beBytes 2 0x0800 ++ List.replicate 60 0
     let up := ((((((s.setF (R.PWR_DOM 171) F.PWR_DOM_state 2).setF (R.ETH_STAT 1) F.ETH_STAT_state 1).setF (R.ETH_STAT 1) F.ETH_STAT_link 1).setF
       (R.ETH_BR_VLAN (brBlock 0) 1) F.ETH_BR_VLAN_v 1).setF (R.ETH_BR_VLAN (brBlock 0) 1) F.ETH_BR_VLAN_member 3).setF (R.ETH_BR_PORT (brBlock 0) 0) F.ETH_BR_PORT_pvid 1)
     let c := classifyVlan up 0 0 (parseFrame bs)
     [portUp s 0, decide (s.f (R.ETH_PHY 0) F.ETH_PHY_lpbk = 0), decide (60 ≤ bs.length ∧ bs.length ≤ s.f (R.ETH_CFG 0) F.ETH_CFG_maxf), decide (beAt bs 12 2 = 0x0800),
       decide (beAt (beBytes 12 0 ++ beBytes 2 0x8808) 12 2 = 0x8808), c.2, (streamOf up 0 0 c.1).isNone, decide (up.f (R.ETH_BR_PORT (brBlock 0) 0) F.ETH_BR_PORT_learn = 0) ||
         decide ((up.setF (R.ETH_BR_PORT (brBlock 0) 0) F.ETH_BR_PORT_learn 0).f (R.ETH_BR_PORT (brBlock 0) 0) F.ETH_BR_PORT_learn = 0),
       decide (forwardSet s 0 0 { c.1 with vid := 9 } = none), decide (forwardSet up 0 0 c.1 = some [1]), queueHasRoom up 1 c.1.tc c.1.size].all id = true) ∧
    (let f : EFrame := { dst := 1, src := 2, body := List.replicate 100 0 }
     let s := (eth 1 1 { queues := [(7, [f])] }).setF (R.ETH_CFG 0) F.ETH_CFG_maxf 1518
     [decide (mget [] (s.port 0).queues 7 = [f]), classEligible s 0 7, (List.range 7).all (fun j => !classEligible s 0 j), f.owner.isNone, decide ((egressBytes s 0 f).length ≤ 1518),
       decide (59 < (egressBytes s 0 f).length), (List.range 8).all (fun j => !classEligible (eth 1 1 {}) 0 j)].all id = true) := by decide +kernel

/-- ForwardingDatabase and DatabaseAging: an empty set and a full one of static entries, an entry that ages and ones that do not. -/
theorem wit_forwarding :
    let e : FdbEnt := ⟨1, 5, false, 2, 0⟩
    let s : State := { eth 1 1 {} with bridges := [(0, ({ fdb := [e] } : Bridge))], ref := 2 ^ 40 }
    let z := s.setF (R.ETH_BR_CTL (brBlock 0)) F.ETH_BR_CTL_age 1
    [wr s .eth (R.ETH_BR_FDBCMD (brBlock 0)) agM, decide (fdbFind (s.bridge 0) 1 5 = some e), decide (fdbFind (s.bridge 0) 1 6 = none),
      decide (z.f (R.ETH_BR_CTL (brBlock 0)) F.ETH_BR_CTL_age = 1 ∧ e.seen + 1 * 2 ^ 20 ≤ z.ref), decide ((s.setF (R.ETH_BR_CTL (brBlock 0)) F.ETH_BR_CTL_age 0).f (R.ETH_BR_CTL (brBlock 0)) F.ETH_BR_CTL_age = 0),
      (List.range 5).all (fun i => decide (fdbSet 1 5 = fdbSet 1 5 ∧ (List.replicate i e).length = i))].all id = true := by decide +kernel

/-- TimeAndGates: time steps, stream gates, recovery functions, gates off and on, lists accepted, refused and taken over. -/
theorem wit_timeAndGates :
    let x : EthPort := {}
    let s := eth 1 1 x
    let on_ := s.setF (R.TSN_GCTL 0) F.TSN_GCTL_en 1
    let f : EFrame := { dst := 1, src := 2 }
    let shut : EthPort := { tx := some f, oper := { cycle := 1000, len := 0 }, bank := [(0, 1000 * 256)] }
    let late : State := (eth 1 1 { ct := some 0 })
    ethCounts ((eth 1 1 shut).setF (R.TSN_GCTL 0) F.TSN_GCTL_en 1) 0 ∧
    ([wr s .tsn (R.TSN_TSTEP (brBlock 0)) agM, wr s .tsn (R.TSN_TSET (brBlock 0)) agM, decide ((s.bridge 0).frac < 2 ^ 32), decide (s.f (R.TSN_SGCTL (brBlock 0) 0) F.TSN_SGCTL_len = 0),
      (mget ({} : SGate) (s.bridge 0).gates 0).ents.isEmpty, (mget ({} : Recov) (s.bridge 0).recov 0).any,
      (let z : State := { s with bridges := [(0, ({ recov := [(0, { any := false })] } : Bridge))], ref := 2 ^ 40 }
       !(mget ({} : Recov) (z.bridge 0).recov 0).any && decide (0 + max 1 (z.f (R.TSN_FRREC (brBlock 0) 0) F.TSN_FRREC_reset) * 1024 ≤ z.ref)),
      decide (s.f (R.TSN_GCTL 0) F.TSN_GCTL_en ≠ 1), decide (on_.f (R.TSN_GCTL 0) F.TSN_GCTL_en = 1), (on_.port 0).tx.isNone && decide ((on_.port 0).oper.cycle = 0),
      shut.gates.testBit f.tc && !(gateAt shut 0).2.testBit f.tc, wr s .tsn (R.TSN_GCTL 0) agM, decide (s.f (R.TSN_GCYC 0) F.TSN_GCYC_ns = 0),
      decide ((s.setF (R.TSN_GCYC 0) F.TSN_GCYC_ns 1000).f (R.TSN_GCYC 0) F.TSN_GCYC_ns ≠ 0), decide ((late.port 0).ct = some 0 ∧ 0 ≤ gptpNs late 0)].all id = true) := by
  refine ⟨ethCounts_of (by decide +kernel), by decide +kernel⟩

/-- MacsecKeys: an SA that is enabled and ones that are not, a key of a slot for another unit and for the port, subkeys under way. -/
theorem wit_macsecKeys :
    let s := eth 1 1 {}
    let z : State := { s with sec := { slots := [(0, { key := 7, consumer := some 0 })] } }
    [wr s .eth (R.ETH_SACMD 0) agM, !(s.f (R.ETH_MSTX 0) F.ETH_MSTX_txen).testBit 0, ((s.setF (R.ETH_MSTX 0) F.ETH_MSTX_txen 1).f (R.ETH_MSTX 0) F.ETH_MSTX_txen).testBit 0,
      !(s.reg (R.ETH_MSRXEN 0)).getLsbD 0, decide (s.f (R.ETH_MSCFG 0) F.ETH_MSCFG_xpn = 0), decide ((mget {} s.sec.slots 0).consumer ≠ some 0),
      decide ((mget {} z.sec.slots 0).consumer = some 0), decide (((eth 1 1 { saBusy := some (true, 1, 2, some 9) }).port 0).saBusy = some (true, 1, 2, some 9))].all id = true := by decide +kernel

/-- Queue pair 0 of tenant 0, enabled, in a channel state, with memory mapped page by page onto itself. -/
def meq (st : Nat) (x : Qp) : State :=
  let s := ((lit [168, 170] [198]).setF (R.MEQ_TCTL 0) F.MEQ_TCTL_en 1).setF (R.MEQ_QP_STAT 0 0) F.MEQ_QP_STAT_state st
  { s.setRouter 25 { map := { populated := 0x4000000000 } } with mem := folioMem, map := { populated := 0x4000000000 }, qps := [(0, x)] }

/-- DoorbellsAndReads: doorbells taken and ignored, an acknowledgement, an ABORT and a REBUILD, descriptors read. -/
theorem wit_doorbells :
    let s := meq 0 {}
    let rd : Qp := { reads := [(0, 0, some 0x40, 0)] }
    [pipeRuns s 0, s.inbox.isEmpty, decide (s.f (R.MEQ_TCTL 0) F.MEQ_TCTL_en = 1), tenantRuns s 0 0, decide ((s.setF (R.MEQ_TCTL 0) F.MEQ_TCTL_en 0).f (R.MEQ_TCTL 0) F.MEQ_TCTL_en = 0),
      decide (Machine.dist (s.qp 0 0).doorbell 0 = 0), decide (Machine.dist (s.qp 0 0).doorbell 1 = 1 ∧ 1 = num32 ((s.qp 0 0).consumed + 1)),
      decide (1 ≤ 2 ^ s.f (R.MEQ_QP_CFG 0 0) F.MEQ_QP_CFG_sq_log2), decide (tenantPa s 0 (sqSlot s 0 0 1) false ≠ none),
      decide (Machine.dist (s.qp 0 0).acked 1 ≤ Machine.dist (s.qp 0 0).acked ({ posted := 2 } : Qp).posted), decide (Machine.dist 0 0 < Machine.dist 0 1),
      decide ((s.qp 0 0).doorbell = (s.qp 0 0).consumed), decide (s.f (R.MEQ_QP_STAT 0 0) F.MEQ_QP_STAT_valid = 0),
      decide ((s.qp 0 0).scan = none ∧ freeTag s (pipeUnit (pipeOf 0)) = true), decide (tenantPa s 0 (cqSlot s 0 0 0) false ≠ none),
      decide (tenantPa (s.setRouter 25 {}) 0 (cqSlot s 0 0 0) false = none),
      (let w := (meq 0 {}).setF (R.MEQ_QP_CFG 0 0) F.MEQ_QP_CFG_cq_log2 6
       let y : CqScan := { next := 63, last := some (62, 5, 1), acc := { addr := 0, got := some (.data 0) } }
       let e := cqEntry w 0 0 y.next (BitVec.ofNat 512 0)
       decide (y.next + 1 = cqSize w 0 0 ∧ y.next ≠ 0) && decide (y.breaks ++ cqBreak y.last e ++ cqBreak e y.first = [(62, 5, 1)]) &&
         decide ((cqBreak none e ++ cqBreak e none).length ≠ 1) && decide (({ y.acc with got := some .poison } : LineAcc).got = some .poison)),
      decide (((meq 2 rd).qp 0 0).reads = [(0, 0, some 0x40, 0)]), decide (rd.cur = none ∧ rd.stall = false ∧ rd.startAt = none ∧ rd.chains = [] ∧ rd.fills = [] ∧ rd.part = [] ∧ rd.free = [] ∧
        rd.rx = none ∧ rd.cq = [] ∧ rd.stopC = none), decide (dfld (BitVec.ofNat 512 0) 0 0 32 = 0), decide (dfld (BitVec.ofNat 512 1) 0 0 32 ≠ 0),
      badFormat true (BitVec.ofNat 512 (15 * 2 ^ 32)), !badFormat true (BitVec.ofNat 512 0)].all id = true := by decide +kernel

/-- ChannelCommands: each command in the states that the statement names, and the SEND of a frame. -/
theorem wit_channelCommands :
    let d : SqDesc := { asn := 3, op := 0 }
    let s := meq 0 { cur := some d }
    let tx := (meq 2 { cur := some { d with op := 1, a := 0x40, b := 63 } }).setF (R.MEQ_QP_MSG 0 0) F.MEQ_QP_MSG_max_msg 1500 |>.setF (R.ETH_CFG 0) F.ETH_CFG_maxf 1518
      |>.setF (R.MEQ_QP_PORT 0 0) F.MEQ_QP_PORT_ports 1 |>.setF (R.ETH_STAT 0) F.ETH_STAT_state 1 |>.setF (R.ETH_STAT 0) F.ETH_STAT_link 1 |>.setF (R.MEQ_QP_RATE 0 0) F.MEQ_QP_RATE_rate 0
      |>.setF (R.MEQ_QP_CFG 0 0) F.MEQ_QP_CFG_mode 0 |>.setF (R.MEQ_QP_CFG 0 0) F.MEQ_QP_CFG_dir 0
    let bs := sub (wordBytes 64 0) (fld (0x40 : Word) 0 44 % 64) (fld (63 : Word) 0 14 + 1)
    let acc : LineAcc := { addr := 0x40, got := some (.data 0) }
    let chain : TxChain := { descs := [{ d with op := 1, a := 0x40, b := 63 }], started := true, loads := [acc] }
    let f : EFrame := { (classifyVlan tx 0 20 { parseFrame bs with owner := some (0, 0, 3) }).1 with tc := tx.f (R.MEQ_QP_CFG 0 0) F.MEQ_QP_CFG_tc }
    [decide ((s.qp 0 0).cur = some d), (s.qp 0 0).chains.isEmpty, decide ((meq 4 {}).f (R.MEQ_QP_STAT 0 0) F.MEQ_QP_STAT_state = 4), decide (fld ((0 : Word)) 0 48 ≤ gptpNs s 0),
      decide (gptpNs s 0 < fld (2 ^ 63 + 2 ^ 47 : Word) 0 48 ∧ (2 ^ 63 + 2 ^ 47 : Word).getLsbD 63 = true), editable 4, !editable 8,
      decide ((s.setF (R.MEQ_TCTL 0) F.MEQ_TCTL_en 0).f (R.MEQ_TCTL 0) F.MEQ_TCTL_en = 0), decide (resumeReason s 0 0 ≠ 0), isRx (s.setF (R.MEQ_QP_CFG 0 0) F.MEQ_QP_CFG_dir 1) 0 0,
      !isRx tx 0 0, !isMsg tx 0 0, isMsg (s.setF (R.MEQ_QP_CFG 0 0) F.MEQ_QP_CFG_mode 1) 0 0, decide (fld (63 : Word) 0 14 + 1 ≤ tx.f (R.MEQ_QP_MSG 0 0) F.MEQ_QP_MSG_max_msg),
      decide ((0 : Nat) + 1 < (s.setF (R.MEQ_QP_CFG 0 0) F.MEQ_QP_CFG_max_chain 4).f (R.MEQ_QP_CFG 0 0) F.MEQ_QP_CFG_max_chain),
      freeTag tx (pipeUnit (pipeOf 0)), decide (tenantPa tx 0 0x40 false ≠ none), decide (fld (0x40 : Word) 0 44 % 64 + (fld (63 : Word) 0 14 + 1) ≤ 64),
      (qpPorts tx 0 0).all (fun p => decide (fld (63 : Word) 0 14 + 1 ≤ tx.f (R.ETH_CFG p) F.ETH_CFG_maxf)), decide (((meq 2 { chains := [chain] }).qp 0 0).chains = [chain]),
      decide (bs.length = 64), !(parseFrame bs).ntscf, (streamOf tx 0 20 f).isNone, portUp tx 0, queueHasRoom tx 0 f.tc bs.length,
      decide (tx.f (R.MEQ_QP_PORT 0 0) F.MEQ_QP_PORT_ports = 2 ^ 0 ∧ tx.f (R.MEQ_QP_RATE 0 0) F.MEQ_QP_RATE_rate = 0)].all id = true := by decide +kernel

/-- ChannelEvents: a completion posted, timed starts, the end of a drain, chains, arrivals, numbers set, counters read. -/
theorem wit_channelEvents :
    let c : Cqe := { status := 0 }
    let chain : TxChain := { descs := [{ asn := 1, op := 1 }], started := true }
    let s := meq 2 { posting := some (c, 1, 7, 0x40, 0), startAt := some (0, { asn := 1, op := 8 }), stopC := none, chains := [chain],
                     arr := [{ bytes := List.replicate 64 1, port := 3 }], free := [⟨1, 0x40, 9⟩], rx := some { macc := 0, len := 0, bytes := [], port := 0, ts := 0, since := 0 } }
    let rx := (meq 2 { arr := [{ bytes := List.replicate 64 1, port := 3 }], free := [⟨1, 0x40, 9⟩] }).setF (R.MEQ_QP_MSG 0 0) F.MEQ_QP_MSG_max_msg 1500
      |>.setF (R.MEQ_QP_CFG 0 0) F.MEQ_QP_CFG_buf_log2 8 |>.setF (R.MEQ_QP_CFG 0 0) F.MEQ_QP_CFG_mode 0
    [decide ((s.qp 0 0).posting = some (c, 1, 7, 0x40, 0)), (s.qp 0 0).cq.isEmpty, s.inbox.isEmpty, decide ((s.qp 0 0).startAt = some (0, { asn := 1, op := 8 }) ∧ 0 ≤ gptpNs s 0),
      decide (gptpNs s 0 < 5), decide ((s.qp 0 0).chains = [chain]), chain.frames.isEmpty && chain.loads.isEmpty && !chain.descs.isEmpty, s.ports.isEmpty,
      decide (((meq 3 { stopC := some c }).qp 0 0).stopC = some c), !isMsg rx 0 0, decide ((rx.qp 0 0).arr = [{ bytes := List.replicate 64 1, port := 3 }]),
      decide (64 ≤ 2 ^ rx.f (R.MEQ_QP_CFG 0 0) F.MEQ_QP_CFG_buf_log2), tenantRuns rx 0 0, decide (64 ≤ rx.f (R.MEQ_QP_MSG 0 0) F.MEQ_QP_MSG_max_msg),
      decide (Machine.dist (rx.qp 0 0).acked (num32 ((rx.qp 0 0).posted + 0 + 0 + 0 + 0 + 1)) ≤ cqSize rx 0 0), decide (tenantPa rx 0 0x40 true = some 0x40), freeTag rx (pipeUnit (pipeOf 0)),
      decide (((meq 3 { stopC := some c }).qp 0 0).chains = [] ∧ ((meq 3 { stopC := some c }).qp 0 0).fills = []),
      (let g : RxFill := { accs := [{ addr := 0x40, got := some (.data 0) }], done := { status := 0, port := 3 } }
       decide (((meq 2 { fills := [g] }).qp 0 0).fills = [g] ∧ g.done.port ≠ 63) && g.accs.all (fun a => match a.got with | some (.data _) => true | _ => false)),
      decide ((s.qp 0 0).rx ≠ none), decide (0 + max 1 (s.f (R.MEQ_QP_ACC 0 0) F.MEQ_QP_ACC_reasm) * 64 ≤ ({ s with ref := 2 ^ 40 } : State).ref),
      wr s .meqt (R.MEQ_QP_SEQ 0 0) agM, wr s .meqt (R.MEQ_QP_CNTREQ 0 0) agM].all id = true := by decide +kernel

/-- A completion's numbers at the ends of their ranges. -/
theorem wit_completionFields :
    let c : Cqe := { status := 255, reason := 255, ncons := 127, asn := 2 ^ 32 - 1, tag := 2 ^ 32 - 1, length := 2 ^ 17 - 1, nbuf := 127, port := 255, macc := 2 ^ 32 - 1 }
    c.status < 2 ^ 8 ∧ c.ncons < 2 ^ 7 ∧ c.asn < 2 ^ 32 ∧ c.length < 2 ^ 17 ∧ c.nbuf < 2 ^ 7 ∧ c.port < 2 ^ 8 := by decide

/-- The controllers of half 0 run: CAN 0 and LIN 0 in given states. -/
def bus (can lin : Nat) (x : CanCtl) (y : LinCtl) (g : Gateway) : State :=
  { ((lit [168, 212] [198]).setF (R.CAN_STAT 0) F.CAN_STAT_state can).setF (R.LIN_STAT 0) F.LIN_STAT_state lin with cans := [(0, x)], lins := [(0, y)], gws := [(0, g)] }

theorem busCounts_of {s : State} (h : (decide (s.f R.PMU_SNAP F.PMU_SNAP_frozen = 0) &&
    (List.range 24).all (fun n => (List.range 10).all (fun i => decide (s.f (R.CAN_CNT n i) F.CAN_CNT_count < 2 ^ 47))) &&
    (List.range 16).all (fun n => (List.range 5).all (fun i => decide (s.f (R.LIN_CNT n i) F.LIN_CNT_count < 2 ^ 47))) &&
    (List.range 2).all (fun n => (List.range 7).all (fun i => decide (s.f (R.CAN_GW_CNT (12 * n) i) F.CAN_GW_CNT_count < 2 ^ 47)))) = true) : busCounts s := by
  simp only [Bool.and_eq_true, decide_eq_true_eq, List.all_eq_true, List.mem_range] at h
  exact ⟨h.1.1.1, fun n i hn hi => h.1.1.2 n hn i hi, fun n i hn hi => h.1.2 n hn i hi, fun n i hn hi => h.2 n hn i hi⟩

/-- CanControllers: resumes, stops with and without a frame on the bus, errors below and at bus-off, frames in and out. -/
theorem wit_canControllers :
    busCounts (bus 1 1 {} {} {}) ∧
    (let f : CanFrame := { fmt := 0, id := 5, data := [1] }
     let q : CanTx := ⟨f, 0⟩
     let s := bus 1 1 { queue := [q], offer := some q } {} {}
     let a := R.CAN_STAT 0
     let ok := (bus 0 0 {} {} {}).setReg (R.CAN_NTIM 0) (setFld (setFld (setFld (setFld 0 F.CAN_NTIM_brp.lo F.CAN_NTIM_brp.w 10) F.CAN_NTIM_tseg1.lo F.CAN_NTIM_tseg1.w 20)
       F.CAN_NTIM_tseg2.lo F.CAN_NTIM_tseg2.w 5) F.CAN_NTIM_sjw.lo F.CAN_NTIM_sjw.w 2)
     [wr s .can (R.CAN_CTL 0) agM, pipeRuns s 0, !heldInReset s 0, decide (canReason ok 0 = 0), decide ((s.setF (R.CAN_NTIM 0) F.CAN_NTIM_brp 0).f (R.CAN_NTIM 0) F.CAN_NTIM_brp = 0),
       decide ((s.can 0).queue = [] ++ q :: [] ∧ (s.can 0).offer = some q), decide (s.f a F.CAN_STAT_est < 2), decide (s.f a F.CAN_STAT_tec + 8 < 256),
       decide (256 ≤ (s.setF a F.CAN_STAT_tec 250).f a F.CAN_STAT_tec + 8), decide ((s.setF a F.CAN_STAT_est 2).f a F.CAN_STAT_est = 2),
       decide ((s.setF (R.CAN_CFG 0) F.CAN_CFG_aboff 1).f (R.CAN_CFG 0) F.CAN_CFG_aboff = 1), decide (s.f (R.CAN_CFG 0) F.CAN_CFG_lom = 0),
       (let z : State := { s.setF (R.CAN_CFG 0) F.CAN_CFG_ttl 1 with ref := 2000 }
        decide (z.f (R.CAN_CFG 0) F.CAN_CFG_ttl ≠ 0 ∧ q.since + z.f (R.CAN_CFG 0) F.CAN_CFG_ttl * 1024 < z.ref))].all id = true) := by
  refine ⟨busCounts_of (by decide +kernel), by decide +kernel⟩

/-- LinControllers: resumes, stops, the schedule, headers, responses, sleep and wake. -/
theorem wit_linControllers :
    let s := bus 1 1 {} { await := some 5, bufs := [(5, [1, 2])], last := some 0, wakeEnd := some 0, halted := true } {}
    let r := R.LIN_RESP 0 5
    let resp := fun (len pub sub_ : Nat) => ((s.setF r F.LIN_RESP_len len).setF r F.LIN_RESP_pub pub).setF r F.LIN_RESP_sub sub_
    [wr s .lin (R.LIN_CTL 0) agM, decide (linReason ((bus 0 0 {} {} {}).setF (R.LIN_CFG 0) F.LIN_CFG_lbt 20000) 0 = 0), decide ((s.setF (R.LIN_CFG 0) F.LIN_CFG_lbt 0).f (R.LIN_CFG 0) F.LIN_CFG_lbt < 8000),
      decide ((s.lin 0).await = some 5), decide ((s.setF (R.LIN_CFG 0) F.LIN_CFG_role 1).f (R.LIN_CFG 0) F.LIN_CFG_role = 1), !((bus 1 1 {} {} {}).lin 0).halted,
      decide ((resp 2 1 0).f r F.LIN_RESP_len = 2 ∧ (resp 2 1 0).f r F.LIN_RESP_pub = 1), decide ((resp 2 0 1).f r F.LIN_RESP_sub = 1 ∧ (resp 2 0 1).f r F.LIN_RESP_pub = 0),
      decide ((s.lin 0).bufs.find? (fun q => decide (q.1 = 5)) = some (5, [1, 2])), decide ((resp 2 0 0).f r F.LIN_RESP_sub = 0), decide (([1, 2] : List Nat).length = (resp 2 0 1).f r F.LIN_RESP_len),
      decide ((s.lin 0).wakeEnd = some 0 ∧ (s.lin 0).halted = true ∧ 0 + 2500000 ≤ ({ s with ref := 2 ^ 30 } : State).ref)].all id = true := by decide +kernel

/-- Gateways: a frame that no rule takes, one routed to controller 1, two that wait, stream frames. -/
theorem wit_gateways :
    let f : CanFrame := { fmt := 0, id := 5, data := [1] }
    let s := bus 1 1 {} {} { inq := [(0, f, 0)], streams := [[1]] }
    let hi := R.CAN_GW_RULE 0 0 + 8
    let routed := ((((s.setReg (R.CAN_GW_RULE 0 0) (1 + 2 ^ 52)).setF hi F.CAN_GW_RULE_dstmask 2).setF (R.CAN_STAT 1) F.CAN_STAT_state 1).setF (R.CAN_GW_RULE 0 0) F.CAN_GW_RULE_srcmask 1)
    let unp := ((s.setF (R.CAN_GW_UNPK 0 0 + 8) F.CAN_GW_UNPK_v 1).setF (R.CAN_GW_UNPK 0 0 + 8) F.CAN_GW_UNPK_canmask 1).setF (R.CAN_GW_UNPK 0 0) F.CAN_GW_UNPK_stream_id 7
    [decide ((s.gw 0).inq = [(0, f, 0)]), (List.range 256).all (fun r => !ruleMatches s 0 r 0 f), ruleMatches routed 0 0 0 f, decide (routed.f hi F.CAN_GW_RULE_dstmask = 2 ^ 1),
      decide (routed.f (R.CAN_GW_ACT 0 0) F.CAN_GW_ACT_q_en = 0 ∧ routed.f (R.CAN_GW_ACT 0 0) F.CAN_GW_ACT_acf_en = 0), decide (routed.f hi F.CAN_GW_RULE_nid_en = 0),
      decide (routed.f (R.CAN_STAT 1) F.CAN_STAT_est < 2 ∧ routed.f (R.CAN_CFG 1) F.CAN_CFG_lom = 0), formatOn routed 1 0, canLenOk f, decide (s.f (R.CAN_STAT 1) F.CAN_STAT_state ≠ 1),
      decide ((s.gw 0).streams = [1] :: []), (List.range 32).all (fun u => decide (s.f (R.CAN_GW_UNPK 0 u + 8) F.CAN_GW_UNPK_v = 0)), decide (unp.f (R.CAN_GW_UNPK 0 0 + 8) F.CAN_GW_UNPK_v = 1),
      decide (unp.f (R.CAN_GW_UNPK 0 0) F.CAN_GW_UNPK_stream_id = 7), (unp.f (R.CAN_GW_UNPK 0 0 + 8) F.CAN_GW_UNPK_canmask).testBit 0].all id = true := by decide +kernel

/-! ### The block as a whole -/

/-- StepTakesFront, QueueInOrder and StepKeepsMemory: a state with a command at its front, one with none, memory in its canonical form, and steps that answer. -/
theorem wit_general :
    let s := State.reset
    let z : State := { s with pending := [.intxMessage 0, .intxMessage 1] }
    z.pending = .intxMessage 0 :: [.intxMessage 1] ∧ s.pending = [] ∧ memWf s.mem = true ∧ step s = .next s.tick ∧ step z = exec (.intxMessage 0) { z with pending := [.intxMessage 1] } ∧
    memWf [(3, 7), (9, 1)] = true := by
  refine ⟨rfl, rfl, rfl, rfl, rfl, by decide⟩

/-- Memory not in its canonical form: out of order, and a listed byte that reads as an unlisted one. -/
theorem test_memWf_refuses : memWf [(9, 1), (3, 7)] = false ∧ memWf [(3, 0)] = false ∧ memWf [(3, 1), (3, 2)] = false := by decide

/-- SyllablesDecode: syllables that the encoding admits, of one word and of two. -/
theorem wit_syllablesDecode :
    (encodable .add (syl 1 2 3 0 0) && encodable .nop (syl 0 0 0 0 0)) = true ∧
      ((encodeSyl .add (syl 1 2 3 0 0) true).length = 1 ∧ words (syl 1 2 3 0 0) = 1) := by decide

/-- CompletionFields and the rest of the statements without a state have operands in their ranges. -/
theorem wit_memoryReadsBack : memRead (memWrite [] 16 0x1122 2) 16 2 = 0x1122 ∧ memGet (memWrite [] 16 0x1122 2) 17 = 0x11 := by decide

/-! ## Values from outside the model -/

/-- The example of the SM3 standard, GB/T 32905 A.1: the hash of the three bytes of "abc". -/
theorem test_sm3_abc : bytesNat (sm3 [0x61, 0x62, 0x63]).reverse = 0x66c7f0f462eeedd9d1f2d46bdc10e4e24167c4875cf2f7a2297da02b8f4ba8e0 := by decide +kernel

/-- One step of ADD from reset: the sum of −1 and 5 wraps and carries (R83), and the pc is past its one-word bundle (R49). -/
theorem test_add_one_step :
    (let s : State := { State.reset.updBank 112 0 (fun b => { b with phys := [(2, 0xFFFFFFFFFFFFFFFF), (3, 5)] }) with pending := [.add (syl 1 2 3 0 0)] }
     match step s with
     | .next t => decide ((t.bank 112 0).g 1 = 4 ∧ (t.bank 112 0).psw.cf0 = true ∧ (t.bank 112 0).pc = 0xFFFFFF00004 ∧ t.pending = [])
     | _ => false) = true := by decide +kernel

end Sys2Proof.Tests
end

section
/-! PROOF. The M unit's divide and packed decimal operations (R91 to R97): how a long operation starts and lands. -/

namespace Sys2Proof.Machine

open Sys2Proof Sys2Proof.Claims

/-! ## Single bits of a word -/

theorem setBit_getLsbD (v : Word) {i : Nat} (y : Bool) (j : Nat) (hi : i < 64) :
    (setBit v i y).getLsbD j = if i = j then y else v.getLsbD j := by
  unfold setBit
  rw [setFld_getLsbD _ _ _ _ _ (by omega)]
  by_cases hij : i = j
  · subst hij
    cases y <;> simp
  · rw [if_neg hij, if_neg (by omega)]

theorem setBit_true (v : Word) {i : Nat} (hi : i < 64) : setBit v i true = v ||| 1#64 <<< i := by
  refine BitVec.eq_of_getLsbD_eq fun j hj => ?_
  rw [setBit_getLsbD v true j hi, ← BitVec.twoPow_eq, BitVec.getLsbD_or, BitVec.getLsbD_twoPow]
  by_cases hij : i = j <;> simp [hij, hi, hj]

theorem setBit_false (v : Word) {i : Nat} (hi : i < 64) : setBit v i false = v &&& ~~~(1#64 <<< i) := by
  refine BitVec.eq_of_getLsbD_eq fun j hj => ?_
  rw [setBit_getLsbD v false j hi, ← BitVec.twoPow_eq, BitVec.getLsbD_and, BitVec.getLsbD_not, BitVec.getLsbD_twoPow]
  by_cases hij : i = j <;> simp [hij, hi, hj]

/-! ## The issue of a long operation (R77, R98) -/

theorem startLong_eq (x : Syl) (f : Flight) : startLong x f = onBank x (startsLong f) := by
  unfold startLong startsLong Bank.fly1
  simp [setBit_true]

theorem blind_startsLong (f : Flight) : Blind (startsLong f) := fun _ _ h => congrArg (startsLong f) h

/-- An instruction that answers with a long operation completes with it in flight and DVS.busy 1. -/
theorem commits_startLong {o : Op} {sem : Sem} {x : Syl} {s : State} {t : Nat} {f : Flight} (h : Issues o x s t)
    (he : exec (instrOf o x) s = runOne o sem x s) (hs : sem (seenBy s x t) t x = startLong x f) : Commits o x s t (startsLong f) :=
  commits_onBank h he (hs.trans (startLong_eq x f)) (blind_startsLong f)

/-- A divide in flight takes only DVS.dzt and the PC from its bank. -/
theorem divFlight_same {a b : Bank} (h : Bank.same a b) (signed : Bool) (t : Nat) (x y : Word) :
    divFlight a signed t x y = divFlight b signed t x y := by
  unfold divFlight
  rw [Bank.same_dvs h, Bank.same_pc h]

/-- A decimal operation in flight takes only the PC from its bank. -/
theorem decFlight_same {a b : Bank} (h : Bank.same a b) (sub : Bool) (t p : Nat) (x y : Word) :
    decFlight a sub t p x y = decFlight b sub t p x y := by
  unfold decFlight
  rw [Bank.same_pc h]

/-- DIV and DIVU put the divide of their operands in flight. -/
theorem commits_divide {o : Op} {x : Syl} {s : State} {t : Nat} (h : Issues o x s t) (ho : o = .div ∨ o = .divu) :
    Commits o x s t (startsLong (divFlight (found s x t) (decide (o = .div)) t ((found s x t).g x.a) ((found s x t).g x.b))) := by
  rw [← seen_A, ← seen_B, ← divFlight_same (seen_bank s x t)]
  rcases ho with rfl | rfl
  · exact commits_startLong (sem := semDiv) h rfl rfl
  · exact commits_startLong (sem := semDivu) h rfl rfl

/-- DECADD and DECSUB put the sum or difference of their operands in flight. -/
theorem commits_decimal {o : Op} {x : Syl} {s : State} {t : Nat} (h : Issues o x s t) (ho : o = .decadd ∨ o = .decsub) :
    Commits o x s t (startsLong (decFlight (found s x t) (decide (o = .decsub)) t ((found s x t).nm x.d) ((found s x t).g x.a)
      ((found s x t).g x.b))) := by
  rw [← seen_A, ← seen_B, ← seen_nm, ← decFlight_same (seen_bank s x t)]
  rcases ho with rfl | rfl
  · exact commits_startLong (sem := semDecadd) h rfl rfl
  · exact commits_startLong (sem := semDecsub) h rfl rfl

/-! ## Quotient, remainder and latency (R91 to R94) -/

/-- The leading zeros of a word and its significant bits make up its 64. -/
theorem clz64_ofNat {n : Nat} (h : n < 2 ^ 64) : clz64 (BitVec.ofNat 64 n) = 64 - Nat.size n := by
  have ht : (BitVec.ofNat 64 n).toNat = n := by simpa using Nat.mod_eq_of_lt h
  unfold clz64
  by_cases h0 : n = 0
  · simp [h0]
  · have hne : BitVec.ofNat 64 n ≠ 0 := fun e => h0 (by simpa [ht] using congrArg BitVec.toNat e)
    have hs : Nat.size n = Nat.log2 n + 1 :=
      le_antisymm (Nat.size_le.mpr Nat.lt_log2_self) (Nat.lt_size.mpr (Nat.log2_self_le h0))
    rw [if_neg hne, ht, hs]
    omega

theorem divMag_lt (signed : Bool) (a : Word) : divMag signed a < 2 ^ 64 := by
  unfold divMag
  have hlo := a.le_toInt
  have hhi := a.toInt_lt
  split
  · omega
  · exact a.isLt

theorem divLatency_zero (signed : Bool) (a : Word) : divLatency signed a 0 = 6 := by simp [divLatency]

theorem divLatency_of_ne {signed : Bool} {a d : Word} (hd : d ≠ 0) :
    divLatency signed a d = 6 + (Nat.size (divMag signed a) + 1 - Nat.size (divMag signed d) + 3) / 4 := by
  have ha := Nat.size_le.mpr (divMag_lt signed a)
  have hm := Nat.size_le.mpr (divMag_lt signed d)
  unfold divLatency
  simp only [if_neg hd, clz64_ofNat (divMag_lt signed _)]
  congr 3
  omega

theorem divOver_iff {signed : Bool} {a d : Word} :
    divOver signed a d = true ↔ signed = true ∧ a = BitVec.ofInt 64 (-2 ^ 63) ∧ d = BitVec.ofInt 64 (-1) := by
  have h1 : BitVec.ofInt 64 (-2 ^ 63) = 0x8000000000000000#64 := by decide
  have h2 : BitVec.ofInt 64 (-1) = BitVec.allOnes 64 := by decide
  rw [h1, h2]
  simp [divOver, and_assoc]

theorem divQuot_unsigned {a d : Word} (hd : d ≠ 0) : divQuot false a d = a / d := by simp only [divQuot, if_neg hd]; rfl
theorem divRem_unsigned {a d : Word} (hd : d ≠ 0) : divRem false a d = a % d := by simp only [divRem, if_neg hd]; rfl

theorem divQuot_signed {a d : Word} (hd : d ≠ 0) : divQuot true a d = a.sdiv d := by
  refine BitVec.eq_of_toInt_eq ?_
  simp only [divQuot, if_neg hd, if_true, BitVec.toInt_ofInt, BitVec.toInt_sdiv]

theorem divRem_signed {a d : Word} (hd : d ≠ 0) : divRem true a d = a.srem d := by
  simp only [divRem, if_neg hd, if_true, ← BitVec.toInt_srem, BitVec.ofInt_toInt]

/-- DIVU's quotient and remainder (R91). -/
theorem divu_spec {a d : Word} (hd : d ≠ 0) :
    a.toNat = (divQuot false a d).toNat * d.toNat + (divRem false a d).toNat ∧ (divRem false a d).toNat < d.toNat := by
  have hpos : 0 < d.toNat := Nat.pos_of_ne_zero fun e => hd (BitVec.eq_of_toNat_eq (by simpa using e))
  rw [divQuot_unsigned hd, divRem_unsigned hd, BitVec.toNat_udiv, BitVec.toNat_umod, Nat.mul_comm]
  exact ⟨(Nat.div_add_mod ..).symm, Nat.mod_lt _ hpos⟩

/-- A truncated remainder is zero or has the sign of the dividend. -/
theorem tmod_eq_zero_or_neg_iff (a d : Int) : a.tmod d = 0 ∨ (a.tmod d < 0 ↔ a < 0) := by
  have h := Int.sign_tmod a d
  split at h
  · exact .inl (Int.sign_eq_zero_iff_zero.mp h)
  · right
    rw [← Int.sign_eq_neg_one_iff_neg, h, Int.sign_eq_neg_one_iff_neg]

/-- DIV's quotient and remainder, −2^63 ÷ −1 apart (R91). -/
theorem div_spec {a d : Word} (hd : d ≠ 0) (ho : ¬(a = BitVec.ofInt 64 (-2 ^ 63) ∧ d = BitVec.ofInt 64 (-1))) :
    a.toInt = (divQuot true a d).toInt * d.toInt + (divRem true a d).toInt ∧ (divRem true a d).toInt.natAbs < d.toInt.natAbs ∧
      (divRem true a d = 0 ∨ ((divRem true a d).toInt < 0 ↔ a.toInt < 0)) := by
  have hd' : d.toInt ≠ 0 := fun e => hd (BitVec.eq_of_toInt_eq (by simpa using e))
  have hq : (a.sdiv d).toInt = a.toInt.tdiv d.toInt := BitVec.toInt_sdiv_of_ne_or_ne a d (not_and_or.mp ho)
  rw [divQuot_signed hd, divRem_signed hd, hq, BitVec.toInt_srem]
  refine ⟨(Int.tdiv_mul_add_tmod ..).symm, ?_, ?_⟩
  · rw [Int.natAbs_tmod]
    exact Nat.mod_lt _ (Int.natAbs_pos.mpr hd')
  · refine (tmod_eq_zero_or_neg_iff a.toInt d.toInt).imp (fun e => BitVec.eq_of_toInt_eq ?_) id
    simpa [BitVec.toInt_srem] using e

/-- −2^63 ÷ −1 (R93). -/
theorem div_overflow : divQuot true (BitVec.ofInt 64 (-2 ^ 63)) (BitVec.ofInt 64 (-1)) = BitVec.ofInt 64 (-2 ^ 63) ∧
    divRem true (BitVec.ofInt 64 (-2 ^ 63)) (BitVec.ofInt 64 (-1)) = 0 := by decide

/-! ## The divide in flight -/

theorem divFlight_zero (b : Bank) (signed : Bool) (t : Nat) (a : Word) :
    divFlight b signed t a 0 =
      { kind := .div, due := t + 6, mw := [(4, BitVec.allOnes 64), (5, a)], dvs := 2,
        fault := if b.dvs.getLsbD 8 then some 1 else none, addr := b.pc } := by
  have hov : divOver signed a 0 = false := by simp [divOver]
  unfold divFlight
  rw [divLatency_zero, hov]
  simp [divQuot, divRem, bit]

theorem divFlight_of_ne {b : Bank} {signed : Bool} {t : Nat} {a d : Word} (hd : d ≠ 0) :
    divFlight b signed t a d =
      { kind := .div, due := t + 6 + (Nat.size (divMag signed a) + 1 - Nat.size (divMag signed d) + 3) / 4,
        mw := [(4, divQuot signed a d), (5, divRem signed a d)],
        dvs := if signed = true ∧ a = BitVec.ofInt 64 (-2 ^ 63) ∧ d = BitVec.ofInt 64 (-1) then 4 else 0, addr := b.pc } := by
  simp only [divFlight, divLatency_of_ne hd, divOver_iff, ← Nat.add_assoc]
  simp [show ¬d = 0#64 from hd]

/-- DIV and DIVU at their issue (R91 to R94). -/
theorem divide_at_issue : Claims.Divide := by
  intro o x s t h ho b a d n m
  have hc := commits_divide h ho
  refine ⟨fun hd => ?_, fun hd => ⟨divQuot (decide (o = .div)) a d, divRem (decide (o = .div)) a d, ?_, fun hu => ?_, fun hs => ?_⟩⟩
  · rwa [show (found s x t).g x.b = 0 from hd, divFlight_zero] at hc
  · rw [divFlight_of_ne hd] at hc
    simpa [divMag] using hc
  · subst hu
    exact divu_spec hd
  · subst hs
    split
    case isTrue hov =>
      rw [hov.1, hov.2]
      exact div_overflow
    case isFalse hov => exact div_spec hd hov

end Sys2Proof.Machine
end

section
/-! PROOF. Packed decimal: digits, values and significant positions of a word; DECADD and DECSUB at their issue (R95 to R97). -/

namespace Sys2Proof.Machine

open Sys2Proof Sys2Proof.Claims

/-! ## Digits -/

theorem digit_eq (x : Word) (i : Nat) : digit x i = x.toNat / 16 ^ i % 16 := by
  unfold digit fld
  rw [Nat.shiftRight_eq_div_pow, Nat.pow_mul]
  rfl

theorem digitsOk_iff {x : Word} {n : Nat} : digitsOk x n = true ↔ ∀ i, i < n → digit x i ≤ 9 := by
  induction n with
  | zero => simp [digitsOk]
  | succ n ih => rw [Nat.forall_lt_succ_right, ← ih, digitsOk, Bool.and_eq_true, decide_eq_true_eq, and_comm]

theorem digitsOk_iff_bcdOk {x : Word} : digitsOk x 16 = true ↔ bcdOk x := by
  simp only [digitsOk_iff, digit_eq, bcdOk]

theorem decVal_eq_sum (x : Word) (n : Nat) :
    decVal x n = ((List.range n).map (fun i => x.toNat / 16 ^ i % 16 * 10 ^ i)).sum := by
  induction n with
  | zero => rfl
  | succ n ih => simp [decVal, ih, digit_eq, List.range_succ, Nat.add_comm]

theorem decVal_eq_bcd (x : Word) : decVal x 16 = bcd x := decVal_eq_sum x 16

/-- Valid digits make a number below the power of ten that follows them. -/
theorem decVal_lt {x : Word} {n : Nat} (h : digitsOk x n = true) : decVal x n < 10 ^ n := by
  induction n with
  | zero => simp [decVal]
  | succ n ih =>
    simp only [digitsOk, Bool.and_eq_true, decide_eq_true_eq] at h
    have := ih h.2
    have := Nat.mul_le_mul_right (10 ^ n) h.1
    simp only [decVal, Nat.pow_succ]
    omega

/-! ## Packing -/

theorem decPack_lt (v n : Nat) : decPack v n < 16 ^ n := by
  induction n with
  | zero => simp [decPack]
  | succ n ih =>
    have : v / 10 ^ n % 10 * 16 ^ n ≤ 15 * 16 ^ n := Nat.mul_le_mul_right _ (by omega)
    simp only [decPack, Nat.pow_succ]
    omega

/-- The digits of a packed number are its decimal digits. -/
theorem decPack_digit (v : Nat) {n i : Nat} (h : i < n) : decPack v n / 16 ^ i % 16 = v / 10 ^ i % 10 := by
  induction n with
  | zero => omega
  | succ n ih =>
    have hlt := decPack_lt v n
    rcases Nat.lt_succ_iff_lt_or_eq.mp h with hi | rfl
    · obtain ⟨k, rfl⟩ : ∃ k, n = i + 1 + k := ⟨n - (i + 1), by omega⟩
      have hsplit : decPack v (i + 1 + k + 1) = decPack v (i + 1 + k) + 16 ^ i * (16 * (v / 10 ^ (i + 1 + k) % 10 * 16 ^ k)) := by
        simp only [decPack]
        ring
      rw [hsplit, Nat.add_mul_div_left _ _ (by positivity), Nat.add_mul_mod_self_left, ih hi]
    · have hsplit : decPack v (i + 1) = decPack v i + 16 ^ i * (v / 10 ^ i % 10) := by
        simp only [decPack]
        ring
      rw [hsplit, Nat.add_mul_div_left _ _ (by positivity), Nat.div_eq_of_lt hlt]
      omega

/-- The decimal digits of a number, weighted, make it up again. -/
theorem sum_digits (v n : Nat) : ((List.range n).map (fun i => v / 10 ^ i % 10 * 10 ^ i)).sum = v % 10 ^ n := by
  induction n with
  | zero => simp [Nat.mod_one]
  | succ n ih => simp [List.range_succ, ih, Nat.mod_pow_succ, Nat.mul_comm (10 ^ n)]

/-- The word of 16 packed digits. -/
theorem packed_digit (v : Nat) {i : Nat} (h : i < 16) :
    (BitVec.ofNat 64 (decPack v 16)).toNat / 16 ^ i % 16 = v / 10 ^ i % 10 := by
  have hlt : decPack v 16 < 2 ^ 64 := decPack_lt v 16
  rw [BitVec.toNat_ofNat, Nat.mod_eq_of_lt hlt, decPack_digit v h]

theorem bcdOk_packed (v : Nat) : bcdOk (BitVec.ofNat 64 (decPack v 16)) := fun i hi => by
  rw [packed_digit v hi]
  omega

theorem bcd_packed {v : Nat} (h : v < 10 ^ 16) : bcd (BitVec.ofNat 64 (decPack v 16)) = v := by
  have hmap : ∀ i ∈ List.range 16, (BitVec.ofNat 64 (decPack v 16)).toNat / 16 ^ i % 16 * 10 ^ i = v / 10 ^ i % 10 * 10 ^ i :=
    fun i hi => by rw [packed_digit v (List.mem_range.mp hi)]
  unfold bcd
  rw [List.map_congr_left hmap, sum_digits, Nat.mod_eq_of_lt h]

/-! ## Significant digits (R97) -/

theorem lt_pow_sigDigits (x : Word) (n : Nat) : x.toNat % 16 ^ n < 16 ^ sigDigits x n := by
  induction n with
  | zero => simp [sigDigits, Nat.mod_one]
  | succ n ih =>
    unfold sigDigits
    split
    case isTrue => exact Nat.mod_lt _ (by positivity)
    case isFalse h0 =>
      rw [digit_eq, not_not] at h0
      rwa [Nat.mod_pow_succ, h0, Nat.mul_zero, Nat.add_zero]

theorem pow_le_of_lt_sigDigits {x : Word} {n k : Nat} (h : k < sigDigits x n) : 16 ^ k ≤ x.toNat := by
  induction n with
  | zero => simp [sigDigits] at h
  | succ n ih =>
    unfold sigDigits at h
    split at h
    case isTrue h0 =>
      rw [digit_eq] at h0
      have hdiv : 0 < x.toNat / 16 ^ n := Nat.pos_of_ne_zero fun e => h0 (by rw [e])
      calc 16 ^ k ≤ 16 ^ n := Nat.pow_le_pow_right (by decide) (by omega)
        _ ≤ x.toNat := (Nat.div_pos_iff.mp hdiv).2
    case isFalse => exact ih h

theorem toNat_lt_pow_sigDigits (x : Word) : x.toNat < 16 ^ sigDigits x 16 := by
  have h := lt_pow_sigDigits x 16
  rwa [Nat.mod_eq_of_lt (show x.toNat < 16 ^ 16 from x.isLt)] at h

/-! ## The decimal operation in flight -/

/-- The sum or difference modulo 10^16 of two decimal numbers, and its carry or borrow (R95). -/
def decResult (sub : Bool) (m n : Nat) : Nat := if sub then (m + 10 ^ 16 - n) % 10 ^ 16 else (m + n) % 10 ^ 16
def decCarry (sub : Bool) (m n : Nat) : Bool := if sub then decide (m < n) else decide (10 ^ 16 ≤ m + n)

theorem decResult_lt (sub : Bool) (m n : Nat) : decResult sub m n < 10 ^ 16 := by
  unfold decResult
  split <;> exact Nat.mod_lt _ (by decide)

theorem decResult_add {m n : Nat} (hm : m < 10 ^ 16) (hn : n < 10 ^ 16) :
    decResult false m n + (if decCarry false m n then 10 ^ 16 else 0) = m + n := by
  simp only [decResult, decCarry, Bool.false_eq_true, if_false, decide_eq_true_eq]
  split <;> omega

theorem decResult_sub {m n : Nat} (hm : m < 10 ^ 16) (hn : n < 10 ^ 16) :
    decResult true m n + n = m + if decCarry true m n then 10 ^ 16 else 0 := by
  simp only [decResult, decCarry, if_true, decide_eq_true_eq]
  split <;> omega

theorem decFlight_valid {b : Bank} {sub : Bool} {t p : Nat} {a d : Word} (h : bcdOk a ∧ bcdOk d) :
    decFlight b sub t p a d =
      { kind := .dec, due := t + 10 + 2 * max (sigDigits a 16) (sigDigits d 16),
        pw := some (p, BitVec.ofNat 64 (decPack (decResult sub (bcd a) (bcd d)) 16)), dcy := some (decCarry sub (bcd a) (bcd d)) } := by
  have hok : (digitsOk a 16 && digitsOk d 16) = true := by simp [digitsOk_iff_bcdOk, h]
  simp only [decFlight, decLatency, if_pos hok, decVal_eq_bcd, ← Nat.add_assoc]
  rfl

theorem decFlight_invalid {b : Bank} {sub : Bool} {t p : Nat} {a d : Word} (h : ¬(bcdOk a ∧ bcdOk d)) :
    decFlight b sub t p a d = { kind := .dec, due := t + 10, hold := p, dvs := 8, fault := some 2, addr := b.pc } := by
  have hbad : ¬(digitsOk a 16 && digitsOk d 16) = true := by simpa [digitsOk_iff_bcdOk] using h
  simp only [decFlight, decLatency, if_neg hbad]

/-- DECADD and DECSUB at their issue (R95 to R97). -/
theorem decimal_at_issue : Claims.Decimal := by
  intro o x s t h ho b a d
  have hc := commits_decimal h ho
  refine ⟨fun hbad => ?_, fun hok => ?_⟩
  · rwa [decFlight_invalid hbad] at hc
  · rw [decFlight_valid hok] at hc
    have ha : bcd a < 10 ^ 16 := decVal_eq_bcd a ▸ decVal_lt (digitsOk_iff_bcdOk.mpr hok.1)
    have hd : bcd d < 10 ^ 16 := decVal_eq_bcd d ▸ decVal_lt (digitsOk_iff_bcdOk.mpr hok.2)
    refine ⟨_, _, _, hc, ?_, ?_, fun k hk => ?_, bcdOk_packed _, fun hadd => ?_, fun hsub => ?_⟩
    · exact (toNat_lt_pow_sigDigits a).trans_le (Nat.pow_le_pow_right (by decide) (le_max_left ..))
    · exact (toNat_lt_pow_sigDigits d).trans_le (Nat.pow_le_pow_right (by decide) (le_max_right ..))
    · exact (lt_max_iff.mp hk).imp pow_le_of_lt_sigDigits pow_le_of_lt_sigDigits
    · subst hadd
      rw [bcd_packed (decResult_lt ..)]
      exact decResult_add ha hd
    · subst hsub
      rw [bcd_packed (decResult_lt ..)]
      exact decResult_sub ha hd

end Sys2Proof.Machine
end

section
/-! PROOF. Edges that pass: the edge count of a core, the run of its clock, and a divide from its issue to its end (R92, R93, R100). -/

namespace Sys2Proof.Machine

open Sys2Proof Sys2Proof.Claims

/-! ## The edge count -/

/-- What edges that pass change: the counters, and of the core at most one bank. -/
theorem slots_cases (s : State) (c d : Nat) (l : Option Nat) :
    ∃ t, Cnt s t ∧ (s.slots c d l = t ∨ ∃ bi y, s.slots c d l = t.updCore c (fun k => k.setBank bi y)) := by
  have h1 : Cnt s ((s.evc c 0 d).occupancy c d) := (cnt_evc ..).trans (cnt_occupancy ..)
  unfold State.slots
  generalize (s.evc c 0 d).occupancy c d = s1 at *
  split
  · exact ⟨s, .rfl, .inl rfl⟩
  · dsimp only
    split
    · exact ⟨_, h1.trans (cnt_evc ..), .inl rfl⟩
    · next bi _ =>
      split
      · exact ⟨_, h1.trans (cnt_pmuAdd ..), .inr ⟨_, _, rfl⟩⟩
      · have h2 (e₁ e₂ e₃ k : Nat) : Cnt s ((((s1.evc c (wastedCode s) e₁).evc c 4 e₂).evc c 5 e₃).evc c k e₃) :=
          h1.trans ((cnt_evc ..).trans ((cnt_evc ..).trans ((cnt_evc ..).trans (cnt_evc ..))))
        have h3 (t : State) (ht : Cnt s t) : Cnt s (match l with | some code => t.evc c code 1 | none => t) := by
          cases l with
          | none => exact ht
          | some code => exact ht.trans (cnt_evc ..)
        have h4 (t : State) (ht : Cnt s t) (p : Prop) [Decidable p] : Cnt s (if p then t.evc c 0x3F d else t) :=
          .ite (ht.trans (cnt_evc ..)) ht
        split
        · exact ⟨_, h4 _ (h3 _ (h2 ..)) _, .inl rfl⟩
        · exact ⟨_, h4 _ (h3 _ (h2 ..)) _, .inr ⟨_, _, rfl⟩⟩

theorem slots_cyc (s : State) (c d : Nat) (l : Option Nat) : ((s.slots c d l).core c).cyc = (s.core c).cyc := by
  obtain ⟨t, ht, h | ⟨bi, y, h⟩⟩ := slots_cases s c d l
  · rw [h, ht.obs.core]
  · rw [h, State.core_updCore, ← ht.obs.core c]
    rfl

theorem landIn_cyc (s : State) (c e : Nat) (l : Option Nat) : ((s.landIn c e l).core c).cyc = max (s.core c).cyc e := by
  unfold State.landIn
  simp only [State.core_updCore, slots_cyc]
  omega

/-! ## The clock of a core -/

/-- The trace's registers stand above those of every unit that decides whether a core runs. -/
theorem not_traceReg_of_lt {a : Nat} (h : a < 0x14000004) : ¬traceReg a := by
  rintro (rfl | rfl | ⟨i, rfl⟩) <;> simp only [R.TRC_LOST, R.TRC_STAT, R.TRC_ENC] at h <;> omega

theorem OutsideCores.f {s u : State} (h : OutsideCores s u) {a : Nat} (ha : a < 0x14000004) (x : Fld) : u.f a x = s.f a x := by
  unfold State.f
  rw [h.regs a (not_traceReg_of_lt ha)]

theorem OutsideCores.hub {s u : State} (h : OutsideCores s u) : u.hub = s.hub := by rw [h.rest]

theorem clusterHalf_le_one (q : Nat) : clusterHalf q ≤ 1 := by
  unfold clusterHalf routerHalf
  split <;> omega

theorem OutsideCores.unitRuns {s u : State} (h : OutsideCores s u) {d i : Nat} (hd : d < 1000) (hi : i < 1000) :
    unitRuns u d i = unitRuns s d i := by
  have hp : R.PWR_DOM d < 0x14000004 := by unfold R.PWR_DOM; omega
  have hc : R.CLK_ISL i < 0x14000004 := by unfold R.CLK_ISL; omega
  unfold Machine.unitRuns powered locked State.on
  simp only [h.f hp, h.f hc]

theorem OutsideCores.heldInReset {s u : State} (h : OutsideCores s u) {half : Nat} (hh : half ≤ 1) :
    heldInReset u half = heldInReset s half := by
  have hs : R.SAFE_STAT half < 0x14000004 := by unfold R.SAFE_STAT; omega
  unfold Machine.heldInReset safeLevel
  rw [h.f hs, h.hub]

/-- Whether a core's clock runs depends on nothing of the cores themselves. -/
theorem OutsideCores.coreClocked {s u : State} (h : OutsideCores s u) {c : Nat} (hc : c < 128) : coreClocked u c = coreClocked s c := by
  have hp : R.PWR_CORE c < 0x14000004 := by unfold R.PWR_CORE; omega
  unfold Machine.coreClocked State.on
  rw [h.unitRuns (by omega) (by omega), h.heldInReset (clusterHalf_le_one _), h.f hp]

theorem Reaches.clocked {o : Op} {x : Syl} {s : State} {t : Nat} (h : Reaches o x s t) : coreClocked s x.core = true := by
  have hcan := h.can
  simp only [canIssue, selected, Bool.and_eq_true] at hcan
  tauto

/-! ## The end of a divide -/

/-- DIVIDE_COMPLETE runs its core on to the edge on which the bank's next divide lands. -/
theorem exec_divideComplete {c bi e : Nat} {s : State} (hc : c < 128) (hb : bi < 8) (hrun : coreClocked s c = true)
    (hd : nextDue (s.bank c bi) (fun k => k = .div) = some e) : exec (.divideComplete c bi) s = .next (s.landAt c e) := by
  show execDivideComplete c bi s = _
  unfold execDivideComplete atBank atRunning State.landNext
  rw [if_pos hb, if_pos hc, if_pos hrun]
  simp only [hd]

theorem nextDue_single {b : Bank} {f : Flight} (hf : b.fly = [f]) (hk : f.kind = .div) :
    nextDue b (fun k => k = .div) = some f.due := by
  simp [nextDue, hf, hk]

theorem landBank_nil {b : Bank} (h : b.fly = []) (e : Nat) : landBank e b = b := by
  have : { b with fly := [] } = b := by rw [← h]
  unfold landBank
  rw [h]
  exact this

/-- With nothing in flight a bundle's bank is only moved on. -/
theorem arrived_of_fly_nil {b : Bank} (h : b.fly = []) (t n : Nat) :
    b.arrived t n = { b with pc := b.pc + BitVec.ofNat 64 (4 * n), ready := t + 1, held := none } := by
  unfold Bank.arrived
  rw [landBank_nil h, landBank_nil h]

theorem landBank_single {b : Bank} {f : Flight} (hf : b.fly = [f]) : landBank f.due b = landFlight { b with fly := [] } f := by
  simp [landBank, hf]

theorem landFault_mreg (b : Bank) (f : Flight) : (b.landFault f).mreg = b.mreg := by
  unfold Bank.landFault
  split
  · rfl
  · split <;> rfl

theorem landFault_dvs (b : Bank) (f : Flight) : (b.landFault f).dvs = b.dvs := by
  unfold Bank.landFault
  split
  · rfl
  · split <;> rfl

/-- The record of a fault looks at nothing but LOF and what is pending. -/
theorem landFault_congr {a b : Bank} (f : Flight) (hl : a.lof = b.lof) (hp : a.lofPend = b.lofPend) :
    (a.landFault f).lof = (b.landFault f).lof ∧ (a.landFault f).lofPend = (b.landFault f).lofPend := by
  unfold Bank.landFault
  rw [hl]
  cases f.fault with
  | none => exact ⟨hl, hp⟩
  | some k =>
    by_cases hv : bit b.lof 63 = true
    · simp [hv, hp]
    · simp [hv]

theorem landFault_none {f : Flight} (b : Bank) (h : f.fault = none) : b.landFault f = b := by simp [Bank.landFault, h]

/-- A fault while LOF holds an earlier one only sets its bit 62 (R100). -/
theorem landFault_held {b : Bank} {f : Flight} {k : Nat} (h : f.fault = some k) (hv : b.lof.getLsbD 63 = true) :
    (b.landFault f).lof = b.lof ||| 1#64 <<< 62 := by
  simp [Bank.landFault, h, bit, hv, setBit_true]

/-- The first fault is recorded in LOF with its cause and address, and pends (R100). -/
theorem landFault_first {b : Bank} {f : Flight} {k : Nat} (h : f.fault = some k) (hk : k < 16) (hv : b.lof.getLsbD 63 = false) :
    (b.landFault f).lofPend = true ∧ (b.landFault f).lof.getLsbD 63 = true ∧ fld (b.landFault f).lof 48 4 = k ∧
      fld (b.landFault f).lof 0 48 = f.addr.toNat % 2 ^ 48 := by
  have he : b.landFault f =
      { b with lof := setBit (setFld (setFld b.lof 0 48 f.addr.toNat) 48 4 k) 63 true, lofPend := true } := by
    unfold Bank.landFault
    simp only [h]
    exact if_neg (by simp only [bit, hv]; decide)
  rw [he]
  refine ⟨rfl, bit_setBit_self _ 63 true (by decide), ?_, ?_⟩
  · rw [setBit, fld_setFld_disjoint _ _ _ _ _ _ (by decide) (by decide), fld_setFld_self _ _ _ _ (by decide)]
    exact Nat.mod_eq_of_lt hk
  · rw [setBit, fld_setFld_disjoint _ _ _ _ _ _ (by decide) (by decide), fld_setFld_disjoint _ _ _ _ _ _ (by decide) (by decide),
      fld_setFld_self _ _ _ _ (by decide)]

/-- A result in flight that writes a quotient to QT and a remainder to RM, and beside them only DVS and LOF. -/
structure DivideResult (f : Flight) (q r : Word) : Prop where
  kind : f.kind = .div
  mw : f.mw = [(4, q), (5, r)]
  pw : f.pw = none
  fl : f.fl = 0
  dcy : f.dcy = none

theorem divFlight_divideResult (b : Bank) (signed : Bool) (t : Nat) (a d : Word) :
    DivideResult (divFlight b signed t a d) (divQuot signed a d) (divRem signed a d) := ⟨rfl, rfl, rfl, rfl, rfl⟩

/-- What a divide that lands writes: QT, RM, DVS with busy ended, and the record of its fault, that of any bank with the same LOF. -/
theorem landFlight_div {a b : Bank} {f : Flight} {q r : Word} (hf : DivideResult f q r) (hl : a.lof = b.lof) (hp : a.lofPend = b.lofPend) :
    (landFlight a f).mreg = mset (mset a.mreg 4 q) 5 r ∧ (landFlight a f).dvs = setBit a.dvs 0 false ||| BitVec.ofNat 64 f.dvs ∧
      (landFlight a f).lof = (b.landFault f).lof ∧ (landFlight a f).lofPend = (b.landFault f).lofPend := by
  have hland : landFlight a f =
      ({ a with mreg := mset (mset a.mreg 4 q) 5 r, dvs := setBit a.dvs 0 false ||| BitVec.ofNat 64 f.dvs }).landFault f := by
    simp [landFlight, Bank.setM, Bank.landReg, Bank.landFlags, Bank.landDvs, Bank.landDcy, hf.kind, hf.mw, hf.pw, hf.fl, hf.dcy]
  rw [hland]
  exact ⟨landFault_mreg .., landFault_dvs .., landFault_congr f hl hp⟩

/-- The record of a division by zero (R92): none while DVS.dzt is 0; else cause 0x1 at the divide's address, or bit 62 of a LOF that
holds an earlier fault. -/
theorem landFault_div_zero {b e : Bank} {signed : Bool} {t : Nat} {a : Word} (hl : e.lof = (b.landFault (divFlight b signed t a 0)).lof)
    (hp : e.lofPend = (b.landFault (divFlight b signed t a 0)).lofPend) :
    if b.dvs.getLsbD 8 = false then e.lof = b.lof ∧ e.lofPend = b.lofPend
    else if b.lof.getLsbD 63 = true then e.lof = b.lof ||| 1#64 <<< 62
    else e.lofPend = true ∧ e.lof.getLsbD 63 = true ∧ fld e.lof 48 4 = 1 ∧ fld e.lof 0 48 = b.pc.toNat % 2 ^ 48 := by
  have hfault : (divFlight b signed t a 0).fault = if b.dvs.getLsbD 8 then some 1 else none := by rw [divFlight_zero]
  split
  case isTrue hz =>
    have hnone : (divFlight b signed t a 0).fault = none := by rw [hfault, hz]; rfl
    rw [landFault_none b hnone] at hl hp
    exact ⟨hl, hp⟩
  case isFalse hz =>
    have hsome : (divFlight b signed t a 0).fault = some 1 := by rw [hfault, if_pos (Bool.eq_true_of_not_eq_false hz)]
    split
    case isTrue hv => exact hl.trans (landFault_held hsome hv)
    case isFalse hv =>
      rw [hl, hp]
      exact landFault_first hsome (by decide) (Bool.eq_false_iff.mpr hv)

/-- The DVS of a bank that sets busy at issue and ends it later. -/
theorem setBit_busy_end (v : Word) : setBit (v ||| 1#64) 0 false = v &&& ~~~1#64 := by
  rw [setBit_false _ (by decide), BitVec.shiftLeft_zero, BitVec.and_or_distrib_right]
  simp

/-- A divide that issues with nothing in flight, and DIVIDE_COMPLETE after it: busy from issue, and on the edge that ends the latency its
bank holds what the divide writes as it lands (R91, R94). -/
theorem divide_completes {o : Op} {x : Syl} {s : State} {t : Nat} {f : Flight} (h : Issues o x s t)
    (hfly : (s.bank x.core x.bank).fly = []) (hk : f.kind = .div) (hc : Commits o x s t (startsLong f)) :
    ∃ u w, exec (instrOf o x) s = .next u ∧ (u.bank x.core x.bank).dvs.getLsbD 0 = true ∧
      exec (.divideComplete x.core x.bank) u = .next w ∧ (w.core x.core).cyc = max (u.core x.core).cyc f.due ∧
      Bank.same (w.bank x.core x.bank)
        (landFlight { startsLong f ((s.bank x.core x.bank).arrived t (words x)) with fly := [] } f) := by
  obtain ⟨u, hu, hlocal, hbank, -⟩ := hc
  have harr := arrived_of_fly_nil hfly t (words x)
  have hone : (startsLong f ((s.bank x.core x.bank).arrived t (words x))).fly = [f] := by
    rw [harr]
    simp [startsLong, hfly, addFlight]
  have hrun : coreClocked u x.core = true := (hlocal.outside.coreClocked h.core).trans h.clocked
  have hdue : nextDue (u.bank x.core x.bank) (fun k => k = .div) = some f.due :=
    nextDue_single ((Bank.same_fly hbank).trans hone) hk
  refine ⟨u, u.landAt x.core f.due, hu, ?_, exec_divideComplete h.core h.bank hrun hdue, landIn_cyc .., ?_⟩
  · rw [Bank.same_dvs hbank]
    simp [startsLong]
  · rw [← landBank_single hone]
    exact ((landIn_spec u x.core f.due none).2.1 x.bank).trans (landBank_same f.due hbank)

/-- The same, by the registers that a divide writes. -/
theorem divide_ends {o : Op} {x : Syl} {s : State} {t : Nat} {f : Flight} {q r : Word} (h : Issues o x s t)
    (hfly : (s.bank x.core x.bank).fly = []) (hf : DivideResult f q r) (hc : Commits o x s t (startsLong f)) :
    ∃ u w, exec (instrOf o x) s = .next u ∧ (u.bank x.core x.bank).dvs.getLsbD 0 = true ∧
      exec (.divideComplete x.core x.bank) u = .next w ∧ (w.core x.core).cyc = max (u.core x.core).cyc f.due ∧
      let b := found s x t
      let e := w.bank x.core x.bank
      mget 0 e.mreg 4 = q ∧ mget 0 e.mreg 5 = r ∧ e.dvs = (b.dvs &&& ~~~1#64) ||| BitVec.ofNat 64 f.dvs ∧
        e.lof = (b.landFault f).lof ∧ e.lofPend = (b.landFault f).lofPend := by
  have hfound : found s x t = s.bank x.core x.bank := landBank_nil hfly t
  obtain ⟨u, w, hu, hbusy, hw, hcyc, hsame⟩ := divide_completes h hfly hf.kind hc
  rw [arrived_of_fly_nil hfly, ← hfound] at hsame
  generalize found s x t = b at *
  let a : Bank := { startsLong f { b with pc := b.pc + BitVec.ofNat 64 (4 * words x), ready := t + 1, held := none } with fly := [] }
  obtain ⟨hm, hd, hl, hp⟩ := landFlight_div (a := a) (b := b) hf rfl rfl
  have hmreg : (w.bank x.core x.bank).mreg = mset (mset b.mreg 4 q) 5 r := (congrArg Bank.mreg hsame).trans hm
  have hdvs : (w.bank x.core x.bank).dvs = setBit (b.dvs ||| 1#64) 0 false ||| BitVec.ofNat 64 f.dvs := (congrArg Bank.dvs hsame).trans hd
  refine ⟨u, w, hu, hbusy, hw, hcyc, ?_, ?_, ?_, (congrArg Bank.lof hsame).trans hl, (congrArg Bank.lofPend hsame).trans hp⟩
  · rw [hmreg, mget_mset_ne _ _ _ (by decide), mget_mset_self]
  · rw [hmreg, mget_mset_self]
  · rw [hdvs, setBit_busy_end]

/-- A division by zero, and −2^63 ÷ −1, from issue to end (R92, R93). -/
theorem divide_corners : Claims.DivideCorners := by
  intro o x s t h ho hfly b a ends quiet
  have hf := divFlight_divideResult b (decide (o = .div)) t a (b.g x.b)
  obtain ⟨u, w, hu, hbusy, hw, hcyc, hqt, hrm, hdvs, hlof, hpend⟩ := divide_ends h hfly hf (commits_divide h ho)
  refine ⟨fun hz => ⟨u, w, hu, hbusy, hw, ?_⟩, fun hs ha hd => ⟨u, w, hu, hbusy, hw, ?_⟩⟩
  · rw [hz] at hcyc hqt hrm hdvs hlof hpend
    rw [divFlight_zero] at hcyc hdvs
    exact ⟨hcyc, hqt, hrm, hdvs, landFault_div_zero hlof hpend⟩
  · subst hs
    rw [ha, hd] at hcyc hqt hrm hdvs hlof hpend
    rw [divFlight_of_ne (by decide)] at hcyc hdvs hlof hpend
    rw [landFault_none _ rfl] at hlof hpend
    rw [ha]
    exact ⟨hcyc, hqt.trans div_overflow.1, hrm.trans div_overflow.2, hdvs, hlof, hpend⟩

/-- Settles O6, part by part: each operation puts its result in flight at issue, and a divide with nothing in flight before it lands at
DIVIDE_COMPLETE. -/
theorem divideAndDecimal : Obligations.DivideAndDecimal := ⟨divide_corners, divide_at_issue, decimal_at_issue⟩

end Sys2Proof.Machine
end

section
/-! PROOF. The F unit on NaNs, infinities and exact zeros (R123, R124, R126, R127): the datum that a result's bits are, the NaN rules, and
the rows of FloatSpecial. -/

namespace Sys2Proof.Machine

open Sys2Proof Sys2Proof.Claims

/-! ## Results as bits and as data -/

theorem fbits_eq (f : FFmt) (s : Bool) (ex fr : Nat) : fbits f s ex fr = 2 ^ f.mb * (2 ^ f.eb * s.toNat + ex) + fr := by
  unfold fbits
  cases s
  · simp [Nat.mul_comm]
  · simp [Nat.pow_add]
    ring

/-- The datum of a word is the one that its sign, exponent and fraction make. -/
theorem funpack_fbits (f : FFmt) (s : Bool) {ex fr : Nat} (hex : ex < 2 ^ f.eb) (hfr : fr < 2 ^ f.mb) :
    funpack f (fbits f s ex fr) =
      if ex = 2 ^ f.eb - 1 then if fr = 0 then .inf s else .nan s (decide (2 ^ (f.mb - 1) ≤ fr)) (fr % 2 ^ (f.mb - 1))
      else if ex = 0 then .fin s fr f.qmin else .fin s (fr + 2 ^ f.mb) (f.qmin + (ex : Int) - 1) := by
  have hhigh : fbits f s ex fr >>> f.mb = 2 ^ f.eb * s.toNat + ex := by
    rw [fbits_eq, Nat.shiftRight_eq_div_pow, Nat.mul_add_div (by positivity), Nat.div_eq_of_lt hfr, Nat.add_zero]
  have hfrac : fbits f s ex fr % 2 ^ f.mb = fr := by rw [fbits_eq, Nat.mul_add_mod, Nat.mod_eq_of_lt hfr]
  have hexp : fbits f s ex fr >>> f.mb % 2 ^ f.eb = ex := by rw [hhigh, Nat.mul_add_mod, Nat.mod_eq_of_lt hex]
  have hsign : fbits f s ex fr >>> (f.mb + f.eb) = s.toNat := by
    rw [Nat.shiftRight_add, hhigh, Nat.shiftRight_eq_div_pow, Nat.mul_add_div (by positivity), Nat.div_eq_of_lt hex, Nat.add_zero]
  have hs : decide (s.toNat % 2 = 1) = s := by cases s <;> rfl
  simp only [funpack, hfrac, hexp, hsign, hs, ge_iff_le]

theorem funpack_finf (f : FFmt) (s : Bool) : funpack f (finf f s) = .inf s := by
  have hex : 2 ^ f.eb - 1 < 2 ^ f.eb := Nat.sub_lt (by positivity) Nat.one_pos
  rw [finf, funpack_fbits f s hex (by positivity), if_pos rfl, if_pos rfl]

/-- A NaN made quiet keeps its sign and the payload below the quiet bit (R127). -/
theorem funpack_fnan {f : FFmt} (hmb : 0 < f.mb) (s : Bool) {k : Nat} (hk : k < 2 ^ (f.mb - 1)) : funpack f (fnan f s k) = .nan s true k := by
  have hex : 2 ^ f.eb - 1 < 2 ^ f.eb := Nat.sub_lt (by positivity) Nat.one_pos
  have htwo : 2 ^ f.mb = 2 ^ (f.mb - 1) + 2 ^ (f.mb - 1) := by
    rw [← Nat.two_mul, ← Nat.pow_succ', Nat.succ_eq_add_one, Nat.sub_add_cancel hmb]
  have hpos : 2 ^ (f.mb - 1) + k ≠ 0 := by positivity
  rw [fnan, funpack_fbits f s hex (by omega), if_pos rfl, if_neg hpos, Nat.add_mod_left, Nat.mod_eq_of_lt hk,
    decide_eq_true (Nat.le_add_right ..)]

theorem fzero_eq (f : FFmt) (s : Bool) : fzero f s = if s then 2 ^ (f.mb + f.eb) else 0 := by simp [fzero, fbits]

theorem mb_pos_of_isFmt {f : FFmt} (hf : isFmt f) : 0 < f.mb := by rcases hf with rfl | rfl | rfl <;> decide

/-- The default NaNs of the three formats (R126). -/
theorem fdefault_of_isFmt {f : FFmt} (hf : isFmt f) :
    fdefault f = if f = ⟨5, 10⟩ then 0x7E00 else if f = ⟨8, 23⟩ then 0x7FC00000 else 0x7FF8000000000000 := by
  rcases hf with rfl | rfl | rfl <;> decide

/-! ## The NaN rules (R126, R127) -/

section Rules

variable (f : FFmt) (r : Rnd)

/-- An invalid operation without a NaN operand gives the default NaN and nv. -/
theorem withNans_invalid {xs : List FVal} (h : firstNan f xs = none) (go : Nat × Nat) : withNans f xs true go = (fdefault f, fNV) := by
  simp [withNans, h]

/-- A valid operation without a NaN operand gives its own result. -/
theorem withNans_valid {xs : List FVal} (h : firstNan f xs = none) (go : Nat × Nat) : withNans f xs false go = go := by
  simp [withNans, h]

/-- A NaN in ra propagates, and nv tells of a signalling NaN in either operand. -/
theorem withNans_nan_left (s p : Bool) (k : Nat) (b : FVal) (go : Nat × Nat) :
    withNans f [.nan s p k, b] false go = (fnan f s k, if p = false ∨ anySnan [b] then 1 else 0) := by
  simp [withNans, firstNan, anySnan]

/-- A NaN in rb propagates where ra is none. -/
theorem withNans_nan_right {a : FVal} (ha : a.isNan = false) (s p : Bool) (k : Nat) (go : Nat × Nat) :
    withNans f [a, .nan s p k] false go = (fnan f s k, if p then 0 else 1) := by
  cases a with
  | nan => cases ha
  | inf | fin => cases p <;> rfl

/-- The NaN rules do not look at the sign of an operand that is no NaN. -/
theorem withNans_neg (a b : FVal) (inv : Bool) (go : Nat × Nat) : withNans f [a, b.neg] inv go = withNans f [a, b] inv go := by
  cases a <;> cases b <;> rfl

theorem isNan_iff {a : FVal} : a.isNan = true ↔ ∃ s q p, a = .nan s q p := by cases a <;> simp [FVal.isNan]

theorem infMinusInf_of_isNan {a b : FVal} (h : a.isNan = true ∨ b.isNan = true) : infMinusInf a b = false := by
  simp only [isNan_iff] at h
  rcases h with ⟨_, _, _, rfl⟩ | ⟨_, _, _, rfl⟩
  · rfl
  · cases a <;> rfl

theorem zeroTimesInf_of_isNan {a b : FVal} (h : a.isNan = true ∨ b.isNan = true) : zeroTimesInf a b = false := by
  simp only [isNan_iff] at h
  rcases h with ⟨_, _, _, rfl⟩ | ⟨_, _, _, rfl⟩
  · rfl
  · cases a <;> rfl

theorem fdiv_of_isNan {a b : FVal} (h : a.isNan = true ∨ b.isNan = true) : fdiv f r a b = withNans f [a, b] false (fdefault f, 0) := by
  simp only [isNan_iff] at h
  rcases h with ⟨_, _, _, rfl⟩ | ⟨_, _, _, rfl⟩
  · rfl
  · cases a <;> rfl

theorem isNan_neg (a : FVal) : a.neg.isNan = a.isNan := by cases a <;> rfl

/-- With a NaN operand FADD, FSUB, FMUL and FDIV answer by the NaN rules alone, as valid operations. -/
theorem arith_of_isNan {o : FVal → FVal → Nat × Nat} (ho : o = fadd f r ∨ o = fsub f r ∨ o = fmul f r ∨ o = fdiv f r) {a b : FVal}
    (h : a.isNan = true ∨ b.isNan = true) : ∃ go, o a b = withNans f [a, b] false go := by
  rcases ho with rfl | rfl | rfl | rfl
  case inl => exact ⟨addVals f r a b, by rw [fadd, infMinusInf_of_isNan h]⟩
  case inr.inl =>
    have h' : a.isNan = true ∨ b.neg.isNan = true := by rwa [isNan_neg]
    exact ⟨addVals f r a b.neg, by rw [fsub, fadd, infMinusInf_of_isNan h', withNans_neg]⟩
  case inr.inr.inl => exact ⟨froundVal f r (mulVals a b), by rw [fmul, zeroTimesInf_of_isNan h]⟩
  case inr.inr.inr => exact ⟨_, fdiv_of_isNan f r h⟩

/-! ## Invalid operations (R126) -/

theorem fadd_opposite_infs (p : Bool) : fadd f r (.inf p) (.inf !p) = (fdefault f, fNV) := by
  have hinv : infMinusInf (.inf p) (.inf !p) = true := by simp [infMinusInf]
  rw [fadd, hinv, withNans_invalid f rfl]

theorem fsub_equal_infs (p : Bool) : fsub f r (.inf p) (.inf p) = (fdefault f, fNV) := fadd_opposite_infs f r p

theorem fmul_inf_zero (p q : Bool) (e : Int) : fmul f r (.inf p) (.fin q 0 e) = (fdefault f, fNV) := withNans_invalid f rfl _

theorem fmul_zero_inf (p q : Bool) (e : Int) : fmul f r (.fin q 0 e) (.inf p) = (fdefault f, fNV) := withNans_invalid f rfl _

theorem fsqrt_negative (e : Int) {m : Nat} (hm : m ≠ 0) : fsqrt f r (.fin true m e) = (fdefault f, fNV) := by simp [fsqrt, hm]

/-! ## Exact zeros and divisions by zero (R123, R124) -/

theorem fdiv_by_zero (p q : Bool) (e : Int) {m : Nat} (hm : m ≠ 0) : fdiv f r (.fin p m e) (.fin q 0 e) = (finf f (p ^^ q), fDZ) := by
  simp [fdiv, hm]

theorem sint_not (s : Bool) (m : Nat) : sint (!s) m = -sint s m := by cases s <;> simp [sint]

/-- The sum of a number and its negative is a zero with the sign of R123. -/
theorem fadd_cancel (p : Bool) (m : Nat) (e : Int) : fadd f r (.fin p m e) (.fin (!p) m e) = (fzero f (decide (r = .dn)), 0) := by
  have hsum : (finSum p m e (!p) m e).1 = 0 := by simp [finSum, sint_not]
  have hsign : zeroSign r p (!p) = decide (r = .dn) := by simp [zeroSign]
  rw [fadd, show infMinusInf (.fin p m e) (.fin (!p) m e) = false from rfl, withNans_valid f rfl]
  simp only [addVals, froundInt, hsum, hsign, if_true]

end Rules

/-! ## The claim -/

/-- The operations on what is no number, and on exact zeros (R123, R124, R126, R127). -/
theorem float_special : Claims.FloatSpecial := by
  intro f r p q m e a b hf nan
  have hnan : fdefault f = nan := fdefault_of_isFmt hf
  rw [← hnan]
  refine ⟨fadd_opposite_infs f r p, fsub_equal_infs f r p, fmul_inf_zero f r p q e, fmul_zero_inf f r p q e, rfl, rfl,
    fsqrt_negative f r e, rfl, ?_, fun hm => ?_, ?_, fun s k hk o ho => ?_⟩
  · exact congrArg (·, 0) (fzero_eq f true)
  · rw [fdiv_by_zero f r p q e hm]
    exact ⟨funpack_finf f _, rfl⟩
  · rw [fadd_cancel, fzero_eq]
    simp only [decide_eq_true_eq]
  · have hquiet := funpack_fnan (mb_pos_of_isFmt hf) s hk
    obtain ⟨go, hleft⟩ := arith_of_isNan f r ho (a := .nan s p k) (b := b) (.inl rfl)
    rw [hleft, withNans_nan_left]
    refine ⟨hquiet, rfl, fun ha => ?_⟩
    obtain ⟨go, hright⟩ := arith_of_isNan f r ho (a := a) (b := .nan s p k) (.inr rfl)
    rw [hright, withNans_nan_right f ha]
    exact ⟨hquiet, rfl⟩

end Sys2Proof.Machine
end

section
/-! PROOF. The edge results of R130 and R131: what an F operation puts in flight at its issue, lane by lane, and the tables evaluated. -/

namespace Sys2Proof.Machine

open Sys2Proof Sys2Proof.Claims

/-! ## The issue of an F operation (R118, R121) -/

theorem blind_starts (f : Flight) : Blind (starts f) := fun _ _ h => congrArg (starts f) h

/-- The kind of flight of an F operation (R120). -/
def flightKind (o : Op) : FlightKind := if o = .fdiv ∨ o = .fsqrt then .fpLong else .fp

/-- A result of the F unit goes to the register that rd names as its bundle finds the bank. -/
theorem ffly_seen (s : State) (x : Syl) (t : Nat) (k : FlightKind) (due : Nat) (v : Word × Nat) :
    ffly (seenBy s x t) x k due v =
      onBank x (starts { kind := k, due := due, pw := some ((found s x t).nm x.d, v.1), fl := v.2 }) := by
  rw [← seen_nm]
  rfl

/-- An instruction that answers with a result of the F unit, at the latency of R118, completes with it in flight. -/
theorem floatGives_of_ffly {o : Op} {x : Syl} {s : State} {t n : Nat} {v : Word × Nat} (h : Issues o x s t)
    (he : exec (instrOf o x) s = runOne o (semOf o) x s) (hn : fLatency o x.fn.toNat = some n)
    (hs : semOf o (seenBy s x t) t x = ffly (seenBy s x t) x (flightKind o) (t + n) v) : floatGives o x s t v.1 v.2 :=
  ⟨n, hn, commits_onBank h he (hs.trans (ffly_seen ..)) (blind_starts _)⟩

theorem seen_fpc (s : State) (x : Syl) (t : Nat) : (preBank (seenBy s x t) x).fpc = (found s x t).fpc := Bank.same_fpc (seen_bank s x t)

theorem rndOf_eq_rounding (x : Syl) (fpc : Word) : rndOf x.fn.toNat fpc = rounding x fpc := by
  unfold rndOf rounding
  generalize x.fn.toNat / 4 = k, fld fpc 0 3 = m
  rcases k with _ | _ | _ | k
  case succ.zero | succ.succ.zero => rfl
  case zero | succ.succ.succ => rcases m with _ | _ | _ | _ | _ | m <;> rfl

theorem seen_rnd (s : State) (x : Syl) (t : Nat) : rnd (seenBy s x t) x = rounding x (found s x t).fpc := by
  rw [rnd, seen_fpc, rndOf_eq_rounding]

/-! ## Lanes (R114) -/

/-- What an operation of R130 computes in one lane, from the bits of ra, rb and rd. -/
def laneResult (o : Op) (f : FFmt) (r : Rnd) (a b d : Nat) : Nat × Nat :=
  match o with
  | .fadd => fadd f r (funpack f a) (funpack f b)
  | .fsub => fsub f r (funpack f a) (funpack f b)
  | .fmul => fmul f r (funpack f a) (funpack f b)
  | .fma => ffma f r false false (funpack f a) (funpack f b) (funpack f d)
  | .fdiv => fdiv f r (funpack f a) (funpack f b)
  | .fsqrt => fsqrt f r (funpack f a)
  | .fcvti => ((fcvti r true (funpack f a)).1.toNat, (fcvti r true (funpack f a)).2)
  | .fcvtiu => ((fcvti r false (funpack f a)).1.toNat, (fcvti r false (funpack f a)).2)
  | _ => (0, 0)

/-- Of the operations of R130, those that read rb. -/
def readsTwo (o : Op) : Prop := o ≠ .fsqrt ∧ o ≠ .fcvti ∧ o ≠ .fcvtiu

/-- FSQRT and the conversions do not read rb, and only FMA reads its addend. -/
theorem laneResult_congr {o : Op} {f : FFmt} {r : Rnd} {a b b' d d' : Nat} (hb : readsTwo o → b = b')
    (hd : o = .fma → d = d') : laneResult o f r a b d = laneResult o f r a b' d' := by
  unfold laneResult
  split <;> simp_all [readsTwo]

/-- The operations of R130 that the packed format has too, and those that it has not. -/
def packedOps : List Op := [.fadd, .fsub, .fmul, .fma]
def scalarOps : List Op := [.fdiv, .fsqrt, .fcvti, .fcvtiu]

theorem exec_floatOp {o : Op} (ho : o ∈ packedOps ++ scalarOps) (x : Syl) (s : State) : exec (instrOf o x) s = runOne o (semOf o) x s := by
  fin_cases ho <;> rfl

/-- A result as the word that rd receives, and its flags. -/
def asWord (p : Nat × Nat) : Word × Nat := (BitVec.ofNat 64 p.1, p.2)

theorem asWord_toNat (v : Word × Nat) : asWord (v.1.toNat, v.2) = v := by simp [asWord]

theorem sem_packedOps {o : Op} (ho : o ∈ packedOps) (s : State) (t : Nat) (x : Syl) :
    ∃ n, fLatency o x.fn.toNat = some n ∧ semOf o s t x = ffly s x (flightKind o) (t + n)
      (lanes x.fn.toNat fun f sel => laneResult o f (rnd s x) (sel (opA s x).toNat) (sel (opB s x).toNat) (sel (opD s x).toNat)) := by
  fin_cases ho <;> exact ⟨_, rfl, rfl⟩

theorem sem_scalarOps {o : Op} (ho : o ∈ scalarOps) (s : State) (t : Nat) (x : Syl) :
    ∃ n, fLatency o x.fn.toNat = some n ∧ semOf o s t x = ffly s x (flightKind o) (t + n)
      (asWord (laneResult o (sfmt x) (rnd s x) (opA s x).toNat (opB s x).toNat (opD s x).toNat)) := by
  fin_cases ho
  · exact ⟨_, rfl, rfl⟩
  · exact ⟨_, rfl, rfl⟩
  · exact ⟨4, rfl, congrArg (ffly s x .fp (t + 4)) (asWord_toNat (fcvti (rnd s x) true (fA s x))).symm⟩
  · exact ⟨4, rfl, congrArg (ffly s x .fp (t + 4)) (asWord_toNat (fcvti (rnd s x) false (fA s x))).symm⟩

theorem lanes_scalar {fn : Nat} (h : fn % 4 ≠ 3) (go : FFmt → (Nat → Nat) → Nat × Nat) :
    lanes fn go = asWord (go (ffmt (fn % 4)) fun v => v) := if_neg h

theorem lanes_packed {fn : Nat} (h : fn % 4 = 3) (go : FFmt → (Nat → Nat) → Nat × Nat) :
    lanes fn go =
      (BitVec.ofNat 64 ((go (ffmt 1) fun v => v % 2 ^ 32).1 + (go (ffmt 1) fun v => v >>> 32).1 * 2 ^ 32),
        (go (ffmt 1) fun v => v % 2 ^ 32).2 ||| (go (ffmt 1) fun v => v >>> 32).2) := if_pos h

section OfSyllable

variable {o : Op} {x : Syl} {s : State} {t : Nat}

/-- An operation of R130 in a format of its own gives its result on the operands. -/
theorem floatGives_scalar (h : Issues o x s t) (ho : o ∈ packedOps ++ scalarOps) (hm : x.fn.toNat % 4 ≠ 3) :
    let b := found s x t
    let p := laneResult o (ffmt (x.fn.toNat % 4)) (rounding x b.fpc) (b.g x.a).toNat (b.g x.b).toNat (b.g x.d).toNat
    floatGives o x s t (BitVec.ofNat 64 p.1) p.2 := by
  intro b p
  simp only [p, b, ← seen_A, ← seen_B, ← seen_D, ← seen_rnd]
  have he := exec_floatOp ho x s
  rcases List.mem_append.mp ho with ho | ho
  · obtain ⟨n, hn, hs⟩ := sem_packedOps ho (seenBy s x t) t x
    rw [lanes_scalar hm] at hs
    exact floatGives_of_ffly h he hn hs
  · obtain ⟨n, hn, hs⟩ := sem_scalarOps ho (seenBy s x t) t x
    exact floatGives_of_ffly h he hn hs

/-- In the packed format it gives the binary32 results on the halves of the operands, and the flags of both. -/
theorem floatGives_packed (h : Issues o x s t) (ho : o ∈ packedOps) (hm : x.fn.toNat % 4 = 3) :
    let b := found s x t
    let lane := fun sel : Nat → Nat =>
      laneResult o (ffmt 1) (rounding x b.fpc) (sel (b.g x.a).toNat) (sel (b.g x.b).toNat) (sel (b.g x.d).toNat)
    let p := lane fun v => v % 2 ^ 32
    let q := lane fun v => v >>> 32
    floatGives o x s t (BitVec.ofNat 64 (p.1 + q.1 * 2 ^ 32)) (p.2 ||| q.2) := by
  intro b lane p q
  simp only [q, p, lane, b, ← seen_A, ← seen_B, ← seen_D, ← seen_rnd]
  obtain ⟨n, hn, hs⟩ := sem_packedOps ho (seenBy s x t) t x
  rw [lanes_packed hm] at hs
  exact floatGives_of_ffly h (exec_floatOp (List.mem_append_left _ ho) x s) hn hs

/-! ## The tables (R130, R131) -/

/-- A row of R130 in a format: its operands are bits of the format, and its operation gives its result and flags. -/
def RowHolds (f : FFmt) (o : Op) (r : Rnd) (A B D v fl : Nat) : Prop :=
  o ∈ packedOps ++ scalarOps ∧ A < 2 ^ f.width ∧ B < 2 ^ f.width ∧ D < 2 ^ f.width ∧ laneResult o f r A B D = (v, fl)

/-- Every row of R130 holds of the model's arithmetic. -/
theorem edgesOf_hold {fmt : Nat} (hm : fmt < 3) :
    ∀ p ∈ edgesOf fmt, RowHolds (ffmt fmt) p.1 p.2.1 p.2.2.1 p.2.2.2.1 p.2.2.2.2.1 p.2.2.2.2.2.1 p.2.2.2.2.2.2 := by
  unfold RowHolds
  interval_cases fmt <;> decide +kernel

/-- The rows of R131 for FCVT, by fn, FPC.rm, the operand, the result and the flags. -/
def convertRows : List (Nat × Nat × Nat × Nat × Nat) :=
  [(4, 0, 1, 0x33800000, 0), (4, 0, 0x7BFF, 0x477FE000, 0), (9, 0, 1, 0x36A0000000000000, 0), (6, 0, 1, 0, 24),
    (6, 0, 0x7FEFFFFFFFFFFFFF, 0x7F800000, 20), (6, 1, 0x7FEFFFFFFFFFFFFF, 0x7F7FFFFF, 20), (1, 0, 0x7F7FFFFF, 0x7C00, 20)]

theorem convertRows_hold : ∀ p ∈ convertRows, p.2.2.1 < 2 ^ 64 ∧
    fcvt (ffmt (p.1 % 4)) (ffmt (p.1 / 4)) (Rnd.ofRm p.2.1) (funpack (ffmt (p.1 % 4)) p.2.2.1) = (p.2.2.2.1, p.2.2.2.2) := by
  decide +kernel

/-- The rows of R131 for FCVTF: 2^63 − 1 to binary32 and to binary16. -/
theorem fcvtf_max_hold :
    fcvtf (ffmt 1) .ne (0x7FFFFFFFFFFFFFFF : Word).toInt = (0x5F000000, 16) ∧
      fcvtf (ffmt 0) .ne (0x7FFFFFFFFFFFFFFF : Word).toInt = (0x7C00, 20) := by
  decide +kernel

theorem width_le (fmt : Nat) : (ffmt fmt).width ≤ 64 := by
  unfold ffmt
  split <;> decide

/-- The bits of an operand of a format, in a register. -/
theorem toNat_of_lt_width {fmt A : Nat} (h : A < 2 ^ (ffmt fmt).width) : (BitVec.ofNat 64 A).toNat = A := by
  have h64 := h.trans_le (Nat.pow_le_pow_right Nat.two_pos (width_le fmt))
  rw [BitVec.toNat_ofNat, Nat.mod_eq_of_lt h64]

/-- The halves of a packed register. -/
theorem toNat_pair_low {A A' : Nat} (h : A < 2 ^ 32) : (BitVec.ofNat 64 (A + A' * 2 ^ 32)).toNat % 2 ^ 32 = A := by
  rw [BitVec.toNat_ofNat]
  omega

theorem toNat_pair_high {A A' : Nat} (h : A < 2 ^ 32) (h' : A' < 2 ^ 32) : (BitVec.ofNat 64 (A + A' * 2 ^ 32)).toNat >>> 32 = A' := by
  rw [BitVec.toNat_ofNat, Nat.shiftRight_eq_div_pow]
  omega

/-- The rows of R130 in the formats of one datum. -/
theorem edges_scalar {r : Rnd} {A B D v fl : Nat} (h : Issues o x s t) (hm : x.fn.toNat % 4 < 3)
    (hrow : (o, r, A, B, D, v, fl) ∈ edgesOf (x.fn.toNat % 4)) (hr : rounding x (found s x t).fpc = r)
    (ha : (found s x t).g x.a = BitVec.ofNat 64 A) (hb : readsTwo o → (found s x t).g x.b = BitVec.ofNat 64 B)
    (hd : o = .fma → (found s x t).g x.d = BitVec.ofNat 64 D) :
    floatGives o x s t (BitVec.ofNat 64 v) fl := by
  obtain ⟨ho, hA, hB, hD, hv⟩ := edgesOf_hold hm _ hrow
  have hgives := floatGives_scalar h ho (Nat.ne_of_lt hm)
  have hlane : laneResult o (ffmt (x.fn.toNat % 4)) r A ((found s x t).g x.b).toNat ((found s x t).g x.d).toNat = (v, fl) := by
    rw [← hv]
    exact laneResult_congr (fun h2 => by rw [hb h2, toNat_of_lt_width hB]) (fun hf => by rw [hd hf, toNat_of_lt_width hD])
  simpa only [hr, ha, toNat_of_lt_width hA, hlane] using hgives

/-- A pair of rows of R130, in the lanes of the packed format. -/
theorem edges_packed {r : Rnd} {A B D v fl A' B' D' v' fl' : Nat} (h : Issues o x s t) (hm : x.fn.toNat % 4 = 3) (ho : o ∈ packedOps)
    (hrow : (o, r, A, B, D, v, fl) ∈ edgesOf 1) (hrow' : (o, r, A', B', D', v', fl') ∈ edgesOf 1)
    (hr : rounding x (found s x t).fpc = r) (ha : (found s x t).g x.a = BitVec.ofNat 64 (A + A' * 2 ^ 32))
    (hb : (found s x t).g x.b = BitVec.ofNat 64 (B + B' * 2 ^ 32))
    (hd : o = .fma → (found s x t).g x.d = BitVec.ofNat 64 (D + D' * 2 ^ 32)) :
    floatGives o x s t (BitVec.ofNat 64 (v + v' * 2 ^ 32)) (fl ||| fl') := by
  obtain ⟨-, hA, hB, hD, hv⟩ := edgesOf_hold (by decide) _ hrow
  obtain ⟨-, hA', hB', hD', hv'⟩ := edgesOf_hold (by decide) _ hrow'
  have hgives := floatGives_packed h ho hm
  have hlow : laneResult o (ffmt 1) r A (((found s x t).g x.b).toNat % 2 ^ 32) (((found s x t).g x.d).toNat % 2 ^ 32) = (v, fl) := by
    rw [← hv]
    exact laneResult_congr (fun _ => by rw [hb, toNat_pair_low hB]) (fun hf => by rw [hd hf, toNat_pair_low hD])
  have hhigh : laneResult o (ffmt 1) r A' (((found s x t).g x.b).toNat >>> 32) (((found s x t).g x.d).toNat >>> 32) = (v', fl') := by
    rw [← hv']
    exact laneResult_congr (fun _ => by rw [hb, toNat_pair_high hB hB']) (fun hf => by rw [hd hf, toNat_pair_high hD hD'])
  simpa only [hr, ha, toNat_pair_low hA, toNat_pair_high hA hA', hlow, hhigh] using hgives

/-- A row of R131 for FCVT, which rounds by FPC.rm. -/
theorem edges_convert {fn rm A v fl : Nat} (h : Issues .fcvt x s t) (hrow : (fn, rm, A, v, fl) ∈ convertRows) (hfn : x.fn.toNat = fn)
    (hrm : fld (found s x t).fpc 0 3 = rm) (ha : (found s x t).g x.a = BitVec.ofNat 64 A) :
    floatGives .fcvt x s t (BitVec.ofNat 64 v) fl := by
  obtain ⟨hA, hv⟩ := convertRows_hold _ hrow
  have hA' : (BitVec.ofNat 64 A).toNat = A := Nat.mod_eq_of_lt hA
  have hs : semFcvt (seenBy s x t) t x = ffly (seenBy s x t) x .fp (t + 4) (BitVec.ofNat 64 v, fl) := by
    simp only [semFcvt, fA, sfmt, seen_A, seen_fpc, ha, hA', hfn, hrm, hv]
  exact floatGives_of_ffly h rfl rfl hs

/-- FCVTF of a word whose conversion is known. -/
theorem floatGives_fcvtf {m v fl : Nat} {a : Word} {r : Rnd} (h : Issues .fcvtf x s t) (hr : rounding x (found s x t).fpc = r)
    (ha : (found s x t).g x.a = a) (hm : x.fn.toNat % 4 = m) (hv : fcvtf (ffmt m) r a.toInt = (v, fl)) :
    floatGives .fcvtf x s t (BitVec.ofNat 64 v) fl := by
  have hs : semFcvtf (seenBy s x t) t x = ffly (seenBy s x t) x .fp (t + 4) (BitVec.ofNat 64 v, fl) := by
    simp only [semFcvtf, sfmt, seen_A, seen_rnd, ha, hm, hr, hv]
  exact floatGives_of_ffly h rfl rfl hs

end OfSyllable

/-- The edge results of R130 and R131 for every syllable that issues. -/
theorem float_edges : Claims.FloatEdges := by
  intro o x s t h b two
  refine ⟨fun r A B D v fl hm hrow hr ha hb hd => edges_scalar h hm hrow hr ha hb hd, ?_, ?_, ?_⟩
  · intro r A B D v fl A' B' D' v' fl' hm ho hrow hrow' hr ha hb hd
    have hp : o ∈ packedOps := by simpa [packedOps] using ho
    exact edges_packed h hm hp hrow hrow' hr ha hb hd
  · rintro fn rm A v fl rfl hrow hfn hrm ha
    exact edges_convert h hrow hfn hrm ha
  · rintro rfl hr ha
    exact ⟨fun hm => floatGives_fcvtf h hr ha hm fcvtf_max_hold.1, fun hm => floatGives_fcvtf h hr ha hm fcvtf_max_hold.2⟩

/-- Settles O11, part by part: the rules of NaNs, infinities and exact zeros for every operand, and the tables of R130 and R131 row by
row. -/
theorem floatEdgeCases : Obligations.FloatEdgeCases := ⟨float_special, float_edges⟩

end Sys2Proof.Machine
end
